-- ==== Sys2Proof/Word.lean ====
section
/-!
DEFINITION. The word types of the model and the geometry constants of the package that every layer names.
-/

namespace Sys2Proof

/-- A byte of memory. -/
abbrev Byte := BitVec 8

/-- A 32-bit word: an FP32 value, a token, a random word. -/
abbrev W32 := BitVec 32

/-- A 64-bit word of a card, a record or a register (R10: little-endian). -/
abbrev W64 := BitVec 64

/-- A sparse table: the entries that differ from the table's default, keys strictly rising. Operations stand in
Machine/Tab.lean. -/
abbrev Tab (α : Type) := List (Nat × α)

end Sys2Proof
end

