-- ==== Sys2Proof/Status.lean ====
section
/-!
DEFINITION. The named statuses of the package (R15): one constructor for each row of the status tables of
spec/01 to spec/16, under the table's name. The 16-bit codes stand in Machine/StatusCode.lean.
-/

namespace Sys2Proof

/-- Every outcome the package reports (R15). `ok` is code 0x0000. -/
inductive Status where
  /-- The action was performed (R15). -/
  | ok
  /-- TK_CONFIG_INVALID: A setting violates R21, or TK_SYNC holds an illegal value -/
  | tkConfigInvalid
  /-- TK_BUSY: A setting change is armed while a job is admitted -/
  | tkBusy
  /-- TK_APPLY_TOO_SOON: TK_APPLY_AT names a tick less than 2 ahead -/
  | tkApplyTooSoon
  /-- NO_CREDIT: Firmware posts without a credit -/
  | noCredit
  /-- CREDIT_MISMATCH: A boundary audit fails -/
  | creditMismatch
  /-- TICK_SYNC_LOST: A follower loses its tick-sync edge or IEEE 1588 time -/
  | tickSyncLost
  /-- CARD_TOO_LONG: A card's computed length exceeds 7,520 cycles -/
  | cardTooLong
  /-- TORN_DOWN: A queued card is discarded by teardown -/
  | tornDown
  /-- LW_FORMAT_INVALID: A format code is 8–15 -/
  | lwFormatInvalid
  /-- LW_PAIR_INVALID: The format pair is not in R53 -/
  | lwPairInvalid
  /-- LW_SHAPE_INVALID: SHAPE is 8–15 -/
  | lwShapeInvalid
  /-- LW_ROWS_INVALID: The row count is outside the limits of R72 -/
  | lwRowsInvalid
  /-- LW_DEPTH_INVALID: K is not a legal multiple of B, or the weight range lies outside the lane store -/
  | lwDepthInvalid
  /-- LW_ACC_EMPTY: A continuing card finds no matching open accumulation -/
  | lwAccEmpty
  /-- LW_ACC_OPEN: A NEW card finds an open accumulation -/
  | lwAccOpen
  /-- LW_OUTFMT_INVALID: OUTFMT is not FP32, BF16, FP16, E4M3 or E5M2 -/
  | lwOutfmtInvalid
  /-- LW_ROUND_INVALID: ROUND is 2 or 3 -/
  | lwRoundInvalid
  /-- LW_UNIT_ABSENT: The card names a logical unit that the cluster does not enable -/
  | lwUnitAbsent
  /-- LW_CIRRUS_OVERCOMMIT: Partition shares sum to more than 2,048 -/
  | lwCirrusOvercommit
  /-- LW_CIRRUS_NO_SHARE: An admission would exceed the partition's share -/
  | lwCirrusNoShare
  /-- LW_CIRRUS_NO_PERMIT: A DEFER MV card issues on a cluster with no permits -/
  | lwCirrusNoPermit
  /-- CK_RETRIED_OK: The re-execution passed and was written back -/
  | ckRetriedOk
  /-- CK_RELOCATED: The relief card passed and was written back -/
  | ckRelocated
  /-- CK_TOL_DATA: Two units agreed bit for bit beyond τ; the result was written back -/
  | ckTolData
  /-- CK_UNRECOVERED: No attempt passed and the units disagreed -/
  | ckUnrecovered
  /-- CK_NO_RELIEF: No AVAILABLE neighbour was left -/
  | ckNoRelief
  /-- STALE_EPOCH: A card reached a STALE unit that no refill can restore -/
  | staleEpoch
  /-- CK_NO_CHECKSUM: A tile was loaded without its checksums -/
  | ckNoChecksum
  /-- CK_ROWCHK_INVALID: ROWCHK breaks R81 -/
  | ckRowchkInvalid
  /-- CK_STORE_UNCORRECTABLE: Lane-store ECC found an uncorrectable word -/
  | ckStoreUncorrectable
  /-- CK_REFILL_NO_SOURCE: Contents have no near-memory source -/
  | ckRefillNoSource
  /-- CK_REPAIR_RECORD_FULL: The repair record has no free entry -/
  | ckRepairRecordFull
  /-- CK_REQ_INVALID: A maintenance request is malformed -/
  | ckReqInvalid
  /-- CK_REQ_DENIED: The requester lacks rights -/
  | ckReqDenied
  /-- CK_TARGET_RETIRED: The target is retired or fused off -/
  | ckTargetRetired
  /-- CK_UNIT_IN_USE: STORE_TEST was requested on a unit held by a job -/
  | ckUnitInUse
  /-- CK_MAINT_QUEUE_FULL: The requester's share of the maintenance queue is full -/
  | ckMaintQueueFull
  /-- CK_REQ_MERGED: A request was merged with a queued one -/
  | ckReqMerged
  /-- CK_NO_SLOT: MAINT_US is 0 -/
  | ckNoSlot
  /-- CARD_ENGINE_INVALID: ENGINE is 10–15 -/
  | cardEngineInvalid
  /-- CARD_NOT_OWNER: CLASS, PART or JOB is not the cluster's owner -/
  | cardNotOwner
  /-- CARD_EPOCH_MISMATCH: EPOCH differs from the cluster epoch -/
  | cardEpochMismatch
  /-- CARD_OPCODE_INVALID: OPCODE is not defined for the engine -/
  | cardOpcodeInvalid
  /-- CARD_FIELD_INVALID: A body or header field is illegal; the record names it -/
  | cardFieldInvalid
  /-- POOL_RANGE_INVALID: A pool range breaks R103 -/
  | poolRangeInvalid
  /-- CHAIN_NOT_OPEN: A card names a chain that is not open, or whose CHAIN_OPEN values differ -/
  | chainNotOpen
  /-- CHAIN_BUSY: CHAIN_OPEN names an open chain -/
  | chainBusy
  /-- CHAIN_TOO_LONG: A chain's 65,536th card -/
  | chainTooLong
  /-- CHAIN_TWO_HEAVY: A second accumulation in one chain -/
  | chainTwoHeavy
  /-- CHAIN_WAIT_INVALID: The prefix wait exceeds the cards posted before it -/
  | chainWaitInvalid
  /-- CHAIN_ABORTED: A card retires unexecuted after its chain aborted -/
  | chainAborted
  /-- CHAIN_NO_SPACE: Neither mode fits the declared space -/
  | chainNoSpace
  /-- CHAIN_ARRIVAL_OVF: An arrival lands on a chain whose arrival count is 65,535 -/
  | chainArrivalOvf
  /-- TABLE_EMPTY: A card names an empty function-table slot -/
  | tableEmpty
  /-- TABLE_INVALID: A function-table header is illegal at admission -/
  | tableInvalid
  /-- VX_BUDGET_EXCEEDED: A vector program runs out of its budget -/
  | vxBudgetExceeded
  /-- VX_FAULT: A vector program executes an illegal instruction or faults on access -/
  | vxFault
  /-- POOL_UNCORRECTABLE: Pool ECC finds an uncorrectable word -/
  | poolUncorrectable
  /-- CARD_DEST_INVALID: A tile-sender destination is not a member of the job -/
  | cardDestInvalid
  /-- POOL_NO_SPACE: A manifest declares more than 960 pool pages -/
  | poolNoSpace
  /-- RESERVED_NONZERO: A reserved field of a card, manifest or record is not zero -/
  | reservedNonzero
  /-- RG_RSEL_INVALID: RSEL breaks R141 -/
  | rgRselInvalid
  /-- RG_TILE_RANGE: A pinned card's row tiles run past 2¹⁸ − 1 -/
  | rgTileRange
  /-- MT_ADDR_INVALID: An address breaks R159, or a MOVE or ACCUM names a tier other than those it allows -/
  | mtAddrInvalid
  /-- MT_NOT_OWNER: An access fails an ownership, job, class or cluster check of R164 -/
  | mtNotOwner
  /-- MT_READ_ONLY: A write or ACCUM names a far, remote or SEALED region -/
  | mtReadOnly
  /-- MT_NO_SPACE: A region cannot be placed on the class's channels -/
  | mtNoSpace
  /-- MT_REGION_TABLE_FULL: A rim die's 256 region entries are all in use, or the partition's REGION_ENTRIES share on that rim die is used up -/
  | mtRegionTableFull
  /-- MT_UNCORRECTABLE: Inline ECC finds two symbols in error, an address mismatch or a POISON line -/
  | mtUncorrectable
  /-- MT_REMOTE_TIMEOUT: A remote READ has not landed within 4 ticks -/
  | mtRemoteTimeout
  /-- MT_CHANNEL_FAILED: An access meets a FAILED channel -/
  | mtChannelFailed
  /-- MT_PREFETCH_INVALID: A prefetch list fails its admission check -/
  | mtPrefetchInvalid
  /-- MT_ERROR: Event: an uncorrectable error was recorded in MT_ERR_LAST -/
  | mtError
  /-- REQ_KIND_INVALID: KIND is 2 or 3 -/
  | reqKindInvalid
  /-- REQ_JOB_INVALID: JOB is not an admitted GEN job of the partition -/
  | reqJobInvalid
  /-- REQ_TENANT_INVALID: TENANT is not VALID or not the partition's -/
  | reqTenantInvalid
  /-- REQ_LENGTH_INVALID: A length breaks R188 -/
  | reqLengthInvalid
  /-- REQ_SAMPLING_INVALID: TEMPERATURE, TOP_K or TOP_P is illegal -/
  | reqSamplingInvalid
  /-- REQ_HANDLE_INVALID: A grammar or allow handle is not loaded -/
  | reqHandleInvalid
  /-- REQ_QUEUE_FULL: The job's pending queue holds 4,096 requests -/
  | reqQueueFull
  /-- REQ_BUDGET_EXCEEDS_CAP: Prefill tokens exceed the tenant's CAP -/
  | reqBudgetExceedsCap
  /-- REQ_ADMIT_TIMEOUT: A request stayed QUEUED for ADMIT_TIMEOUT ticks -/
  | reqAdmitTimeout
  /-- REQ_UNKNOWN: A cancel names no known request -/
  | reqUnknown
  /-- CANCELLED: A request ended by cancel, or a card retired by one -/
  | cancelled
  /-- ALREADY_COMPLETE: A cancel met a request that had already completed or failed -/
  | alreadyComplete
  /-- ALREADY_CANCELLED: A cancel met a request already cancelled -/
  | alreadyCancelled
  /-- REQ_TOKEN_INVALID: A prompt token is at or above VOCAB -/
  | reqTokenInvalid
  /-- KV_SLOT_INVALID: A card names a slot that is not stepping in the job -/
  | kvSlotInvalid
  /-- KV_POS_RANGE: A position range breaks R218 -/
  | kvPosRange
  /-- KV_POS_ORDER: An APPEND lies outside the step's positions -/
  | kvPosOrder
  /-- KV_PAGE_SHARED: An APPEND names a SHARED page -/
  | kvPageShared
  /-- KV_NO_PAGE: A page is missing, or a page wait exceeded its limit -/
  | kvNoPage
  /-- KV_SHARE_INVALID: Partition shares exceed the package totals -/
  | kvShareInvalid
  /-- SM_MASK_EMPTY: No token is allowed -/
  | smMaskEmpty
  /-- SM_STACK_OVF: Only depth kept a push from being allowed -/
  | smStackOvf
  /-- SM_TOKEN_REJECTED: ADVANCE finds no applicable transition for the token -/
  | smTokenRejected
  /-- SM_TABLE_INVALID: A grammar fails its load checks -/
  | smTableInvalid
  /-- SM_SCAN_MISMATCH: FINAL's candidate blocks do not cover the row -/
  | smScanMismatch
  /-- SM_TENANT_DENIED: A session writes a tenant it has no rights over -/
  | smTenantDenied
  /-- SM_TENANT_BUSY: A tenant with live requests would change partition or close -/
  | smTenantBusy
  /-- SM_CONFIG_INVALID: SM_LAT_WINDOW is written with 0 -/
  | smConfigInvalid
  /-- SM_RING_INVALID: Event: an illegal READ_INDEX was ignored -/
  | smRingInvalid
  /-- SEQ_MANIFEST_INVALID: The GEN section of a manifest breaks R190 -/
  | seqManifestInvalid
  /-- CT_NO_CONTEXT: The partition's share of Contrail contexts is in use -/
  | ctNoContext
  /-- CT_MANIFEST_INVALID: The CONTRAIL section breaks R238 -/
  | ctManifestInvalid
  /-- CT_MAP_INVALID: The publish map fails R239 -/
  | ctMapInvalid
  /-- CT_PUBLISH_BUSY: A PUBLISH arrives twice, or while the context is busy -/
  | ctPublishBusy
  /-- CT_EPOCH_EXHAUSTED: The epoch would pass 2⁴⁸ − 1 -/
  | ctEpochExhausted
  /-- CT_NONFINITE: A captured weight is NaN or infinite -/
  | ctNonfinite
  /-- CT_SEAL_FAILED: An entry's CRC mismatched twice -/
  | ctSealFailed
  /-- CT_PUBLISH_TIMEOUT: Sealing did not finish within PUBLISH_TIMEOUT -/
  | ctPublishTimeout
  /-- CT_PUBLISH_ABORTED: Pre-emption ended a publish -/
  | ctPublishAborted
  /-- CT_SWITCH_LATE: A member armed too late for S -/
  | ctSwitchLate
  /-- CT_RECORD_STALE: A record is 32,768 epochs old or older -/
  | ctRecordStale
  /-- CT_IMAGE_INVALID: An image header or table is malformed -/
  | ctImageInvalid
  /-- CT_KEY_UNKNOWN: KEY_INDEX names no publisher key -/
  | ctKeyUnknown
  /-- CT_SIGNATURE_INVALID: The image signature does not verify -/
  | ctSignatureInvalid
  /-- CT_SHARD_MISSING: No shard has the requested rank -/
  | ctShardMissing
  /-- CT_SHARD_HASH: A shard's digest does not match -/
  | ctShardHash
  /-- CT_LIBRARY_FULL: Eviction cannot make room -/
  | ctLibraryFull
  /-- CT_MODEL_ABSENT: A manifest names a model not in the library -/
  | ctModelAbsent
  /-- CT_MODEL_IN_USE_MAX: An entry already serves 255 jobs -/
  | ctModelInUseMax
  /-- CT_SHARE_INVALID: Partition CONTRAIL shares exceed 1,000 GB/s -/
  | ctShareInvalid
  /-- CT_LOAD_BUSY: A load is requested while another load of the same partition is being checked -/
  | ctLoadBusy
  /-- LN_MANIFEST_INVALID: The LEARN section breaks R262, R271, R281 or R284 -/
  | lnManifestInvalid
  /-- STRATUS_OVERFLOW: A push would pass STACK_BYTES -/
  | stratusOverflow
  /-- STRATUS_DIR_FULL: A stack already holds STACK_FRAMES frames -/
  | stratusDirFull
  /-- STRATUS_UNDERFLOW: A pop finds no frame that is not POPPED -/
  | stratusUnderflow
  /-- STRATUS_ORDER: A pop or append names a frame other than the top -/
  | stratusOrder
  /-- STRATUS_NO_FRAME: A read names no pinned frame -/
  | stratusNoFrame
  /-- STRATUS_RANGE: OFFSET + LINES passes the frame's end -/
  | stratusRange
  /-- STRATUS_NOT_EMPTY: MB_START finds frames on the stack -/
  | stratusNotEmpty
  /-- EXP_NO_RING: The partition's share of experience rings is in use -/
  | expNoRing
  /-- EXP_RING_INVALID: A card names a ring that is not the job's -/
  | expRingInvalid
  /-- EXP_NOT_CONSUMER: EXP_TAKE comes from a cluster other than the consumer -/
  | expNotConsumer
  /-- EXP_RECORD_MISMATCH: A TEACH_DONE entry names an unfillable record -/
  | expRecordMismatch
  /-- EXP_ANNOTATE_INVALID: An annotation fails R290 -/
  | expAnnotateInvalid
  /-- UPD_MANIFEST_INVALID: The UPDATE section breaks R297 or R299 -/
  | updManifestInvalid
  /-- UPD_LS_RANGE: LS_GET or LS_PUT breaks R301 or R302 -/
  | updLsRange
  /-- UPD_NORM_LEAF: A norm partial is not the poster's, is excluded, or is posted twice -/
  | updNormLeaf
  /-- UPD_ADVANCE_LATE: A member missed the step advance's boundary -/
  | updAdvanceLate
  /-- UPD_DONE_BUSY: A cluster posts UPD_DONE twice before the advance -/
  | updDoneBusy
  /-- UPD_T_MAX: Event: a group's T has reached 2³² − 1 -/
  | updTMax
  /-- SQ_MANIFEST_INVALID: The SQUALL section breaks R327 -/
  | sqManifestInvalid
  /-- SQ_NO_GROUP: A member package has no free group entry in the partition's share -/
  | sqNoGroup
  /-- SQ_NOT_MEMBER: A card names a group its cluster is not a member of -/
  | sqNotMember
  /-- SQ_SEQ_INVALID: SEQ is not the member's next -/
  | sqSeqInvalid
  /-- SQ_SIZE_INVALID: COUNT breaks R329 -/
  | sqSizeInvalid
  /-- SQ_COLL_ABORTED: A collective aborted; also the event carrying the record -/
  | sqCollAborted
  /-- SQ_POISON: Work discarded by poison; also the event -/
  | sqPoison
  /-- SQ_CALENDAR_FULL: A partition's slots do not fit -/
  | sqCalendarFull
  /-- SQ_CREDIT_SPACE: External credit pools exceed 24 MiB on a rim die -/
  | sqCreditSpace
  /-- SQ_SHARE_INVALID: Context, memory or group shares exceed the totals -/
  | sqShareInvalid
  /-- SQ_NO_LANE: A job needs a lane without slots -/
  | sqNoLane
  /-- SQ_PORT_DOWN: Event: a port went DOWN -/
  | sqPortDown
  /-- SQ_PEER_UNREACHABLE: Event: no UP port reaches a peer -/
  | sqPeerUnreachable
  /-- SQ_TRANSFER_CRC: An ungrouped transfer failed its CRC -/
  | sqTransferCrc
  /-- SQ_TIMEOUT: Cause: the member's timeout expired -/
  | sqTimeout
  /-- SQ_MISMATCH: Cause: members' fields differ -/
  | sqMismatch
  /-- SQ_CAP_EXCEEDED: Cause: counts exceed DST_CAP -/
  | sqCapExceeded
  /-- SQ_MEMBER_FAILED: Cause: a member's chain or job failed -/
  | sqMemberFailed
  /-- AG_MANIFEST_INVALID: The AFTERGLOW section breaks R341 or R343 -/
  | agManifestInvalid
  /-- AG_NO_CONTEXT: The partition's share of Afterglow contexts is in use on a member -/
  | agNoContext
  /-- AG_COPY_TIMEOUT: Event: a copy did not close within COPY_TICKS -/
  | agCopyTimeout
  /-- AG_NO_SLOT: A rollback found no sealed slot of cut J -/
  | agNoSlot
  /-- AG_DRAIN_TIMEOUT: Event: a drain did not seal within DRAIN_TICKS -/
  | agDrainTimeout
  /-- AG_DRAIN_FAILED: Event: a drain met an uncorrectable line or an unreachable buddy -/
  | agDrainFailed
  /-- AG_NO_RECOVERY_CUT: RECOVER found no recovery cut -/
  | agNoRecoveryCut
  /-- AG_SPARE_UNFIT: A spare lacks a logical unit the job uses -/
  | agSpareUnfit
  /-- AG_SHRINK_REFUSED: A shrink breaks R358 -/
  | agShrinkRefused
  /-- AG_CTX_UNFIT: A resume finds a used logical unit absent -/
  | agCtxUnfit
  /-- AG_BUSY: A request meets another of the same job -/
  | agBusy
  /-- AG_REQ_INVALID: AG_REQ holds an illegal KIND or field -/
  | agReqInvalid
  /-- AG_REQ_DENIED: The requester lacks rights -/
  | agReqDenied
  /-- AG_HELD: A queued card was discarded by a hold -/
  | agHeld
  /-- AG_SHAPE_MISMATCH: A checkpoint's PLACEMENT differs from the manifest -/
  | agShapeMismatch
  /-- HZ_STREAM_INVALID: A stream configuration is illegal -/
  | hzStreamInvalid
  /-- HZ_STREAM_BUSY: A stream is in the wrong state, or already served -/
  | hzStreamBusy
  /-- HZ_DENIED: A session lacks rights over a stream -/
  | hzDenied
  /-- HZ_ACTION_DUP: A second post in one tick -/
  | hzActionDup
  /-- HZ_ACTION_LATE: A post landed after its commit point -/
  | hzActionLate
  /-- HZ_NOT_SERVING: A post names a stream the job does not serve, or one not LIVE -/
  | hzNotServing
  /-- HZ_MANIFEST_INVALID: The HORIZON section breaks R382 -/
  | hzManifestInvalid
  /-- HZ_HOLD_LIMIT: Event: a stream reached HOLD_LIMIT -/
  | hzHoldLimit
  /-- HZ_PORT_DOWN: Event: an environment port lost its link -/
  | hzPortDown
  /-- PT_TABLE_INVALID: An entry breaks R386 or R387 -/
  | ptTableInvalid
  /-- PT_RESOURCE_BUSY: A region, core, channel or port is owned twice or still in use -/
  | ptResourceBusy
  /-- PT_POWER_OVERCOMMIT: Power envelopes exceed 9,600 W -/
  | ptPowerOvercommit
  /-- PT_SCHED_OVERCOMMIT: Scheduler shares exceed 224/256 -/
  | ptSchedOvercommit
  /-- PT_BUSY: A change is requested while another is pending -/
  | ptBusy
  /-- PT_REQ_INVALID: PT_REQ holds an illegal KIND or field -/
  | ptReqInvalid
  /-- PT_DENIED: The requester lacks rights -/
  | ptDenied
  /-- PT_GRANT_INVALID: A GRANT names a WRITABLE or foreign region -/
  | ptGrantInvalid
  /-- PT_GRANT_STALE: An ACCEPT matches no open GRANT -/
  | ptGrantStale
  /-- PT_JOB_TABLE_FULL: A partition already holds 256 jobs -/
  | ptJobTableFull
  /-- PT_NO_CLUSTERS: Too few free clusters for the manifest -/
  | ptNoClusters
  /-- SC_AUTH_FAILED: Session authentication failed -/
  | scAuthFailed
  /-- SC_SESSION_MAC: A session message failed its MAC or counter -/
  | scSessionMac
  /-- SC_SESSION_IDLE: A session closed after 600 s idle -/
  | scSessionIdle
  /-- SC_SESSION_FULL: 64 sessions are open -/
  | scSessionFull
  /-- SC_AUTH_LOCKED: HELLO during the 60 s lock -/
  | scAuthLocked
  /-- SC_BUSY: The requester's share of the attestation queue is full -/
  | scBusy
  /-- BOOT_FLASH_ERROR: A flash device does not answer or read -/
  | bootFlashError
  /-- BOOT_IMAGE_INVALID: A header, directory, type or digest fails -/
  | bootImageInvalid
  /-- BOOT_ROOT_REVOKED: ROOT_KEY matches no unrevoked ROOT_HASH -/
  | bootRootRevoked
  /-- BOOT_SIGNATURE_INVALID: The image signature does not verify -/
  | bootSignatureInvalid
  /-- BOOT_VERSION_OLD: SECURITY_VERSION is below the fuse count -/
  | bootVersionOld
  /-- BOOT_CONFIG_INVALID: An entry's content breaks its rules -/
  | bootConfigInvalid
  /-- BOOT_MEMORY_FAILED: A GDDR7 device is missing or fails training -/
  | bootMemoryFailed
  /-- BOOT_DIE_FAILED: A die fails power-good -/
  | bootDieFailed
  /-- WN_COMPONENT_FAULT: Event: a component faulted -/
  | wnComponentFault
  /-- WN_COMPONENT_FAILED: Event: a component became FAILED -/
  | wnComponentFailed
  /-- HOT_IMAGE_INVALID: A hot-update image or AT fails R420 -/
  | hotImageInvalid
  /-- HOT_STATE_INCOMPATIBLE: The state record version is not accepted -/
  | hotStateIncompatible
  /-- HOT_FIXED: Component 1 or 2 was named -/
  | hotFixed
  /-- HOT_BUSY: A hot update is already pending -/
  | hotBusy
  /-- HOT_ABORTED: A fault before the switch ended the update -/
  | hotAborted
  /-- MAN_INVALID: A manifest breaks R432 or R433 -/
  | manInvalid
  /-- MAN_BUSY: A submission is already pending -/
  | manBusy
  /-- MAN_MISMATCH: Members of a job hold different manifests -/
  | manMismatch
  /-- WN_DENIED: A message or value lies outside the session's rights -/
  | wnDenied
  /-- WN_PKG_BUSY: WN_PKG is written while a job is admitted -/
  | wnPkgBusy
  /-- MGMT_MSG_INVALID: A management message is malformed -/
  | mgmtMsgInvalid
  /-- MGMT_EVENTS_LOST: Event: a session's unacknowledged events overflowed -/
  | mgmtEventsLost
  /-- FLASH_WRITE_FAILED: Verification or read-back failed -/
  | flashWriteFailed
  /-- PM_FLOOR_EXCEEDS: A partition's FLOOR_W is not below its POWER_W -/
  | pmFloorExceeds
  /-- PM_THROTTLE: Event: the throttle level changed -/
  | pmThrottle
deriving DecidableEq, Repr

end Sys2Proof
end

