-- ==== Sys2Proof/Syntax.lean ====
section
/-!
DEFINITION. The commands of the block: one constructor of `Instr` for each row of spec/opcode_table.json, with the
operands that come from outside the package (addresses, values, records on a wire, physical readings, hardware upsets).
What a command does is in Machine/.
-/

namespace Sys2Proof

/-- Who sends a command to the window (R394, R425): the application cores of a partition, or a management session. -/
inductive Who where
  | cores (p : Nat)
  | session (n : Nat)
deriving DecidableEq, Repr

/-- One 64-byte work card, eight little-endian words (R109). -/
structure Card where
  w0 : W64
  w1 : W64
  w2 : W64
  w3 : W64
  w4 : W64
  w5 : W64
  w6 : W64
  w7 : W64
deriving DecidableEq, Repr

/-- A hardware upset inside one attempt of a lane-row card: an uncorrectable lane-store word, corrected words, and
the accumulator entries that the attempt leaves wrong, as (lane, entry, value) (R84, R85). -/
structure Upset where
  uncorrectable : Bool
  corrected : Nat
  flips : List (Nat × Nat × W32)
deriving DecidableEq, Repr

/-- A hardware upset of a memory access: the index of the first line (in the order of the card's lines) that is
uncorrectable, whether it is an EDC failure, the lines of the bursts retried and corrected, which later lines landed all the same
(R179 leaves that open); and the first line that the operation reads from the pool with an uncorrectable word
(R102). -/
structure MemUpset where
  badLine : Option Nat
  edc : Bool
  retries : List Nat
  corrected : List Nat
  landed : List Nat
  pool : Option Nat
deriving DecidableEq, Repr

/-- The cluster whose Stratus card acts, and the upset that its memory access meets (R274, R179). -/
structure StackCard where
  cl : Nat
  up : MemUpset
deriving DecidableEq, Repr

/-- What comes from other packages to a norm reduction (R310, R311): their partials, tensor, chunk and P, and the root's tick. -/
structure NormParts where
  parts : List (Nat × Nat × W32)
  rootTick : Nat
deriving DecidableEq, Repr

/-- The physical readings of a boundary: junction temperatures by die, device temperatures and on-die corrections by
device, input voltage in mV, input current in 0.1 A, and a SOURCE's level as last seen (R182, R444, R458). -/
structure Readings where
  junction : List (Nat × Nat)
  device : List (Nat × Nat)
  odecc : List (Nat × Nat)
  vinMv : Nat
  iinDa : Nat
  inputW : Nat
deriving DecidableEq, Repr

/-- The finding of one pass of a unit test (R88, R467): the lanes that differ and whether the reverse tree does. -/
structure Finding where
  lanes : List Nat
  reverseTree : Bool
deriving DecidableEq, Repr

/-- One environment port record of the boot image (R407 type 9). -/
structure EnvPortRec where
  mac : BitVec 48
  ipv4 : BitVec 32
  ipv6 : BitVec 128
  vlan : Nat
  part : Nat
  owned : Bool
deriving DecidableEq, Repr

/-- One session-key record of the boot image (R407 type 13): the key, its SHA-384, the PACKAGE bit and the mask of
partitions. -/
structure SessKey where
  key : Nat
  keyHash : Nat
  package : Bool
  mask : BitVec 16
deriving DecidableEq, Repr

/-- One directory entry of a boot image (R406). -/
structure BootEntry where
  type : Nat
  version : Nat
  offset : Nat
  bytes : Nat
  digest : Nat
deriving DecidableEq, Repr

/-- A boot image as a flash device holds it (R406, R407). The two verdicts `sigValid` and `digestsValid` are facts of
the image: that its ECDSA signature verifies, and that every entry matches its DIGEST. -/
structure BootImage where
  magic : Nat
  format : Nat
  entries : List BootEntry
  securityVersion : Nat
  imageBytes : Nat
  sigOffset : Nat
  build : BitVec 32
  reservedZero : Bool
  rootKeyHash : Nat
  sigValid : Bool
  digestsValid : Bool
  hash : Nat
  parts : Tab (BitVec 1024)
  chans : BitVec 1024
  tick : W64
  tickSync : W64
  fabricPorts : Tab W64
  envPorts : Tab EnvPortRec
  memory : W64
  pkg : Nat
  baseTimeNs : Nat
  mgmtMac : BitVec 48
  mgmtIpv4 : BitVec 32
  mgmtIpv6 : BitVec 128
  publishers : List Nat
  sessionKeys : List SessKey
  tenants : Tab (BitVec 128)
  latWindow : Nat
  stateVersions : List Nat
  compVersions : List Nat
deriving DecidableEq, Repr

/-- What start-up meets besides the images (R409, R410, R464): dies that fail power-good or are below 0 °C, GDDR7
devices that are missing or fail training, and whether the second read of step 7 matches the digests. -/
structure StartEnv where
  deadDies : List Nat
  deadDevices : List Nat
  reread0 : Bool
  reread1 : Bool
deriving DecidableEq, Repr

/-- A hot-update image staged for WN_HOT_REQ (R419); the verdicts are facts of the image. -/
structure HotImage where
  magic : Nat
  format : Nat
  component : Nat
  version : Nat
  bytes : Nat
  securityVersion : Nat
  stateOut : Nat
  stateMin : Nat
  stateMax : Nat
  reservedZero : Bool
  rootKeyHash : Nat
  sigValid : Bool
  digestValid : Bool
  digest : Nat
deriving DecidableEq, Repr

/-- The head flit of a fabric message (R325), with the verdict of its CRC over the data that came. -/
structure Head where
  job : Nat
  group : Nat
  srank : Nat
  die : Nat
  cluster : Nat
  chain : Nat
  seq : Nat
  chunk : Nat
  lines : Nat
  dst : Nat
  step : Nat
  crcOk : Bool
deriving DecidableEq, Repr

/-- A member's report in the setup round of a collective (R330). -/
structure CollReport where
  rank : Nat
  kind : Nat
  fmt : Nat
  op : Nat
  root : Nat
  count : Nat
  timeout : Nat
  seq : Nat
  counts : List Nat
  /-- DST_CAP, which the V kinds' verdict needs (R330). -/
  cap : Nat
deriving DecidableEq, Repr

/-- A CTRL-lane report of another member package (R240, R250, R307, R349, R435). -/
inductive CtrlMsg where
  /-- PUBLISH reports of a member: every source cluster of that package has published (R240). -/
  | publishReport (job : Nat) (pkg : Nat)
  /-- The lead's start tick of a publish (R240). -/
  | publishStart (job : Nat) (tick : Nat)
  /-- A member's publish has failed (R248, log 108). -/
  | publishFailed (job : Nat) (pkg : Nat) (st : Status)
  /-- A member holds every seal of the publish (R250). -/
  | sealReport (job : Nat) (pkg : Nat)
  /-- The lead's switch tick (R250). -/
  | switchAt (job : Nat) (tick : Nat)
  /-- A member's owners have all retired UPD_DONE (R307). -/
  | updReport (job : Nat) (pkg : Nat)
  /-- The lead's notice of a step advance: t, the tick in which it held every report (R307). -/
  | updNotice (job : Nat) (tick : Nat)
  /-- A member has sealed cut `cut` on all its dies (R349). -/
  | cutReport (job : Nat) (pkg : Nat) (cut : Nat)
  /-- A member's manifest digest agrees or differs (R435). -/
  | manifest (job : Nat) (pkg : Nat) (same : Bool)
  /-- The lead's record of a complete cut: CUT_SEQ and J (R349). -/
  | cutComplete (job : Nat) (cut step : Nat)
  /-- A member's copy of a cut has closed or was given up, and a member has narrowed a cut on all its dies (R344). -/
  | copyReport (job : Nat) (pkg : Nat) (cut : Nat)
  | narrowReport (job : Nat) (pkg : Nat) (cut : Nat)
  /-- A buddy has sealed a drained cut of a die of a member (R353). -/
  | buddySeal (job : Nat) (pkg : Nat) (die : Nat) (cut : Nat)
  /-- The lead's start tick of a drain of a cut (R351). -/
  | drainStart (job : Nat) (cut : Nat) (tick : Nat)
  /-- The lead's hold for a takeover or shrink: the lost package and the cut to restore (R356 to R358). -/
  | hold (job : Nat) (lost : Nat) (cut : Nat) (shrink : Bool)
  /-- A member has restored its cut (R354). -/
  | restoreReport (job : Nat) (pkg : Nat)
  /-- The lead's resume tick of a restore (R354). -/
  | resumeAt (job : Nat) (tick : Nat)
  /-- The tick in which a job that spans packages begins, as its lead names it (R435). -/
  | startAt (job : Nat) (tick : Nat)
  /-- The job has ended on a member (R396). -/
  | memberEnded (job : Nat)
deriving DecidableEq, Repr

/-- One link frame as received on an external port (R323): the verdicts of FCS and CRC-32C, the MACs, the EtherType, and
the link header. -/
structure Frame where
  fcsOk : Bool
  crcOk : Bool
  dstMac : BitVec 48
  srcMac : BitVec 48
  etherType : BitVec 16
  ver : Nat
  type : Nat
  vl : Nat
  flits : Nat
  seq : Nat
  ack : Nat
  cvl : Nat
  credits : Nat
  reservedZero : Bool
deriving DecidableEq, Repr

/-- One Horizon datagram (R372) as received, with the verdicts of the UDP checksum, of the CRC and of the framing
rules of R367. -/
structure Datagram where
  framingOk : Bool
  udpOk : Bool
  crcOk : Bool
  ver : Nat
  type : Nat
  reservedZero : Bool
  stream : Nat
  seq : W32
  tick : W64
  srcIp : BitVec 128
  srcPort : Nat
  payload : List Byte
deriving DecidableEq, Repr

/-- The kinds of IEEE 1588 message that an ordinary clock takes (R27). -/
inductive PtpKind where
  | sync
  | followUp
  | delayReq
  | delayResp
  | announce
  | other
deriving DecidableEq, Repr

/-- One IEEE 1588 message on the management port (R27): its kind, the two-step flag, the origin time it carries and
the receive stamp of the local timebase, in ns. -/
structure PtpMsg where
  kind : PtpKind
  twoStep : Bool
  originNs : Nat
  stampNs : Nat
deriving DecidableEq, Repr

/-- The header of a management message (R429): its session, counter, tag, and whether its MAC verifies. -/
structure Hdr where
  session : Nat
  counter : Nat
  tag : W32
  macOk : Bool
deriving DecidableEq, Repr

/-- The target of BULK_WRITE and BULK_READ (R430): a region, or the staging area of the package region (R416). -/
inductive BulkTarget where
  | region (rd : Nat) (region : Nat)
  | staging
deriving DecidableEq, Repr

/-- The message kinds that boot service can meet (R411). -/
inductive BootMsg where
  | readWn (offset : Nat) (words : Nat)
  | bulkWriteStaging (offset : Nat) (data : List Byte)
  | flashWrite (device : Nat) (image : BootImage) (verifyOk : Bool)
  | reset
  | other
deriving DecidableEq, Repr

/-- The slot of an engine that CARD_RETIRE names (R105): a unit's lane row, an engine 1 to 8, an operation handed to
the tier port or a post handed to a Horizon port engine, by its place in the order of issue, or a collective handed to the Squall engine. -/
inductive Slot where
  | lane (u : Nat)
  | eng (e : Nat)
  | tier (k : Nat)
  | coll (k : Nat)
deriving DecidableEq, Repr

/-- The commands. The name of each constructor is its row's mnemonic in lower camel case. -/
inductive Instr where
  -- The points of a tick and the tick setting (01).
  /-- INTAKE_EDGE (R20, R193). -/
  | intakeEdge
  /-- COMMIT_POINT (R20, R202). -/
  | commitPoint
  /-- WORK_END (R29, R30). -/
  | workEnd
  /-- MAINTENANCE_SLOT (R98). -/
  | maintenanceSlot
  /-- BOUNDARY (R31) with the readings of R444. -/
  | boundary (r : Readings)
  /-- TK_APPLY_AT_ARM (R24). -/
  | tkApplyAtArm (who : Who) (tick : W64)
  /-- TK_APPLY_AT_DISARM (R24). -/
  | tkApplyAtDisarm (who : Who)
  /-- REG_WRITE (R425): an access of `bytes` bytes at window offset `off`. -/
  | regWrite (who : Who) (off : Nat) (bytes : Nat) (value : W64)
  /-- TKSYNC_EDGE (R28, R461): measured offset and pulse width in ns. -/
  | tksyncEdge (offsetNs : Int) (widthNs : Nat)
  /-- TICK_SYNC_LOST (R28): one more tick without an edge. -/
  | tickSyncLost
  /-- PTP_MESSAGE (R27). -/
  | ptpMessage (m : PtpMsg)
  /-- PTP_TIME_LOST (R28). -/
  | ptpTimeLost
  -- Cards (04) on cluster `cl`.
  /-- RUN_LIST (R108). -/
  | runList (cl : Nat)
  /-- CARD_POST (R110). -/
  | cardPost (cl : Nat)
  /-- CARD_RETIRE (R117); `poolBad` when the card has met an uncorrectable pool word (R102). -/
  | cardRetire (cl : Nat) (slot : Slot) (poolBad : Bool)
  /-- MV (R66) on logical unit `u`. -/
  | mv (cl u : Nat) (up : Upset)
  /-- MM_N (R65). -/
  | mmN (cl u : Nat) (up : Upset)
  /-- RV (R62). -/
  | rv (cl u : Nat) (up : Upset)
  /-- OP (R63). -/
  | op (cl u : Nat) (up : Upset)
  /-- CK_RETRY (R85). -/
  | ckRetry (cl u : Nat) (up : Upset)
  /-- CK_RELIEF (R85, R87). -/
  | ckRelief (cl u : Nat) (up : Upset)
  -- Maintenance (03): units by physical index, channels, fabric lanes.
  /-- ARITH_TEST_REQ (R98). -/
  | arithTestReq (who : Who) (target : Nat)
  /-- STORE_TEST_REQ (R98). -/
  | storeTestReq (who : Who) (target : Nat)
  /-- RETRAIN_REQ (R98). -/
  | retrainReq (who : Who) (target : Nat)
  /-- LINK_CAL_REQ (R98). -/
  | linkCalReq (who : Who) (target : Nat)
  /-- ARITH_TEST_PASS (R88) with what the pass finds. -/
  | arithTestPass (unit : Nat) (f : Finding)
  /-- STORE_TEST_STEP (R467) with the lanes found bad. -/
  | storeTestStep (unit : Nat) (f : Finding)
  /-- RETRAIN (R181): `busy` when accesses are still outstanding 2 µs into the window; `ok` when training passes. -/
  | retrain (ch : Nat) (busy ok : Bool)
  /-- LINK_CAL (R96). -/
  | linkCal (lane : Nat)
  /-- RETRAIN_PERIODIC (R181). -/
  | retrainPeriodic
  /-- TEST_OUTCOME_APPLY (R89). -/
  | testOutcomeApply (unit : Nat)
  /-- UNIT_RENUMBER (R90). -/
  | unitRenumber (cl : Nat)
  /-- UNIT_REFILL (R94). -/
  | unitRefill (unit : Nat)
  /-- UNIT_RECHECKSUM (R93): `diff` when the hardware's tree output differs from the stored ŝ_k by a fault. -/
  | unitRechecksum (unit : Nat) (diff : Bool)
  -- Chains and engines (04, 05).
  /-- CHAIN_OPEN (R132). -/
  | chainOpen (cl : Nat)
  /-- CHAIN_ABORT (R115). -/
  | chainAbort (cl : Nat)
  /-- VECTOR_CARD (R120). -/
  | vectorCard (cl : Nat)
  /-- VX_SRN (R119). -/
  | vxSrn (cl vd vs2 rs1 : Nat)
  /-- VX_PACK (R119). -/
  | vxPack (cl vd vs2 rs1 : Nat)
  /-- VX_UNPK (R119). -/
  | vxUnpk (cl vd vs2 rs1 : Nat)
  /-- VX_NORM (R152). -/
  | vxNorm (cl vd : Nat)
  /-- TRANSPOSE (R121). -/
  | transpose (cl : Nat)
  /-- GATHER (R121). -/
  | gather (cl : Nat)
  /-- CHKROW (R121). -/
  | chkrow (cl : Nat)
  /-- STAT (R124). -/
  | stat (cl : Nat)
  /-- SOFTMAX (R124). -/
  | softmax (cl : Nat)
  /-- RMSNORM (R124). -/
  | rmsnorm (cl : Nat)
  /-- LAYERNORM (R124). -/
  | layernorm (cl : Nat)
  /-- ACT (R124, R125). -/
  | act (cl : Nat)
  /-- DERIV (R124). -/
  | deriv (cl : Nat)
  /-- MERGE (R223). -/
  | merge (cl : Nat)
  /-- REDUCE (R124). -/
  | reduce (cl : Nat)
  /-- CHECK (R124, R80). -/
  | check (cl : Nat)
  /-- ROUND (R124). -/
  | round (cl : Nat)
  /-- QUANT (R126). -/
  | quant (cl : Nat)
  /-- FINISH_CARD (R132). -/
  | finishCard (cl : Nat)
  /-- TILE_SENDER (R127). -/
  | tileSender (cl : Nat) (poolBad : Bool)
  /-- TILE_ARRIVAL (R326): one whole transfer at its destination. -/
  | tileArrival (h : Head) (data : List Byte)
  /-- APPEND (R218). -/
  | append (cl : Nat)
  /-- WALK (R218). -/
  | walk (cl : Nat)
  /-- FILL (R150). -/
  | fill (cl : Nat)
  /-- RG_MASK (R150). -/
  | rgMask (cl : Nat)
  /-- SCAN (R206). -/
  | scan (cl : Nat)
  /-- FINAL (R208). -/
  | final (cl : Nat)
  /-- GM_INIT (R211). -/
  | gmInit (cl : Nat)
  /-- GM_MASK (R212). -/
  | gmMask (cl : Nat)
  /-- ADVANCE (R212). -/
  | advance (cl : Nat)
  /-- STEP_DONE (R204). -/
  | stepDone (cl : Nat) (poolBad : Bool)
  -- Memory tiers (06).
  /-- MOVE (R169). -/
  | move (cl : Nat) (up : MemUpset)
  /-- ACCUM (R171). -/
  | accum (cl : Nat) (up : MemUpset)
  /-- MT_REMOTE_TIMEOUT (R170) of the tier operation `k` of the cluster. -/
  | mtRemoteTimeout (cl k : Nat)
  /-- PREFETCH_LAND (R175): entry `i` in flight to the cluster; for an entry of TIER 4 with the lines that came, or the
  refusal. -/
  | prefetchLand (cl i : Nat) (up : MemUpset) (data : List Byte) (refused : Option Status)
  /-- REFRESH_SLOT (R182): lines of the channel found with one symbol in error, and with more. -/
  | refreshSlot (ch : Nat) (corrected poisoned : List Nat)
  /-- REGION_ZERO (R167): the freed ranges of a channel. -/
  | regionZero (ch : Nat)
  -- Generation (07).
  /-- REQ_ARRIVE (R186): eight words, arriving `ns` after the tick start. -/
  | reqArrive (p : Nat) (rec : Card) (ns : Nat)
  /-- CANCEL (R214): `atPoint` when it arrives in the cycle of the tick point last taken. -/
  | cancel (p : Nat) (rec : Card) (atPoint : Bool)
  /-- REQ_ADMIT_TIMEOUT (R191). -/
  | reqAdmitTimeout (p : Nat) (id : Nat)
  /-- KV_PAGE_WAIT_LIMIT (R217) of a sequence slot. -/
  | kvPageWaitLimit (slot : Nat)
  /-- RING_READ_INDEX (R201). -/
  | ringReadIndex (job : Nat) (index : W64)
  /-- SM_TENANT_WRITE (R195): the RW image of the entry. -/
  | smTenantWrite (who : Who) (t : Nat) (value : BitVec 128)
  /-- SM_LAT_WINDOW_WRITE (R200). -/
  | smLatWindowWrite (who : Who) (value : W64)
  /-- SM_LAT_WINDOW_END (R200). -/
  | smLatWindowEnd
  -- Contrail (08).
  /-- PUBLISH (R240). -/
  | publish (cl : Nat)
  /-- CT_PUBLISH_START (R240) of a context. -/
  | ctPublishStart (ctx : Nat)
  /-- CT_CAPTURE (R241) of map entry `i`. -/
  | ctCapture (ctx i : Nat)
  /-- CT_ENTRY_RECEIVE (R246) of map entry `i`: whether the CRC of what was written matches. -/
  | ctEntryReceive (ctx i : Nat) (crcOk : Bool)
  /-- CT_SWITCH_ARM (R249). -/
  | ctSwitchArm (ctx : Nat)
  /-- CT_SWITCH_BROADCAST (R250): the lead's switch tick. -/
  | ctSwitchBroadcast (ctx : Nat) (tick : Nat)
  /-- CT_PUBLISH_TIMEOUT (R248). -/
  | ctPublishTimeout (ctx : Nat)
  /-- CT_LOAD_REQ (R254). -/
  | ctLoadReq (who : Who) (value : W64)
  /-- CT_LOAD_COMPLETE (R254): whether the signature verifies. -/
  | ctLoadComplete (p : Nat) (sigOk : Bool)
  -- Learning (09) and the update (10).
  /-- ST_PUSH (R274). -/
  | stPush (cl : Nat) (up : MemUpset)
  /-- ST_POP (R274). -/
  | stPop (a : StackCard)
  /-- ST_READ (R274). -/
  | stRead (a : StackCard)
  /-- TEACH_DONE (R289). -/
  | teachDone (cl : Nat) (poolBad : Bool)
  /-- EXP_TAKE (R292). -/
  | expTake (cl : Nat)
  /-- EXP_ANNOTATE (R290): the four words of the annotation. -/
  | expAnnotate (p : Nat) (w0 w1 w2 w3 : W64)
  /-- TEACH_TIMEOUT (R291) of a record of a ring. -/
  | teachTimeout (ring : Nat) (index : Nat)
  /-- REWARD_TIMEOUT (R291). -/
  | rewardTimeout (ring : Nat) (index : Nat)
  /-- LS_GET (R302) on logical unit `u`. -/
  | lsGet (cl u : Nat) (up : Upset)
  /-- LS_PUT (R302). -/
  | lsPut (cl u : Nat)
  /-- UPD_DONE (R307). -/
  | updDone (cl : Nat)
  /-- UPD_STEP_ADVANCE (R307). -/
  | updStepAdvance (job : Nat)
  /-- NORM_POST (R310). -/
  | normPost (cl : Nat) (poolBad : Bool)
  /-- NORM_RESULT (R311) of a job: the sum S of chunk partials of other packages, in tensor and chunk order. -/
  | normResult (job : Nat) (remote : NormParts)
  -- Squall (11).
  /-- COLL (R329). -/
  | coll (cl : Nat)
  /-- COLL_SETUP (R330): the reports of members on other packages, and whether their roots grant a context. -/
  | collSetup (job group : Nat) (reports : List CollReport) (grants : Bool)
  /-- CHUNK_IN (R331): the input chunk of rank `h.srank`. -/
  | chunkIn (h : Head) (data : List Byte)
  /-- CHUNK_OUT (R330): a result chunk at the member `rank`. -/
  | chunkOut (rank : Nat) (h : Head) (data : List Byte)
  /-- MEM_REQ (R326): a remote read of `lines` lines of a region of this package. -/
  | memReq (pkg : Nat) (h : Head) (cls : Nat) (addr : W64)
  /-- MEM_DATA (R170): line data for tier operation `k`, or the refusal it ends with. -/
  | memData (cl k : Nat) (first : Nat) (data : List Byte) (refused : Option Status)
  /-- SQ_TIMEOUT (R334) at a member. -/
  | sqTimeout (cl : Nat) (group : Nat)
  /-- ABORT (R335) received. -/
  | abort (job group seq : Nat)
  /-- POISON (R336) received. -/
  | poison (job group seq chunk step : Nat)
  /-- JOB_ROLLBACK (R354). -/
  | jobRollback (job : Nat)
  /-- SQ_FRAME_RX (R323). -/
  | sqFrameRx (port : Nat) (f : Frame)
  /-- SQ_ACK (R324). -/
  | sqAck (port : Nat) (f : Frame)
  /-- SQ_NAK (R324). -/
  | sqNak (port : Nat) (f : Frame)
  /-- SQ_RETRANS_TIMEOUT (R324): `dead` when no frame has been acknowledged for 1 ms. -/
  | sqRetransTimeout (port : Nat) (dead : Bool)
  /-- SQ_PORT_UP (R324). -/
  | sqPortUp (port : Nat)
  /-- SQ_CTRL_MSG (R318). -/
  | sqCtrlMsg (m : CtrlMsg)
  /-- CONTRAIL_MSG (R245): a source range of map entry `i` from another package. -/
  | contrailMsg (job i : Nat) (data : List Byte) (crc : W32)
  /-- AFTERGLOW_MSG (R353): drain data of `die` of the member `pkg`. -/
  | afterglowMsg (job pkg die cut : Nat) (offset : Nat) (data : List Byte) (last crcOk : Bool)
  /-- HORIZON_MSG (R369): an observation record or an action of a stream over Squall. -/
  | horizonMsg (stream : Nat) (toPort : Bool) (tick : Nat) (epochTag : Nat) (payload : List Byte)
  -- Afterglow (12).
  /-- AG_COPY_OPEN (R345). -/
  | agCopyOpen (job : Nat)
  /-- AG_COPY_CLOSE (R346) on a die: the last block lands. -/
  | agCopyClose (job die : Nat)
  /-- AG_COPY_TIMEOUT (R345). -/
  | agCopyTimeout (job : Nat)
  /-- AG_SEAL (R349). -/
  | agSeal (job : Nat)
  /-- AG_DRAIN_START (R351). -/
  | agDrainStart (job : Nat)
  /-- AG_NARROW_DONE (R351) on a die. -/
  | agNarrowDone (job die : Nat)
  /-- AG_DRAIN_TIMEOUT (R353): `failed` when the drain met an uncorrectable line or an unreachable buddy. -/
  | agDrainTimeout (job : Nat) (failed : Bool)
  /-- PREEMPT (R359). -/
  | preempt (who : Who) (job : Nat)
  /-- AG_PREEMPT_APPLY (R359). -/
  | agPreemptApply (job : Nat)
  /-- RESUME (R361). -/
  | resume (who : Who) (job : Nat)
  /-- RECOVER (R357). -/
  | recover (who : Who) (job pkg : Nat)
  /-- SHRINK (R358). -/
  | shrink (who : Who) (job pkg : Nat)
  /-- EXPORT (R362). -/
  | exportImage (who : Who) (job rd region : Nat)
  -- Horizon (13).
  /-- HZ_OBS_RX (R373). -/
  | hzObsRx (port : Nat) (d : Datagram)
  /-- HZ_POST (R376). -/
  | hzPost (cl : Nat) (poolBad : Bool)
  /-- HZ_HOLD_LIMIT (R379). -/
  | hzHoldLimit (stream : Nat)
  /-- HZ_OPEN (R371). -/
  | hzOpen (who : Who) (stream : Nat)
  /-- HZ_CLOSE (R371). -/
  | hzClose (who : Who) (stream : Nat)
  /-- HZ_ACTSTORE_WRITE (R370): SAFE, or PARK when `park`; 8 bytes at word `w`. -/
  | hzActstoreWrite (who : Who) (stream : Nat) (park : Bool) (w : Nat) (value : W64)
  /-- HZ_STREAM_WRITE (R383): word `w` of HZ_STREAM, or of HZ_PEER when `peer`. -/
  | hzStreamWrite (who : Who) (stream : Nat) (peer : Bool) (w : Nat) (value : W64)
  /-- HZ_NEIGHBOR_REQ (R367): ARP (IPv4) or neighbour solicitation for `ip`. -/
  | hzNeighborReq (port : Nat) (v6 : Bool) (ip : BitVec 128)
  /-- HZ_PORT_DOWN (R381). -/
  | hzPortDown (port : Nat)
  -- Partitions and jobs (14, 15).
  /-- CREATE (R392). -/
  | create (who : Who) (p : Nat)
  /-- TEARDOWN (R392). -/
  | teardown (who : Who) (p : Nat)
  /-- JOB_END (R396). -/
  | jobEnd (who : Who) (job : Nat)
  /-- KILL (R396). -/
  | kill (who : Who) (job : Nat)
  /-- GRANT (R393). -/
  | grant (who : Who) (rd region p : Nat)
  /-- ACCEPT (R393). -/
  | accept (who : Who) (rd region p : Nat)
  /-- REVOKE (R393). -/
  | revoke (who : Who) (rd region p : Nat)
  /-- PT_GRANT_EXPIRE (R393). -/
  | ptGrantExpire (rd region p : Nat)
  /-- PT_VIEW_WRITE (R394). -/
  | ptViewWrite (who : Who) (value : W64)
  /-- WN_JOB_SUBMIT (R435). -/
  | wnJobSubmit (who : Who) (value : W64)
  /-- JOB_ADMIT (R395) of the pending submission of a view (0 to 15 partition). -/
  | jobAdmit (view : Nat)
  /-- DIE_FAULT (R34). -/
  | dieFault (die : Nat)
  -- Security and management (14, 15).
  /-- SC_ATTEST_REQ (R400); a session supplies the nonce in its message. -/
  | scAttestReq (who : Who) (value : W64) (nonce : List Byte)
  /-- ATTEST_REPORT (R400). -/
  | attestReport
  /-- HELLO (R399). -/
  | hello (keyIndex : Nat) (qc : Nat)
  /-- PROVE (R399): whether the client's signature verifies. -/
  | prove (keyIndex : Nat) (sigOk : Bool)
  /-- SC_SESSION_IDLE (R399). -/
  | scSessionIdle (n : Nat)
  /-- SC_AUTH_LOCK_END (R399). -/
  | scAuthLockEnd
  /-- READ (R430). -/
  | read (h : Hdr) (off words : Nat)
  /-- WRITE (R430). -/
  | write (h : Hdr) (off : Nat) (values : List W64)
  /-- BULK_WRITE (R430). -/
  | bulkWrite (h : Hdr) (t : BulkTarget) (off : Nat) (data : List Byte)
  /-- BULK_READ (R430). -/
  | bulkRead (h : Hdr) (t : BulkTarget) (off len : Nat)
  /-- EVENT_ACK (R431). -/
  | eventAck (h : Hdr) (seq : Nat)
  /-- LOG_READ (R430). -/
  | logRead (h : Hdr) (ring first count : Nat)
  /-- TRACE_READ (R430). -/
  | traceRead (h : Hdr) (first count : Nat)
  /-- FLASH_WRITE (R405): the staged image and whether the read-back matches. -/
  | flashWrite (h : Hdr) (device : Nat) (image : BootImage) (readBackOk : Bool)
  /-- RESET (R462). -/
  | reset (h : Hdr)
  /-- CLOSE (R430). -/
  | close (h : Hdr)
  /-- WN_PKG_WRITE (R428). -/
  | wnPkgWrite (who : Who) (value : W64)
  /-- WN_HOT_REQ (R420), with the verdict on the signature of the staged image. -/
  | wnHotReq (who : Who) (value : W64) (sigValid : Bool)
  /-- HOT_SWITCH (R420). -/
  | hotSwitch
  /-- COMPONENT_FAULT (R417); `inst` is the control core for component 9. -/
  | componentFault (c inst : Nat)
  /-- COMPONENT_RESTART (R417). -/
  | componentRestart (c inst : Nat)
  /-- START_UP (R409). -/
  | startUp (env : StartEnv)
  /-- BOOT_SERVICE (R411): one message of a session of boot service, with the hash of its key. -/
  | bootService (keyHash : Nat) (m : BootMsg)
  -- Power (16) and the package edge (17).
  /-- HAZE_ENTER (R439). -/
  | hazeEnter (cl u : Nat)
  /-- HAZE_EXIT (R439). -/
  | hazeExit
  /-- MIST_ENTER (R439). -/
  | mistEnter (cl : Nat)
  /-- MIST_EXIT (R439). -/
  | mistExit
  /-- PM_SLEEP (R440). -/
  | pmSleep (cl : Nat)
  /-- PM_SLEEP_APPLY (R439). -/
  | pmSleepApply (cl : Nat)
  /-- PM_WAKE (R439). -/
  | pmWake (cl : Nat)
  /-- THERMAL_TRIP (R464). -/
  | thermalTrip (die temp : Nat)
  /-- POWER_ON_RESET (R462): the flash devices on the carrier, where they were changed while unpowered. -/
  | powerOnReset (flash0 flash1 : Option BootImage)
  /-- RST_N_RELEASE (R462). -/
  | rstNRelease
  /-- PACKAGE_RESET (R462): how long RST_N was held low, in ns. -/
  | packageReset (ns : Nat)
  /-- BROWNOUT (R457): `high` for an overvoltage; `rstLow` when RST_N was low at the loss. -/
  | brownout (high rstLow : Bool)
  /-- REFCLK_LOSS (R459). -/
  | refclkLoss
  /-- BYPASS (R465). -/
  | bypass
  /-- SAMPLE_PRELOAD (R465): the cells shifted in. -/
  | samplePreload (cells : BitVec 64)
  /-- EXTEST (R465). -/
  | extest
  /-- CLAMP (R465). -/
  | clamp
  /-- HIGHZ (R465). -/
  | highz
  -- The rows that close the table.
  /-- ENV_PORT_LINK_UP (R383). -/
  | envPortLinkUp (port : Nat)
  /-- REG_READ (R425): an access of `bytes` bytes at window offset `off`. -/
  | regRead (who : Who) (off bytes : Nat)
  /-- MALFORMED_MESSAGE (R430). -/
  | malformedMessage (session : Nat)
  /-- AG_RESTORE_DONE (R354). -/
  | agRestoreDone (job : Nat)
  /-- AG_CONTEXT_SAVE_DONE (R359). -/
  | agContextSaveDone (job : Nat)
deriving DecidableEq, Repr

end Sys2Proof
end

