-- ==== Sys2Proof/Machine/State.lean ====
section
/-!
DEFINITION. The state of the package as plain data: every register, queue, table, buffer, counter, mode and pin the
spec names, and the queue of waiting commands. Reset values stand in `State.reset` and in each field's docstring.
-/

namespace Sys2Proof.Machine

/-- No command faults: R16 says the package never leaves behaviour undefined, it ends every illegal action with a named
status and performs no part of it. The type has no constructor. -/
inductive Fault where
deriving DecidableEq, Repr

/-- Why a command has no meaning. -/
inductive Refusal where
  /-- Raised by an arm of `exec` whose command is not modelled yet. Safe: the machine stops. -/
  | notModelled (mnemonic : String)
deriving DecidableEq, Repr

/-! ## Tick block (R19 to R32) -/

/-- A tick setting (R20, R21). -/
structure TickCfg where
  /-- PERIOD_US, 16 bits. -/
  periodUs : Nat
  /-- COMMIT_US, 16 bits. -/
  commitUs : Nat
  /-- MAINT_US, 16 bits. -/
  maintUs : Nat
deriving DecidableEq, Repr

/-- The interval of the tick (R20) that the last tick point opened. -/
inductive Phase where
  | step
  | late
  | drain
  | slot
  | boundary
deriving DecidableEq, Repr

/-- Registers and state of the tick block. -/
structure TickSt where
  /-- TK_CONFIG, 3 × 16 bits (R23). Reset: boot. -/
  cfg : TickCfg
  /-- TK_CONFIG_NEXT, 3 × 16 bits (R23). Reset: boot. -/
  next : TickCfg
  /-- TK_APPLY_AT.TICK, 64 bits (R23, R24). Reset: 0. -/
  applyAt : Nat
  /-- The copy of TK_CONFIG_NEXT taken at an accepted arming, with its tick (R24). Reset: none. -/
  pending : Option (TickCfg × Nat)
  /-- TK_STATUS.APPLY_REJECTED, 1 bit (R23). Reset: 0. -/
  applyRejected : Bool
  /-- TK_STATUS.APPLY_STATUS, 16 bits (R23). Reset: 0x0000. -/
  applyStatus : Status
  /-- TK_TICK, 64 bits (R19, R23). Reset: 0. -/
  tick : Nat
  /-- Tick 0 has started (R19, R409). Reset: false. -/
  started : Bool
  /-- TK_STATUS.TICK_OVF, 1 bit, ST (R23). Reset: 0. -/
  tickOvf : Bool
  /-- TK_STATUS.LOCKED, 1 bit (R23, R28). Reset: 0. -/
  locked : Bool
  /-- TK_STATUS.SYNC_LOST, 1 bit, ST (R23, R28). Reset: 0. -/
  syncLost : Bool
  /-- TK_SYNC.ROLE, 2 bits (R23). Reset: boot. -/
  role : Nat
  /-- TK_SYNC.CABLE_DELAY_NS, 16 bits (R23). Reset: boot. -/
  cableDelayNs : Nat
  /-- TK_SYNC.LOCK_LIMIT_NS, 16 bits (R23). Reset: boot. -/
  lockLimitNs : Nat
  /-- TK_OFFSET.OFFSET_NS, 32 bits signed (R23, R28). Reset: 0. -/
  offsetNs : Int
  /-- Phase error carried to later ticks, ns (R28). Reset: 0. -/
  carryNs : Int
  /-- Consecutive ticks without a tick-sync edge (R28). Reset: 0. -/
  missedEdges : Nat
  /-- IEEE 1588 time is valid (R27, R28). Reset: false. -/
  ptpValid : Bool
  /-- IEEE 1588 time has been lost and is not valid again: a follower runs freely (R28). Reset: false. -/
  timeLost : Bool
  /-- The tick number has been taken from IEEE 1588 time (R27, log 48). Reset: false. -/
  numbered : Bool
  /-- Ordinary-clock data set: offset from master and mean path delay in ns, and the stamps of a Sync and a Delay_Req
  under way (R27). Reset: 0. -/
  ptpOffset : Int
  /-- Mean path delay, ns (R27). Reset: 0. -/
  ptpDelay : Int
  /-- Receive stamp of a two-step Sync that awaits its Follow_Up (R27). Reset: none. -/
  ptpSync : Option Nat
  /-- Send stamp of the Delay_Req under way (R27). Reset: none. -/
  ptpReq : Option Nat
  /-- Interval of the tick now open (R20). Reset: boundary. -/
  phase : Phase
  /-- Start of the current tick in the package timebase, ns (R186). Reset: 0. -/
  startNs : Nat
  /-- Length of the current tick with its stretch, ns, fixed when its boundary begins (R445). Reset: 0. -/
  lenNs : Nat
  /-- Correction of the next boundary interval, ns, at most ±500 (R28). Reset: 0. -/
  slewNs : Int
deriving DecidableEq, Repr

/-! ## Units and clusters (02, 03, 04) -/

/-- CK_UNIT.STATE (R99). -/
inductive UnitState where
  | available
  | stale
  | suspect
  | inTest
  | retired
  | fused
deriving DecidableEq, Repr

/-- The open accumulation of a unit (R71). -/
structure OpenAcc where
  shape : Nat
  rows : Nat
  lfmt : Nat
  bfmt : Nat
  tag : Nat
  /-- Roundings per output so far, K / c (R83). -/
  chunks : Nat
  /-- E_a: the largest unbiased exponent held by an entry (R83). -/
  peak : Int
deriving DecidableEq, Repr

/-- Where a unit's contents can be refilled from (R94). -/
inductive Source where
  /-- There is no copy: the contents came from none. -/
  | nothing
  /-- The contents changed after the last copy (R94). -/
  | changed
  /-- Library entry `i` of partition `p`, from byte `off` of its shard. -/
  | library (p i off : Nat)
  /-- The bank copy of R236 on rim die `rd`, region `r`, from byte `off`. -/
  | bankCopy (rd r off : Nat)
  /-- A sealed Afterglow slot, from byte `off` (R343). -/
  | slot (rd r off : Nat)
deriving DecidableEq, Repr

/-- Progress of a refill and re-checksum (R92 to R94). -/
inductive Refill where
  /-- Waits for the first intake edge after its cause. -/
  | waiting (copy : Bool)
  /-- Started; `copy` when the store is to be filled, `again` on the second attempt of R93. -/
  | running (copy again : Bool)
  /-- Store filled; the re-checksum follows. -/
  | filled (again : Bool)
deriving DecidableEq, Repr

/-- Progress of a test of a unit (R88, R467). -/
structure TestProg where
  /-- 0 ARITH_TEST, 1 STORE_TEST. -/
  kind : Nat
  /-- Passes or steps done. -/
  done : Nat
  /-- Bad lanes found so far. -/
  bad : List Nat
  reverseBad : Bool
  /-- The last step has run: the outcome awaits the boundary. -/
  finished : Bool
deriving DecidableEq, Repr

/-- One physical unit (R46, R99). -/
structure UnitSt where
  /-- CK_UNIT.STATE, 3 bits. Reset: fuse; STALE before start-up. -/
  state : UnitState
  /-- CK_UNIT.SPARE_IN_USE, 1 bit. Reset: fuse. -/
  spareInUse : Bool
  /-- CK_UNIT.SPARE_BAD, 1 bit. Reset: fuse. -/
  spareBad : Bool
  /-- CK_UNIT.SPARE_FOR, 6 bits. Reset: fuse. -/
  spareFor : Nat
  /-- CK_UNIT.LOGICAL_UNIT, 4 bits; 15 when RETIRED or FUSED. Reset: fuse. -/
  logical : Nat
  /-- CK_UNIT.EPOCH, 16 bits. Reset: 0. -/
  epoch : Nat
  /-- CK_UNIT.SUSPECT_COUNT, 8 bits. Reset: 0. -/
  suspects : Nat
  /-- CK_UNIT.SUSPECT_OVF, 1 bit, ST. Reset: 0. -/
  suspectOvf : Bool
  /-- The unit was marked SUSPECT and the boundary that starts relief has not come (R87, R101). Reset: false. -/
  marked : Bool
  /-- The open accumulation (R71). Reset: none. -/
  acc : Option OpenAcc
  /-- Accumulator file, 256 entries × 66 lanes × 32 bits, key 66 × entry + lane (R46). Reset: 0. -/
  file : Tab W32
  /-- Operand registers, 2 × 512 bits a lane and 2 × 4,096 bits in lane 64, in words of 32 bits, key 66 × word + lane (R46).
  Reset: 0. -/
  operand : Tab W32
  /-- Row-scalar file, 64 entries × 66 lanes × 32 bits, key 66 × entry + lane (R46). Reset: 0. -/
  rowScalar : Tab W32
  /-- Refill in progress (R92 to R94). Reset: none. -/
  refill : Option Refill
  /-- Source of a refill (R94). Reset: nothing. -/
  source : Source
  /-- The lane store has been written since the newest cut (R94, R359). Reset: false. -/
  written : Bool
  /-- Format code of the resident weights, for the re-checksum of R93. Reset: 5 (BF16). -/
  wfmt : Nat
  /-- Test in progress (R88, R467). Reset: none. -/
  test : Option TestProg
  /-- The unit holds a Cirrus permit of this tick (R68). Reset: false. -/
  permit : Bool
  /-- The lane-row clocks are gated (Haze, R439). Reset: false. -/
  haze : Bool
  /-- Contrail capture of the unit is not finished: writes wait (R241). Reset: false. -/
  fenced : Bool
deriving DecidableEq, Repr

/-- A card's place in a chain: which use of the chain it was posted in (0 none), and its place there in post order (1, 2, …; 0
for the card that opens it). A chain that has closed may be open again while cards of its last use still run (R112). -/
structure ChainPlace where
  use : Nat
  n : Nat
deriving DecidableEq, Repr

/-- A card in a queue, with its place in its chain. -/
structure QCard where
  card : Card
  ord : ChainPlace
deriving DecidableEq, Repr

/-- A credited input queue (R39 to R43). -/
structure Queue where
  depth : Nat
  credits : Nat
  cards : List QCard
deriving DecidableEq, Repr

/-- How far a lane-row card's settlement has come (R85). -/
inductive Attempt where
  /-- Not a checked card, or no attempt has failed. -/
  | first
  /-- The first attempt failed: CK_RETRY is due. -/
  | retryDue
  /-- The second attempt runs. -/
  | second
  /-- The second attempt failed: CK_RELIEF is due. -/
  | reliefDue
  /-- The relief card runs on physical unit `nb`. -/
  | relief (nb : Nat)
  /-- Relief of a SUSPECT unit's card runs on physical unit `nb` (R87). -/
  | standIn (nb : Nat)
deriving DecidableEq, Repr

/-- A card in execution on an engine, or handed on by the control core, until CARD_RETIRE. -/
structure Run where
  card : Card
  ord : ChainPlace
  status : Status
  nanIn : Bool
  nanGen : Bool
  ovf : Bool
  /-- Memory writes that become visible at retirement (keys of Machine/Mem.lean). -/
  writes : List (Nat × Byte)
  /-- Cycles from issue to retirement (R117). -/
  cycles : Nat
  /-- MODE of the completion record (R117). -/
  mode : Nat
  attempt : Attempt
  /-- Lane-row cards: physical unit that runs the card. -/
  host : Nat
  /-- Lane-row cards: accumulator entries of this attempt, key 66 × entry + lane. -/
  file : Tab W32
  /-- Lane-row cards: the values to write back, in writeback order. -/
  result : List W32
  /-- Lane-row cards: the compared pairs (R80), and the values of τ (R83): r, E_a, E_t. -/
  pairs : List (W32 × W32)
  chunks : Nat
  peakA : Int
  peakT : Int
  /-- Bits of the failed second attempt (R85). -/
  prev : List W32
  /-- Runs on the main path for want of a permit (R69, R86). -/
  onMain : Bool
  /-- Ticks since issue (R170). -/
  issueTick : Nat
  /-- Package channels that the accesses of the operation reach (R180, R184). -/
  chans : List Nat
  /-- Pool lines of a remote READ that have landed (R170). -/
  landed : List Nat
  /-- A collective's group and sequence (R328). -/
  collSeq : Nat
  /-- A finish card of a row statistic: tiles finished when it retires (R132); none for a card of a queue. -/
  finish : Option Nat
  /-- The card goes on, and its results are discarded: its step was cancelled (R213). -/
  discard : Bool
deriving DecidableEq, Repr

/-- A tile of a row statistic that has come (R132). -/
structure TileRec where
  index : Nat
  card : Card
deriving DecidableEq, Repr

/-- Why a chain aborted (R115). -/
inductive AbortCause where
  | failed
  | cancelled
  | arrivalOvf
deriving DecidableEq, Repr

/-- An open chain (R112 to R116, R132). -/
structure Chain where
  /-- Which use of the chain this is, of the cluster's `uses`. -/
  use : Nat
  /-- Cards of the chain posted after its CHAIN_OPEN (R112), at most 65,535. -/
  posted : Nat
  /-- Retired prefix (R113), 16 bits. -/
  done : Nat
  /-- Cards beyond the retired prefix that have retired. -/
  ahead : List Nat
  /-- CHAIN_LAST has retired, but finish work has not (R112). -/
  lastDone : Bool
  abort : Option AbortCause
  /-- The chain holds an accumulation (R114). -/
  heavy : Bool
  /-- The CHAIN_OPEN card: reservation, rows, tile count, two-pass region, mode (R116). -/
  openCard : Card
  /-- 0 no row statistic, 1 held-tile, 2 two-pass (R117, R132). -/
  mode : Nat
  /-- Tiles seen (R132). -/
  tiles : List TileRec
  /-- The row statistic has closed: place of the closing card, and tiles already finished (R132). -/
  closing : Option (Nat × Nat)
  /-- Sequence slots whose step the chain serves, as its sampler, mask, KV and STEP_DONE cards name them (R213). -/
  slots : List Nat
deriving DecidableEq, Repr

/-- Power state of a cluster (R438, R451). -/
inductive PmState where
  | clear
  | haze
  | mist
  | fog
  | dusk
  | night
deriving DecidableEq, Repr

/-- The run list that a control core works on (R108). -/
structure ListSt where
  /-- Near address of the next card. -/
  addr : Nat
  /-- Cards left. -/
  left : Nat
deriving DecidableEq, Repr

/-- Vector-engine state of a cluster (R119): RV32IMF with Zve32f, VLEN 2,048. -/
structure VecSt where
  pc : Nat
  /-- x1 to x31, 32 bits. -/
  x : Tab W32
  /-- f0 to f31, 32 bits. -/
  f : Tab W32
  /-- v0 to v31, 64 elements × 32 bits, key 64 × register + element. -/
  v : Tab W32
  vl : Nat
  vtype : W32
  vstart : Nat
  fflags : BitVec 5
  frm : BitVec 3
  /-- Fixed-point rounding mode and saturation flag. -/
  vxrm : BitVec 2
  vxsat : Bool
  /-- Pinned generators of the card in execution, by vector lane (R145, R146); none in free mode. -/
  pinned : Tab (List W32)
deriving DecidableEq, Repr

/-- A prefetch entry in flight to a cluster (R174, R175). -/
structure Prefetch where
  src : Nat
  dst : Nat
  lines : Nat
  /-- Tick in which the data is used. -/
  due : Nat
  cls : Nat
deriving DecidableEq, Repr

/-- What the sampler keeps beside a candidate block it has written (R205, R208, log 18): the header's words, the number
of finite scores of its tiles, and the score of BEST_IDX. -/
structure ScanNote where
  header : List W64
  finite : Nat
  bestScore : W32
deriving DecidableEq, Repr

/-- A cluster (R102 to R117, R438). -/
structure Cluster where
  /-- Owner: class, partition and job of the cluster (R103). Reset: none. -/
  owner : Option (Nat × Nat × Nat)
  /-- CK_CLUSTER_EPOCH, 16 bits (R92, R99). Reset: 1. -/
  epoch : Nat
  /-- Cirrus permits assigned for each tick (R67). Reset: 0. -/
  permits : Nat
  /-- Permits taken in this tick (R68). Reset: 0. -/
  permitsUsed : Nat
  /-- Engine queues (R105): key 0–7 unit, 8 + e engine e, 17 control core. Reset: empty, with full credit. -/
  queues : Tab Queue
  /-- Cards in execution: keys as `queues`. Reset: none. -/
  runs : Tab Run
  /-- Operations handed to the tier port, in order of issue, at most 32 (06). Reset: none. -/
  tier : List Run
  /-- Collectives handed to the Squall engine, at most 4 (R328). Reset: none. -/
  colls : List Run
  /-- Credits of that queue (R39, R328). Reset: 4. -/
  collCredits : Nat
  /-- The list being taken (R108). Reset: none. -/
  list : Option ListSt
  /-- An engine-9 card that has passed R110 and is to execute next (R106). Reset: none. -/
  exec9 : Option QCard
  /-- A late-taken RUN_LIST waits for prefetch entries (R175). Reset: none. -/
  prefetch : List Prefetch
  /-- Open chains 1–63 (R112). Reset: none. -/
  chains : Tab Chain
  /-- Closed uses of chains some of whose cards have not retired, by use (R112). Reset: none. -/
  past : Tab Chain
  /-- Uses of chains begun. Reset: 0. -/
  uses : Nat
  /-- Write buffer of the engine's near-memory path, 64 KiB: bytes on their way to near memory, oldest first (R135). Reset: none. -/
  writeBuf : List (Nat × Byte)
  /-- Arrival counts of chains 1–63, 16 bits (R113). Reset: 0. -/
  arrivals : Tab Nat
  /-- Function-table slots 0–15 that are loaded (R125). Reset: none. -/
  tables : List Nat
  /-- Loaded grammars: handle and pool line (R209). Reset: none. -/
  grammars : Tab Nat
  /-- Loaded allow lists: handle and pool line (R209). Reset: none. -/
  allows : Tab Nat
  /-- The sampler's notes on candidate blocks, by pool line (log 18). Reset: none. -/
  scans : Tab ScanNote
  /-- Free-mode generator states, key of Machine/Rng.lean, 31 × 32 bits (R138, R144). Reset: not seeded. -/
  gens : Tab (List W32)
  /-- Vector engine (R119). Reset: 0. -/
  vx : VecSt
  /-- PM_CLUSTER.STATE, 3 bits (R451). Reset: MIST. -/
  pm : PmState
  /-- PM_CLUSTER.WAKE_AT, 56 bits (R451). Reset: 0. -/
  wakeAt : Nat
  /-- WAKE_LEAD of the pending PM_SLEEP, and the state it names; none when no sleep is pending (R440). Reset: none. -/
  sleep : Option (Nat × PmState)
  /-- A card of the cluster waited on the partition's budget in this tick (R443). Reset: false. -/
  capped : Bool
  /-- Units whose MV card at the head has been deferred to the next intake edge (R69). Reset: none. -/
  deferred : List Nat
  /-- A PUBLISH or UPD_DONE of the step has retired (R240, R307). Reset: false. -/
  published : Bool
  updDone : Bool
  /-- Ticks in which the cluster's control core restarts (R417). Reset: false. -/
  coreDown : Bool
  /-- Run-table entries whose RUN_LIST found no credit, oldest first: the scheduler core posts them again (R106). Reset: none. -/
  owed : List W64
deriving DecidableEq, Repr

/-! ## Memory tiers (06) -/

/-- MT_CHANNEL.STATE (R183). -/
inductive ChanState where
  | active
  | down
  | failed
  | retrain
deriving DecidableEq, Repr

/-- A GDDR7 channel (R161, R183). -/
structure Chan where
  /-- MT_CHANNEL.STATE, 2 bits. Reset: 0 ACTIVE. -/
  state : ChanState
  /-- MT_CHANNEL.TEMP_C, 8 bits. Reset: 0. -/
  tempC : Nat
  /-- MT_CHANNEL.REFRESH, 2 bits (R182). Reset: 0. -/
  refresh : Nat
  /-- MT_CHANNEL.ODECC, 16 bits. Reset: 0. -/
  odecc : Nat
  /-- EDC retries and exhausted bursts of this tick (R180, R181). Reset: 0. -/
  retries : Nat
  exhausted : Nat
  /-- Freed byte ranges still to be zeroed: base and length (R167). Reset: none. -/
  zeroing : List (Nat × Nat)
  /-- Lines to rewrite in the next refresh slot (R179). Reset: none. -/
  rewrite : List Nat
  /-- Next line to scrub (R182). Reset: 0. -/
  scrub : Nat
  /-- Granted a RETRAIN in this tick (R97). Reset: false. -/
  trained : Bool
deriving DecidableEq, Repr

/-- A region-table entry MT_REGION[rd][i] (R162). -/
structure Region where
  chmask : Nat
  part : Nat
  cls : Nat
  owner : Nat
  sealed : Bool
  accumCluster : Nat
  grant : BitVec 16
  base : Nat
  len : Nat
  job : Nat
deriving DecidableEq, Repr

/-! ## Maintenance queue (03) -/

/-- A queued or granted maintenance request (R96, R98). -/
structure MaintReq where
  kind : Nat
  target : Nat
  /-- Share that holds it: 0–15 partition, 16 package rights, 17 the unit's reserved entry (R88). -/
  share : Nat
  granted : Bool
  /-- Lane-clock cycles of this slot that its steps have not used. -/
  left : Nat
deriving DecidableEq, Repr

/-! ## Generation (07) -/

/-- A tenant-table entry SM_TENANT[t] (R195). -/
structure Tenant where
  part : Nat
  valid : Bool
  rate : Nat
  cap : Nat
  balance : Nat
  /-- Slot charged last in the previous short tick (R197). -/
  lastShort : Nat
  /-- Latency values of the running window and SM_LAT[t] as last replaced (R200). -/
  win : Nat × Nat × Nat × Nat
  lat : Nat × Nat × Nat × Nat
deriving DecidableEq, Repr

/-- State of a request (R191). -/
inductive ReqState where
  | queued
  | prefill
  | decode
  | ending
deriving DecidableEq, Repr

/-- How a request ends (R191, R203): 0 COMPLETE, 1 CANCELLED, 2 REFUSED, 3 FAILED. -/
inductive EndKind where
  | complete
  | cancelled
  | refused
  | failed
deriving DecidableEq, Repr

/-- The token result of a step (R204, R207). -/
structure TokRes where
  token : Nat
  trunc : Bool
  greedy : Bool
  lpFull : W32
  lpSampled : W32
deriving DecidableEq, Repr

/-- A live request (R187 to R204). -/
structure Req where
  id : Nat
  card : Card
  part : Nat
  job : Nat
  state : ReqState
  arrivalNs : Nat
  latchTick : Nat
  /-- Sequence slot, package-wide, once admitted (R190). -/
  slot : Option Nat
  /-- Pages of the slot's map, entry j for positions 64j on (R216). -/
  pages : List Nat
  /-- Prompt positions reused from the prefix tree (R193). -/
  reused : Nat
  /-- Next position to be processed by prefill or decode (R193, R217). -/
  pos : Nat
  /-- Positions of this tick's step: first and count; none when it does not step (R204). -/
  step : Option (Nat × Nat)
  /-- The step started in an earlier tick and has not retired: a late step (R29). -/
  lateStep : Bool
  /-- Policy epoch of the step (R203, EPOCH_TAG). -/
  stepEpoch : Nat
  /-- The token last delivered, which the next step caches (R215). -/
  lastToken : Nat
  /-- STEP_DONE of the step has retired (R204). -/
  stepDone : Bool
  /-- Token ready to become visible (R202). -/
  ready : Option TokRes
  /-- Tokens delivered; commit tick and time of the last one; time to first token (R198). -/
  tokens : Nat
  lastTick : Nat
  lastNs : Nat
  ttftUs : Nat
  tbtMaxUs : Nat
  tbtMiss : Nat
  tbtMissOvf : Bool
  /-- End decided: kind, reason, status (R191); its END record has been written. -/
  ended : Option (EndKind × Nat × Status)
  endWritten : Bool
  /-- Consecutive ticks waited for a page (R217); the sequence waits. -/
  pageWait : Nat
  waiting : Bool
  /-- Prefill has ended and the prompt pages are to be indexed (R220). -/
  toIndex : Bool
  /-- The experience ring that the request's slot feeds (R286), which holds a record for its END (R288). -/
  ring : Option Nat
deriving DecidableEq, Repr

/-- A record waiting for room in an output ring (R202). -/
structure RingRec where
  w0 : W64
  w1 : W64
  w2 : W64
  w3 : W64
  /-- The identifier that stops being live when the record is written (R189). -/
  ends : Option Nat
deriving DecidableEq, Repr

/-- A record that waits for its place in an output ring (R202): a record, or the TOKEN of a request, by its identifier, which
is written at a commit point. -/
inductive RingWait where
  | record (r : RingRec)
  | token (id : Nat)
deriving DecidableEq, Repr

/-- A KV page descriptor (R216), with the page's 64 token identifiers (R215, log 19) and the policy epoch whose weights produced
it (R219). -/
structure Page where
  shared : Bool
  filled : Nat
  job : Nat
  refs : Nat
  epoch : Nat
  /-- Token identifiers of the page, by position modulo 64. -/
  tokens : Tab Nat
deriving DecidableEq, Repr

/-- A prefix-tree node (R219). -/
structure Node where
  parent : Option Nat
  page : Nat
  pin : Bool
  fingerprint : W64
  lastUse : Nat
  children : Nat
  /-- HNEXT, where HNEXT_VALID is 1. -/
  hnext : Option Nat
  scope : Nat
  epoch : Nat
deriving DecidableEq, Repr

/-! ## Contrail (08) -/

/-- CT_CTX.PHASE (R259). -/
inductive CtPhase where
  | idle
  | collect
  | held
  | capture
  | send
  | armed
deriving DecidableEq, Repr

/-- One publish-map entry (R239) with its progress in the publish under way. -/
structure MapEntry where
  w0 : W64
  w1 : W64
  w2 : W64
  w3 : W64
  captured : Bool
  resent : Bool
  sealedOk : Bool
  /-- Bytes as staged (R244) and their CRC-32C. -/
  stageOff : Nat
  crc : W32
deriving DecidableEq, Repr

/-- A Contrail context CT_CTX[c] (R229, R259). -/
structure Ctx where
  job : Nat
  part : Nat
  activeBank : Nat
  inactiveInvalid : Bool
  phase : CtPhase
  epochActive : Nat
  epochPending : Nat
  lastStatus : Status
  switchTick : Nat
  /-- Highest number given to a publish (R230); CT_EPOCH_EXHAUSTED has been raised. -/
  lastEpoch : Nat
  exhausted : Bool
  /-- Ticks of the publish under way that count toward the timeout (R248). -/
  ticks : Nat
  /-- Packages whose PUBLISH reports, and whose seal reports, the lead holds (R240, R250). -/
  pubFrom : List Nat
  sealFrom : List Nat
  /-- The lead's start tick (R240). -/
  startTick : Nat
  /-- Tick in which the last report of a published source came (R240). -/
  pubTick : Nat
  /-- Tick in which the capture of the publish under way began, and of the one in force (R355). -/
  capTick : Nat
  activeCap : Nat
  bankBytes : Nat
  switchLead : Nat
  timeout : Nat
  /-- STAGE: learner die, rim die, region; BANKCOPY: generator die, rim die, region (R238). -/
  stage : List (Nat × Nat × Nat)
  copy : List (Nat × Nat × Nat)
  entries : List MapEntry
deriving DecidableEq, Repr

/-- A library entry CT_LIB[p][i] (R255, R259). -/
structure Lib where
  modelId : Nat
  /-- RANK of the load that brought it in (R254). -/
  rank : Nat
  bytes : Nat
  kind : Nat
  epoch0 : Nat
  inUse : Nat
  uses : Nat
  lastUse : Nat
  /-- Region that holds the shard, its J and PLACEMENT (kind 3) (R255, R362). -/
  rd : Nat
  region : Nat
  j : Nat
  placement : W64
deriving DecidableEq, Repr

/-- A model-image load in progress (R254). -/
structure Load where
  rd : Nat
  region : Nat
  rank : Nat
deriving DecidableEq, Repr

/-! ## Learning and update (09, 10) -/

/-- A Stratus frame entry (R272), with its stack. -/
structure FrameEnt where
  layer : Nat
  tag : Nat
  kind : Nat
  popped : Bool
  pin : Bool
  baseLine : Nat
  lines : Nat
deriving DecidableEq, Repr

/-- An experience ring CT_EXP[r] (R286, R293), and what the scheduler core keeps of each record. -/
structure ExpRing where
  job : Nat
  part : Nat
  log2 : Nat
  lastStatus : Status
  write : Nat
  consume : Nat
  /-- Records written and not consumed, oldest first: kind, request, full epoch, commit or write tick, ready by
  timeout, teacher or reward field set (R232, R291). -/
  recs : List (Nat × Nat × Nat × Nat × Bool × Bool)
  consumer : Nat
  rd : Nat
  region : Nat
  mirror : Option (Nat × Nat)
  /-- The TOKEN record last consumed was stale, so that its TOPK records still to come are too (R292). -/
  lastStale : Bool
deriving DecidableEq, Repr

/-- A parameter group of the UPDATE section (R299, R305). -/
structure Group where
  points : List (Nat × W32 × W32)
  frozen : Bool
  t : Nat
  tMax : Bool
  lr : W32
  wd : W32
deriving DecidableEq, Repr

/-- A NORM_POST whose result has not landed (R310, R311): its cluster, chain and the chain's use, its RESULT line, and the
tick it was posted in. -/
structure Poster where
  cl : Nat
  chain : Nat
  use : Nat
  line : Nat
  tick : Nat
deriving DecidableEq, Repr

/-- The update side of a job (R299). -/
structure UpdSt where
  groups : List Group
  clip : W32
  /-- TENSOR: K, COLS, IN_NORM. -/
  tensors : Tab (Nat × Nat × Bool)
  /-- Owner cluster of each update tile: tensor, tile, cluster key (rank × 2048 + cluster). -/
  owners : List (Nat × Nat × Nat)
  /-- Schedule regions: die, rim die, region. -/
  sched : List (Nat × Nat × Nat)
  /-- Moment regions: cluster, rim die, region. -/
  moment : List (Nat × Nat × Nat)
  normGroup : Nat
  /-- Partials posted in the step: tensor, chunk, P; those whose result has not landed; and whether it was formed (R310). -/
  partials : List (Nat × Nat × W32)
  posters : List Poster
  normSent : Bool
  /-- Packages whose UPD_DONE reports the lead holds, and the tick of its notice (R307). -/
  doneFrom : List Nat
  notice : Option Nat
deriving DecidableEq, Repr

/-- The learning side of a job (R262). -/
structure LearnSt where
  stages : Nat
  replicas : Nat
  /-- STAGE[r][s]: rank, die mask, first and last layer. -/
  stage : List (Nat × Nat × Nat × Nat)
  microBatches : Nat
  mbInflight : Nat
  /-- STRATUS[d]: die, region handle, STACK_BYTES, STACK_FRAMES. -/
  stratus : List (Nat × Nat × Nat × Nat)
  /-- TIES: the uses of each tie group: rank, cluster, offset, length (R284). -/
  ties : List (List (Nat × Nat × Nat × Nat))
  /-- GRAD[c]: cluster, region handle. -/
  grad : List (Nat × Nat)
  needTeach : Bool
  topk : Nat
  teachTimeout : Nat
  needReward : Bool
  rewardTimeout : Nat
  /-- Package ring numbers, in ring order; 256 and more for a ring on another package (log 26). -/
  rings : List Nat
  /-- Consumer of each ring, in ring order: package rank and cluster (R286). -/
  consumers : List (Nat × Nat)
  /-- END records that wait for the next commit point, with their ring and the policy epoch of their request's last step (R232,
  R288). -/
  expEnds : List (Nat × Nat × Card)
deriving DecidableEq, Repr

/-- The generator side of a job (R190). -/
structure GenSt where
  slots : List Nat
  pages : Nat
  pageBase : Nat
  maxLen : Nat
  vocab : Nat
  eos : Nat
  prefillChunk : Nat
  splitLen : Nat
  kvFmt : Nat
  posLines : Nat
  admitTimeout : Nat
  pageWaitLimit : Nat
  ringRd : Nat
  ringRegion : Nat
  ringRecords : Nat
  /-- WRITE_INDEX and READ_INDEX of the output ring; records that wait for room, ACK records for the next intake edge, and
  END records for the next commit point (R201, R202). -/
  write : Nat
  read : Nat
  wait : List RingWait
  acks : List RingRec
  ends : List RingRec
deriving DecidableEq, Repr

/-! ## Squall (11) -/

/-- SQ_PORT.STATE (R338). -/
inductive PortState where
  | unbound
  | down
  | up
  | cal
deriving DecidableEq, Repr

/-- A DATA frame that its peer has not acknowledged (R323, R324): SEQ, lane, flits, how often it was resent, the package it
goes to, and its flow, source die + destination die (R322). -/
structure Sent where
  seq : Nat
  vl : Nat
  flits : List (List Byte)
  resent : Nat
  pkg : Nat
  flow : Nat
deriving DecidableEq, Repr

/-- An external port (R322 to R324, R338). -/
structure Port where
  state : PortState
  width : Nat
  pmd : Nat
  peer : Nat
  switched : Bool
  rttUs : Nat
  /-- Sequence of the next frame sent, next expected, and the frames unacknowledged (R324). -/
  txSeq : Nat
  rxSeq : Nat
  unacked : List Sent
  /-- Flits sent on each lane whose credit has not come back (R320). -/
  used : Tab Nat
deriving DecidableEq, Repr

/-- A collective group of a job (R327). -/
structure SqGroup where
  /-- Members in rank order: package rank, cluster. -/
  members : List (Nat × Nat)
  maxBytes : Nat
  window : Nat
  scratch : List (Nat × Nat)
  /-- Next SEQ by rank (R329), and the transfers' next SEQ by (rank, cluster) (R326). -/
  seqs : Tab Nat
  tileSeqs : Tab Nat
  /-- SEQs of the collectives that have aborted here (R335). -/
  aborted : List Nat
deriving DecidableEq, Repr

/-- A collective in flight on this package (R330 to R335). -/
structure Coll where
  job : Nat
  group : Nat
  seq : Nat
  kind : Nat
  fmt : Nat
  op : Nat
  root : Nat
  count : Nat
  timeout : Nat
  /-- Setup has passed; in-network with contexts held at `ctxRd`, or endpoint mode (R333). -/
  setUp : Bool
  inNet : Bool
  ctxRd : Option Nat
  /-- Members of this package that have posted, and those that have retired, by rank. -/
  posted : List Nat
  retired : List Nat
  /-- Input chunks held: chunk, rank, bytes (R331); result chunks formed and landed, by chunk and rank. -/
  inputs : List (Nat × Nat × List Byte)
  results : List (Nat × List Byte)
  landed : List (Nat × Nat)
  /-- Input chunks that have left a member's SRC here: chunk, rank. -/
  sent : List (Nat × Nat)
  /-- Counts of every rank of a V kind, in rank order (R330). -/
  counts : List (Nat × List Nat)
deriving DecidableEq, Repr

/-- SQ_ABORT_LAST[p] (R338). -/
structure AbortLast where
  job : Nat
  group : Nat
  seq : Nat
  status : Status
  cause : Status
  tick : Nat
deriving DecidableEq, Repr

/-! ## Afterglow (12) -/

/-- Seal state of a slot (R348). -/
inductive SealState where
  | empty
  | opened
  | done
  | invalid
deriving DecidableEq, Repr

/-- An in-memory or buddy slot (R343, R348). -/
structure SlotSt where
  rd : Nat
  region : Nat
  state : SealState
  drained : Bool
  cut : Nat
  j : Nat
  cutTick : Nat
  policyEpoch : Nat
  sealTick : Nat
  blocks : Nat
deriving DecidableEq, Repr

/-- Afterglow state of a learner die of a job (R344 to R351). -/
structure AgDie where
  die : Nat
  slotA : SlotSt
  slotB : SlotSt
  drainImage : SlotSt
  /-- Drift map: blocks already copied (R346). -/
  drift : List Nat
  /-- The drift map is in use: from the cut until the copy closes or is abandoned. -/
  copying : Bool
  /-- The copy has closed (R346). -/
  closed : Bool
  /-- The drain image holds the cut being drained (R351). -/
  narrowed : Bool
deriving DecidableEq, Repr

/-- A buddy slot pair held here for a die of another member (R353). -/
structure Buddy where
  pkg : Nat
  die : Nat
  slotA : SlotSt
  slotB : SlotSt
deriving DecidableEq, Repr

/-- AG_JOB.STATE (R364). -/
inductive AgState where
  | running
  | held
  | restoring
  | saving
  | preempted
deriving DecidableEq, Repr

/-- An Afterglow context AG_JOB[c] (R341, R364). -/
structure AgCtx where
  job : Nat
  part : Nat
  service : Nat
  state : AgState
  copyOpen : Bool
  narrowing : Bool
  draining : Bool
  lastStatus : Status
  newestCut : Nat
  newestJ : Nat
  recoveryCut : Nat
  cutSeq : Nat
  /-- Tick in which the copy opened; COPY_TICKS (R345). -/
  copyFrom : Nat
  copyTicksMax : Nat
  drainEvery : Nat
  /-- Tick in which the drain started; its cut; DRAIN_TICKS (R353). -/
  drainFrom : Nat
  drainCut : Nat
  drainTicksMax : Nat
  /-- The newest cut whose drain has been started or skipped; a start that the lead has named: cut and tick (R351). -/
  drainSeen : Nat
  drainAt : Option (Nat × Nat)
  /-- A cut is due at the next boundary; a restore to step J is due (R337, R344). -/
  cutDue : Bool
  rollbackTo : Option Nat
  /-- The restore in progress takes a cut of this CUT_SEQ (R357, R358). -/
  restoreCut : Option Nat
  /-- The units of a restore have begun to refill from their slots (R354). -/
  refilling : Bool
  /-- A takeover or shrink holds the job at the next boundary (R356). -/
  holdDue : Bool
  preemptAsked : Bool
  /-- The saves have landed and the clusters are released at the next boundary (R359). -/
  releaseDue : Bool
  resumeTick : Option Nat
  /-- A request of the job is in progress (R364). -/
  busy : Bool
  dies : List AgDie
  buddies : List Buddy
  /-- Package that is this member's buddy (R353). -/
  buddyPkg : Nat
  /-- Members that have restored, and buddy slots sealed: package, die, cut, as the lead holds them (R353, R354). -/
  restored : List Nat
  buddySeals : List (Nat × Nat × Nat)
  /-- Engine state of the job's clusters while it is pre-empted (R360): cluster and its units. -/
  saved : List (Nat × Cluster × List (Nat × UnitSt))
  /-- CTXREG: die, class, region handle (R341). -/
  ctxReg : List (Nat × Nat × Nat)
  sealFrom : List (Nat × Nat)
  /-- Members whose copy of a cut has ended, and whose dies have all narrowed a cut: package, cut (R344). -/
  closedFrom : List (Nat × Nat)
  narrowedFrom : List (Nat × Nat)
  lostPkg : Option Nat
deriving DecidableEq, Repr

/-! ## Horizon (13) -/

/-- HZ_STREAM.STATE (R371). -/
inductive HzState where
  | closed
  | live
  | winding
deriving DecidableEq, Repr

/-- A Horizon stream (R369 to R383). -/
structure Stream where
  part : Nat
  port : Nat
  state : HzState
  holdMode : Nat
  actionKind : Nat
  actionBytes : Nat
  obsBytes : Nat
  decayN : Nat
  holdLimit : Nat
  windK : Nat
  holdRun : Nat
  /-- HZ_PEER[s], 256 bits. -/
  peer : BitVec 256
  /-- Action store: SAFE, PARK, LAST, NEXT (R370), LAST before a hold run or ramp began (R378, R380). -/
  safe : List Byte
  park : List Byte
  last : List Byte
  nextAct : Option (List Byte × Nat)
  base : List Byte
  /-- EPOCH_TAG of LAST; frames sent (R372). -/
  lastTag : Nat
  sent : Nat
  /-- Ramp steps sent, and FINAL sent (R380). -/
  rampStep : Nat
  finalSent : Bool
  /-- Observations received since the intake edge: SEQ, TICK, payload; SEQ last latched; missing now (R374). -/
  obs : List (W32 × W64 × List Byte)
  latched : W32
  missing : Bool
  openDue : Bool
  closeDue : Bool
  limitDue : Bool
  /-- Serving job (R382); a job that is bound at the next boundary. -/
  served : Option Nat
  bindDue : Option Nat
deriving DecidableEq, Repr

/-- An environment port HZ_PORT[n] (R368, R383). -/
structure EnvPort where
  cfg : EnvPortRec
  up : Bool
deriving DecidableEq, Repr

/-- A stream that a job serves, as its HORIZON section names it (R382): stream, serving cluster as 2,048 × rank + cluster,
chain, observation region as 256 × rim die + handle, and OBS_BYTES at admission (log 32). -/
structure HzBind where
  stream : Nat
  cluster : Nat
  chain : Nat
  region : Nat
  obs : Nat
deriving DecidableEq, Repr

/-! ## Jobs (14, 15) -/

/-- How a job ends (R396). -/
inductive JobEnd where
  | completed
  | faulted
  | tornDown
deriving DecidableEq, Repr

/-- An admitted job (R395, R432 to R435). -/
structure Job where
  part : Nat
  name : Nat
  packages : List Nat
  rank : Nat
  /-- (cluster, class) of this package. -/
  clusters : List (Nat × Nat)
  /-- (rank, cluster, class) of every package of the job, as CLUSTERS gives them (R127, R434). -/
  members : List (Nat × Nat × Nat)
  poolPages : List Nat
  /-- (rim die, region handle) of this package. -/
  regions : List (Nat × Nat)
  /-- PREFETCH: (die, class, list address). -/
  prefetch : List (Nat × Nat × Nat)
  vectorCode : Option Nat
  /-- RUN_TABLE: (cluster, address, PERIOD). -/
  runTable : List (Nat × Nat × Nat)
  seed : W64
  /-- s of R434: the tick of the first RUN_LIST posts. -/
  firstTick : Nat
  admitTick : Nat
  /-- Job step J (R337). -/
  j : Nat
  gen : Option GenSt
  learn : Option LearnSt
  upd : Option UpdSt
  ctx : Option Nat
  ag : Option Nat
  groups : Tab SqGroup
  /-- Streams of the HORIZON section (R382). -/
  streams : List HzBind
  libs : List (Nat × Nat)
  /-- End decided, with the status of a fault (R396). -/
  ending : Option (JobEnd × Status)
  held : Bool
  /-- Members of other packages that have compared the manifest (R435). -/
  agreed : List Nat
  /-- Steps that poison or aborts have named and that await their rollback; the step last rolled back for an abort (R335,
  R337). -/
  spoiled : List Nat
  abortedStep : Option Nat
  /-- PLACEMENT: the first 64 bits of the SHA-384 of the LEARN and UPDATE sections (R362). -/
  placement : W64
  /-- Clusters that a shrink has dropped, by package; cluster 2,048 stands for all of them (R358). -/
  dropped : List (Nat × Nat)
deriving DecidableEq, Repr

/-- Per-partition state of the scheduler core (R186 to R190, R395). -/
structure PartSt where
  /-- Request intake FIFO, 1,024 records of 64 bytes, with arrival stamps in ns, and whether a cancel by tag has named the
  record (R186, R213). Reset: empty. -/
  intake : List (Card × Nat × Bool)
  /-- Credits of the request intake FIFO (R39, R186). Reset: 1,024. -/
  intakeCredits : Nat
  /-- Next request identifier, 32 bits (R189). Reset: 1. -/
  nextReq : Nat
  /-- The last 4,096 ended identifiers and their end kinds (R189). Reset: none. -/
  ended : List (Nat × EndKind)
  /-- Next job INDEX, 12 bits (R395). Reset: 1. -/
  nextJob : Nat
  /-- Annotation FIFO, 1,024 records of 32 bytes (R290). Reset: empty. -/
  annots : List (W64 × W64 × W64 × W64)
  /-- Credits of the annotation FIFO (R39, R290). Reset: 1,024. -/
  annotCredits : Nat
  /-- WN_JOB_SUBMIT pending, with the tick of its write (R435). Reset: none. -/
  submit : Option (W64 × Nat)
  /-- WN_JOB_STATUS: LAST, JOB, ITEM (R428). Reset: 0. -/
  jobStatus : Status × Nat × Nat
  /-- CT_LOAD_STATUS and the load in progress (R259). Reset: 0, none. -/
  loadStatus : Status
  load : Option Load
  /-- Energy meter of the tick in pJ/10 and METER_LAST_UJ (R443, R451). Reset: 0. -/
  meter : Nat
  meterLast : Nat
  /-- Permits taken in this tick (R68). Reset: 0. -/
  permits : Nat
  /-- LW_CIRRUS_SHARE.USED_LAST, 12 bits (R76). Reset: 0. -/
  permitsLast : Nat
  /-- SQ_ABORT_LAST[p] (R338). Reset: 0. -/
  abortLast : AbortLast
  /-- SC_ATTEST_STATUS.LAST (R401); AG_REQ_STATUS, HZ_CTRL_STATUS, PT_REQ_STATUS, CK_MAINT_STATUS by view. Reset: 0. -/
  attestLast : Status
  agLast : Status
  hzLast : Status
  ptLast : Status
  maintLast : Status
  /-- WN_DISCARD_LAST of the view: offset, kind, tick (R428). Reset: 0. -/
  discard : Nat × Nat × Nat
deriving DecidableEq, Repr

/-- A management session (R399, R429 to R431). -/
structure Sess where
  keyIndex : Nat
  package : Bool
  mask : BitVec 16
  /-- PT_VIEW, 4 bits (R401). Reset: 0. -/
  view : Nat
  counter : Nat
  /-- The last 64 tags with their kept replies (R429). -/
  replies : List (W32 × Status × List W64)
  /-- Unacknowledged events: sequence, status, partition, tick, detail (R431), at most 1,024. -/
  events : List (Nat × Status × Nat × Nat × Nat)
  eventSeq : Nat
  lost : Nat
deriving DecidableEq, Repr

/-- A pending partition change or grant (R392, R393). -/
structure PtChange where
  create : Bool
  part : Nat
  /-- Tick whose boundary applies it. -/
  tickAt : Nat
  entry : BitVec 1024
  chans : BitVec 1024
deriving DecidableEq, Repr

/-- State of a firmware component (R414, R417, R428). -/
structure Comp where
  /-- 0 RUNNING, 1 RESTARTING, 2 FAILED, 3 RESTARTING with its code reloaded (reads as 1). Reset: 0. -/
  state : Nat
  stateVersion : Nat
  version : Nat
  /-- Ticks of its faults within 4,096 ticks (R418). -/
  faults : List Nat
  digest : Nat
deriving DecidableEq, Repr

/-- The power of the package (R457 to R464). -/
inductive Power where
  /-- No input, or die power removed by a brownout: the next rise is a power-on reset. -/
  | off
  /-- VIN is up and housekeeping runs; RST_N is low (steps 2 and 4 of R462). -/
  | inReset
  /-- RST_N has been released; START_UP is due (step 3). -/
  | released
  /-- START_UP ended in boot service (R411). -/
  | service
  /-- Ticks run. -/
  | running
  /-- Thermal trip: unpowered until a power-on reset (R464). -/
  | tripped
  /-- REFCLK was lost: RST_N must be pulsed with REFCLK back (R459). -/
  | clockLost
deriving DecidableEq, Repr

/-- JTAG instruction in force (R465). -/
inductive Jtag where
  | bypass
  | sample
  | extest
  | clamp
  | highz
deriving DecidableEq, Repr

/-- What leaves the package: frames, messages, replies, pulses and pins, in order. -/
inductive Out where
  /-- An ACTION frame of R372: port, stream, the four flags, SEQ, TICK, EPOCH_TAG, HOLD_RUN, payload; and its UDP datagram with
  the header's and the datagram's checksums, to the stream's peer (R367, R383). -/
  | action (port stream : Nat) (holdover windown fin obsMissing : Bool) (seq tick tag run : Nat) (payload : List Byte)
      (peer : BitVec 256) (datagram : List Byte)
  /-- An EVENT of R431 delivered to a session. -/
  | event (session : Nat) (seq : Nat) (status : Status) (part : Nat) (tick : Nat) (detail : Nat)
  /-- The outcome of a register write or a request, as the writer sees it (R12, R425, R430). -/
  | outcome (who : Who) (st : Status)
  /-- A management reply: session, tag, status, words. -/
  | reply (session : Nat) (tag : W32) (status : Status) (words : List W64)
  /-- The value of a window read by application cores of a partition. -/
  | load (p : Nat) (value : W64)
  /-- CHALLENGE and ACCEPTED of R399. -/
  | challenge (n qp : Nat) (sig : List Byte)
  | accepted (session : Nat)
  | authFailed (status : Status)
  /-- A message of R325 to another package or die. -/
  | msg (pkg : Nat) (type : Nat) (h : Head) (data : List Byte)
  | ctrl (pkg : Nat) (m : CtrlMsg)
  /-- A member's report in a setup round, to the package of the system root (R330). -/
  | collReport (pkg job group : Nat) (r : CollReport)
  | abortMsg (pkg job group seq : Nat)
  | poisonMsg (pkg job group seq chunk step : Nat)
  /-- A link frame on a port, as its bytes (R323). -/
  | frame (port : Nat) (bytes : List Byte)
  /-- The mode of a collective, from the system root to a member package (R333). -/
  | collMode (pkg job group seq : Nat) (inNet : Bool)
  /-- Partials of a norm reduction, to the package of its root (R310). -/
  | normPart (pkg job : Nat) (partials : List (Nat × Nat × W32))
  /-- S, c, NONFINITE and the tick of the root of a norm reduction (R311). -/
  | normDone (pkg job : Nat) (s c : W32) (nonfinite : Bool) (tick : Nat)
  /-- A pulse of TKSYNC_OUT: width in ns (R461). -/
  | pulse (widthNs : Nat)
  /-- An IEEE 1588 Delay_Req sent (R27). -/
  | delayReq (stampNs : Nat)
  /-- An answer to ARP or neighbour solicitation (R367). -/
  | neighbor (port : Nat) (mac : BitVec 48)
  /-- The scan-covered pins as driven or high-impedance (R465). -/
  | pins (value : Option (BitVec 64))
  /-- A post of firmware or software that found no credit (R40): NO_CREDIT, and the queue: 0 the RUN_LIST queue of cluster
  `index`, 1 the request intake FIFO, 2 the annotation FIFO of partition `index`. -/
  | postRefused (status : Status) (queue index : Nat)
  /-- A record of an experience ring of a job on another package: job, ring, record (log 26). -/
  | expRecord (job ring : Nat) (rec8 : Card)
  /-- The ACK of a request record whose job has no output ring: partition, identifier, status, CLIENT_TAG (log 103). -/
  | requestAck (p id : Nat) (status : Status) (tag : W64)
  /-- Interrupt of nothing: a flash device programmed (R405). -/
  | flashed (device : Nat)
deriving DecidableEq, Repr

/-- What a requester's wide read has latched (R425): register offset, value. -/
structure Snapshot where
  who : Who
  offset : Nat
  words : List W64
deriving DecidableEq, Repr

/-- A hot update pending (R420). -/
structure HotPend where
  component : Nat
  tickAt : Nat
  image : HotImage
deriving DecidableEq, Repr

/-- Fuses and the nonvolatile cells of the package (R2, R91, R397, R458). -/
structure Fuses where
  /-- VV-C64-T rather than VV-C64-A (R1). Reset: fuse, DESIGN CHOICE false (log 3). -/
  codeT : Bool
  /-- Physical units fused off (R2). Reset: fuse, DESIGN CHOICE none (log 3). -/
  fused : List Nat
  /-- DEVICE_ID, 128 bits (R397). Reset: fuse, DESIGN CHOICE 0 (log 3). -/
  deviceId : BitVec 128
  /-- ROOT_HASH[0..3] with their revocation fuses (R397). Reset: fuse, DESIGN CHOICE none (log 3). -/
  rootHash : List (Nat × Bool)
  /-- SECURITY_VERSION, 64 fuses (R397, R447). Reset: fuse, DESIGN CHOICE 0 (log 3). -/
  securityVersion : Nat
  /-- Repair record, at most 2,048 entries: unit, and 64 for retired, else the lane remapped
  (R91). Reset: fuse, DESIGN CHOICE empty (log 3). -/
  repair : List (Nat × Nat)
  /-- Repair-record entries that the last start-up applied (R91, R409 step 1). Reset: 0. -/
  applied : Nat
deriving DecidableEq, Repr

/-- The sticky bits of the package that are not counters' flags, and edge registers (R458, R466). -/
structure Edge where
  /-- Power state of the package (R462). Reset: off. -/
  power : Power
  /-- PWR_GOOD pin (R456). Reset: low. -/
  pwrGood : Bool
  /-- THERM_TRIP_N asserted (R456, R464). Reset: not asserted. -/
  thermTrip : Bool
  /-- RST_N pin (R456): the pull-down holds it low. Reset: low. -/
  rstN : Bool
  /-- PM_SUPPLY.VIN_MV, 16 bits (R458). Reset: 0. -/
  vinMv : Nat
  /-- PM_SUPPLY.IIN_DA, 16 bits (R458). Reset: 0. -/
  iinDa : Nat
  /-- PM_SUPPLY.LOW_INPUT, 1 bit, ST (R458). Reset: 0. -/
  lowInput : Bool
  /-- The nonvolatile cell that PM_SUPPLY.BROWNOUT presents, 1 bit (R458). Reset: recorded, DESIGN CHOICE 0 (log 3). -/
  brownCell : Bool
  /-- PM_SUPPLY.BROWNOUT, 1 bit (R458). Reset: recorded, DESIGN CHOICE 0 (log 3). -/
  brownout : Bool
  /-- JTAG instruction (R465). Reset: BYPASS. -/
  jtag : Jtag
  /-- Boundary-scan register over the single-ended service signals (R465). Reset: DESIGN CHOICE 0 (log 1). -/
  scan : BitVec 64
  /-- The one-bit bypass register (R465). Reset: DESIGN CHOICE 0 (log 1). -/
  bypassBit : Bool
  /-- TKSYNC_OUT pulse width in ns of the current tick (R461). Reset: 0. -/
  pulseNs : Nat
  /-- XSPI0 and XSPI1 contents (R404): none when a device is absent or holds no image. Reset: none. -/
  flash0 : Option BootImage
  flash1 : Option BootImage
deriving DecidableEq, Repr

/-- The code of a component as a private memory holds it: component, version and digest (R409, R413). -/
structure CodeIn where
  component : Nat
  version : Nat
  digest : Nat
deriving DecidableEq, Repr

/-- The private memory of a firmware processor (R413): its size and the code placed in it. What its components keep beside their
code is this model's own fields (log 113). -/
structure Sram where
  bytes : Nat
  code : List CodeIn
deriving DecidableEq, Repr

/-- WN block state (R428). -/
structure WnSt where
  /-- WN_BOOT.STAGE, 4 bits. Reset: 0. -/
  stage : Nat
  /-- WN_BOOT.IMAGE, 1 bit. Reset: 0. -/
  image : Nat
  /-- WN_BOOT.SERVICE, 1 bit. Reset: 0. -/
  service : Bool
  /-- WN_BOOT.PRIMARY_STATUS and RECOVERY_STATUS, 16 bits each. Reset: 0x0000. -/
  primary : Status
  recovery : Status
  /-- WN_BOOT.BUILD, 32 bits. Reset: 0. -/
  build : BitVec 32
  /-- WN_PKG.PKG, 10 bits. Reset: boot. -/
  pkg : Nat
  /-- A WN_PKG write that applies at the next boundary (R428). Reset: none. -/
  pkgNext : Option Nat
  /-- WN_COMPONENT[1..9] (R428). Reset: RUNNING, versions boot. -/
  comps : Tab Comp
  /-- Control cores whose CLUSTER component restarts or has failed: core, faults, state (R417, R418). Reset: none. -/
  cores : Tab Comp
  /-- WN_HOT_STATUS.LAST, 16 bits. Reset: 0. -/
  hotLast : Status
  /-- The pending hot update (R420). Reset: none. -/
  hot : Option HotPend
  /-- WN_LOG[i].LEVEL_MAX, 3 bits. Reset: 2. -/
  logLevel : Tab Nat
  /-- WN_LOG[i].WRITE_SEQ, 32 bits. Reset: 0. -/
  logSeq : Tab Nat
  /-- WN_TRACE_EN, 1,024 × 64 bits. Reset: 0. -/
  traceEn : Tab W64
  /-- WN_TRACE_SEQ, 32 bits. Reset: 0. -/
  traceSeq : Nat
  /-- PT_REQ_STATUS, AG_REQ_STATUS, HZ_CTRL_STATUS, CK_MAINT_STATUS, WN_DISCARD_LAST and SC_ATTEST_STATUS of package
  sessions. Reset: 0. -/
  ptLast : Status
  agLast : Status
  hzLast : Status
  maintLast : Status
  attestLast : Status
  discard : Nat × Nat × Nat
  /-- WN_JOB_SUBMIT of the package view, with the tick of its write, and WN_JOB_STATUS (R428, R435). Reset: none, 0. -/
  submit : Option (W64 × Nat)
  jobStatus : Status × Nat × Nat
  /-- Wide-register snapshots by requester (R425). Reset: none. -/
  snaps : List Snapshot
  /-- Boot image in force: security version, hash, keys (R406, R407). Reset: none. -/
  bootImage : Option BootImage
  /-- Private SRAM of the security core, the power-management core, the scheduler core and of each cluster control core (R413).
  Reset: 1 MiB, 512 KiB, 8 MiB and 64 KiB without code. -/
  srams : List Sram
deriving DecidableEq, Repr

/-- Security core state (R397 to R400). -/
structure ScSt where
  /-- Open sessions, at most 64 (R399). Reset: none. -/
  sessions : Tab Sess
  /-- Challenges given and not proved: key index. Reset: none. -/
  opening : List Nat
  /-- Consecutive failures on the port, and the lock (R399). Reset: 0, false. -/
  failures : Nat
  authLocked : Bool
  /-- Draws taken from the entropy source. Reset: 0. -/
  draws : Nat
  /-- Attestation queue: share (0–15 partition, 16 package), buffer rim die, address, nonce (R400). Reset: empty. -/
  attest : List (Nat × Nat × Nat × List Byte)
deriving DecidableEq, Repr

/-- Partition block state (R386 to R394). -/
structure PtSt where
  /-- The partition table, 16 × 1,024 bits. Reset: boot. -/
  table : Tab (BitVec 1024)
  /-- The channel table, 128 × 8 bits. Reset: boot. -/
  chans : BitVec 1024
  /-- PT_STAGE[p], 16 × 1,024 bits. Reset: 0. -/
  stage : Tab (BitVec 1024)
  /-- PT_STAGE_CHANNELS, 1,024 bits. Reset: 0. -/
  stageChans : BitVec 1024
  /-- A change named and not yet applied (R392). Reset: none. -/
  change : Option PtChange
  /-- Open GRANTs: rim die, region, partition, tick (R393). Reset: none. -/
  open_ : List (Nat × Nat × Nat × Nat)
  /-- Grant bits to set or clear at the next boundary: rim die, region, partition, set, and the view that asked (R393).
  Reset: none. -/
  due : List (Nat × Nat × Nat × Bool × Nat)
deriving DecidableEq, Repr

/-- Power-management state (R444, R451). -/
structure PmSt where
  /-- PM_DIE[d].TEMP_C, 8 bits. Reset: 0. -/
  temp : Tab Nat
  /-- PM_DIE[d].TEMP_PEAK, 8 bits; since power-on reset. Reset: 0. -/
  peak : Tab Nat
  /-- PM_DIE[d].NIGHT: dies at Night. Reset: none reported, 0. -/
  night : List Nat
  /-- PM_DIE[d].PGOOD: dies whose supplies are good. Reset: 0. -/
  pgood : List Nat
  /-- PM_THROTTLE.LEVEL, 3 bits. Reset: 0. -/
  level : Nat
  /-- PM_THROTTLE.SOURCE_LEVEL, 3 bits. Reset: 0. -/
  sourceLevel : Nat
  /-- PM_THROTTLE.CAUSE, 3 bits. Reset: 0. -/
  cause : Nat
  /-- PM_THROTTLE.INPUT_W, 16 bits. Reset: 0. -/
  inputW : Nat
  /-- PM_THROTTLE.JUNCTION_MAX, 8 bits. Reset: 0. -/
  junctionMax : Nat
  /-- Input power of the last 16 boundaries (R444). Reset: none. -/
  inputs : List Nat
  /-- Ticks since the last rise, and consecutive cool ticks (R444). Reset: 16, 0. -/
  sinceRise : Nat
  cool : Nat
deriving DecidableEq, Repr

/-- Memory-tier block state (R183). -/
structure MtSt where
  /-- MT_CAPS.DATA_RATE, 6 bits. Reset: boot. -/
  dataRate : Nat
  /-- MT_CAPS.RETRAIN_PERIOD, 20 bits. Reset: boot. -/
  retrainPeriod : Nat
  /-- Channels 0–127. Reset: ACTIVE, 0. -/
  chans : Tab Chan
  /-- Region tables, key 256 × RD + i. Reset: no entry VALID. -/
  regions : Tab Region
  /-- MT_ERR_LAST: channel, kind, tick, symbol, line. Reset: 0. -/
  errLast : Nat × Nat × Nat × Nat × Nat
  /-- Lines with POISON set, by line key (R178). Reset: none. -/
  poison : List Nat
deriving DecidableEq, Repr

/-- Generation and KV block state, package-wide (R195 to R225). -/
structure GenBlock where
  /-- Tenant table, 4,096 entries. Reset: boot (BALANCE, VALID included). -/
  tenants : Tab Tenant
  /-- Tenant writes that apply at the next boundary (R195). Reset: none. -/
  tenantDue : List (Nat × BitVec 128)
  /-- SM_LAT_WINDOW.TICKS, 16 bits. Reset: boot. -/
  latWindow : Nat
  /-- The window that ends at this boundary has been closed (R200). Reset: false. -/
  latDone : Bool
  /-- Live requests, in latch order. Reset: none. -/
  reqs : List Req
  /-- KV page descriptors, 4,194,304. Reset: FREE. -/
  pages : Tab Page
  /-- Prefix-tree nodes, 4,194,304. Reset: not VALID. -/
  nodes : Tab Node
  /-- Bucket heads of the prefix tree, key 2^23 × partition + bucket (R219). Reset: none. -/
  buckets : Tab Nat
  /-- Where a partition's descriptors, page maps, nodes and bucket array lie: partition, package channel, base, bytes (R216,
  R219, log 102). Reset: none. -/
  tables : List (Nat × Nat × Nat × Nat)
deriving DecidableEq, Repr

/-- Contrail, learning and Afterglow block state, package-wide. -/
structure LearnBlock where
  /-- CT_CTX[0..255]. Reset: not VALID. -/
  ctxs : Tab Ctx
  /-- CT_LIB[p][i], key 64 × p + i. Reset: not VALID. -/
  libs : Tab Lib
  /-- CT_LIB[p][i].USES_OVF, by key 64 × p + i, ST (R259). Reset: none. -/
  libOvf : List Nat
  /-- Stratus directories: key (32 × die + cluster) × 64 + slot, frames lowest first (R272). Reset: empty. -/
  stratus : Tab (List FrameEnt)
  /-- MT_STRATUS[d] peaks: FRAMES_PEAK, BYTES_PEAK (R293). Reset: 0. -/
  stratusPeak : Tab (Nat × Nat)
  /-- CT_EXP[0..255] (R293). Reset: not VALID. -/
  rings : Tab ExpRing
  /-- AG_JOB[0..255] (R364). Reset: not VALID. -/
  ags : Tab AgCtx
deriving DecidableEq, Repr

/-- A tile transfer under way inside the package: the die it comes from, its head and its lines (R127, R317). -/
structure Transit where
  src : Nat
  head : Head
  data : List Byte
deriving DecidableEq, Repr

/-- A message to another package that waits for an UP port or for credits (R320, R324): its package, the dies it goes
between, its lane, its flits that are left, and what it is. -/
structure Waiting where
  pkg : Nat
  src : Nat
  dst : Nat
  lane : Nat
  flits : List (List Byte)
  out : Out
deriving DecidableEq, Repr

/-- Squall block state (R315 to R338). -/
structure SqSt where
  /-- SQ_PORT[0..255]. Reset: UNBOUND; fields boot. -/
  ports : Tab Port
  /-- Collectives in flight. Reset: none. -/
  colls : List Coll
  /-- Reduction contexts and pages held: rim die, partition, pages (R332). Reset: none. -/
  ctxs : List (Nat × Nat × Nat)
  /-- Tile transfers under way inside the package (R127). Reset: none. -/
  tiles : List Transit
deriving DecidableEq, Repr

/-- The state of the package. -/
structure State where
  /-- Commands that wait, first in, first out. Reset: empty. -/
  pending : List Instr
  /-- The model's own counter of free values taken (log 8). Reset: DESIGN CHOICE 0 (log 8). -/
  free : Nat
  /-- What has left the package, oldest first: the model's own record (log 9). Reset: DESIGN CHOICE empty (log 9). -/
  out : List Out
  /-- All byte stores (tiers 0 to 2, scale stores, instruction memories, package region), canonical (06). Reset: every
  byte reads 0 (log 4). -/
  mem : List Host.Cell
  /-- 64-bit statistics counters, key 4,096 × counter + index (R447). Reset: 0. -/
  ctrs : Tab Nat
  /-- Sticky overflow flags of the counters, by key, ST (R12, R447). Reset: 0. -/
  ovfs : List Nat
  fuses : Fuses
  edge : Edge
  tk : TickSt
  /-- Physical units 0–14,335, those that differ from reset. -/
  units : Tab UnitSt
  /-- Clusters 0–1,791, those that differ from reset. -/
  clusters : Tab Cluster
  /-- CK_REPAIR.FULL, 1 bit, ST (R99). Reset: 0. -/
  repairFull : Bool
  /-- Maintenance requests, in order of arrival (R98). Reset: none. -/
  maint : List MaintReq
  /-- Units whose refill has started and not ended, in the order of their start (R94). Reset: none. -/
  refills : List Nat
  mt : MtSt
  gen : GenBlock
  lrn : LearnBlock
  sq : SqSt
  /-- Streams 0–4,095 (R369). -/
  streams : Tab Stream
  /-- Messages to other packages that wait for an UP port or for credits, oldest first (R320, R324). -/
  waiting : List Waiting
  /-- Environment ports 0–15 (R367). -/
  envPorts : Tab EnvPort
  pt : PtSt
  /-- Partitions' own queues and statuses, key 0–15. -/
  parts : Tab PartSt
  /-- Live jobs by handle (R395). Reset: none. -/
  jobs : Tab Job
  sc : ScSt
  wn : WnSt
  pm : PmSt
deriving DecidableEq, Repr

/-! ## Reset -/

/-- The tick block before start-up: boot fields hold 0 until the image supplies them (log 2). -/
def TickSt.reset : TickSt :=
  { cfg := ⟨0, 0, 0⟩, next := ⟨0, 0, 0⟩, applyAt := 0, pending := none, applyRejected := false, applyStatus := .ok,
    tick := 0, started := false, tickOvf := false, locked := false, syncLost := false, role := 0, cableDelayNs := 0,
    lockLimitNs := 0, offsetNs := 0, carryNs := 0, missedEdges := 0, ptpValid := false, ptpOffset := 0, ptpDelay := 0,
    ptpSync := none, ptpReq := none, phase := .boundary, startNs := 0, lenNs := 0, slewNs := 0, timeLost := false, numbered := false }

/-- The state of the package at its first power-on, before VIN rises: R14's reset values; "boot" fields read 0 until
START_UP (log 2); "fuse" fields as log 3 says. -/
def State.reset : State :=
  { pending := [], free := 0, out := [], mem := [], ctrs := [], ovfs := [],
    fuses := { codeT := false, fused := [], deviceId := 0#128, rootHash := [], securityVersion := 0, repair := [], applied := 0 },
    edge := { power := .off, pwrGood := false, thermTrip := false, rstN := false, vinMv := 0,
              iinDa := 0, lowInput := false, brownCell := false, brownout := false, jtag := .bypass, scan := 0#64,
              bypassBit := false, pulseNs := 0, flash0 := none, flash1 := none },
    tk := TickSt.reset, units := [], clusters := [], repairFull := false, maint := [],
    refills := [],
    mt := { dataRate := 0, retrainPeriod := 0, chans := [], regions := [], errLast := (0, 0, 0, 0, 0), poison := [] },
    gen := { tenants := [], tenantDue := [], latWindow := 0, latDone := false, reqs := [], pages := [], nodes := [],
             buckets := [], tables := [] },
    lrn := { ctxs := [], libs := [], libOvf := [], stratus := [], stratusPeak := [], rings := [], ags := [] },
    sq := { ports := [], colls := [], ctxs := [], tiles := [] }, streams := [], waiting := [], envPorts := [],
    pt := { table := [], chans := 0#1024, stage := [], stageChans := 0#1024, change := none, open_ := [], due := [] },
    parts := [], jobs := [],
    sc := { sessions := [], opening := [], failures := 0, authLocked := false, draws := 0, attest := [] },
    wn := { stage := 0, image := 0, service := false, primary := .ok, recovery := .ok, build := 0#32, pkg := 0,
            pkgNext := none, comps := [], cores := [], hotLast := .ok, hot := none, logLevel := [], logSeq := [],
            traceEn := [], traceSeq := 0, ptLast := .ok, agLast := .ok, hzLast := .ok, maintLast := .ok,
            attestLast := .ok, discard := (0, 0, 0), submit := none, jobStatus := (.ok, 0, 0), snaps := [], bootImage := none,
            srams := [⟨1048576, []⟩, ⟨524288, []⟩, ⟨8388608, []⟩, ⟨65536, []⟩] },
    pm := { temp := [], peak := [], night := [], pgood := [], level := 0, sourceLevel := 0, cause := 0, inputW := 0,
            junctionMax := 0, inputs := [], sinceRise := 16, cool := 0 } }

end Sys2Proof.Machine
end

