-- ==== Sys2Proof/Machine/Tab.lean ====
section
/-!
DEFINITION. Operations on sparse tables: lists of (key, value) with keys strictly rising. A table kept against a
default lists no entry equal to the default, so equal tables are equal data.
-/

namespace Sys2Proof.Machine

/-- The entry at a key. -/
def tabFind {α : Type} (k : Nat) : Tab α → Option α
  | [] => none
  | (j, v) :: t => if j = k then some v else tabFind k t

/-- The value at a key, or the default. -/
def tabGet {α : Type} (d : α) (t : Tab α) (k : Nat) : α :=
  (tabFind k t).getD d

/-- Puts a value at a key. -/
def tabIns {α : Type} (k : Nat) (v : α) : Tab α → Tab α
  | [] => [(k, v)]
  | (j, w) :: t => if k < j then (k, v) :: (j, w) :: t else if k = j then (k, v) :: t else (j, w) :: tabIns k v t

/-- Removes every entry of a key. -/
def tabDel {α : Type} (k : Nat) : Tab α → Tab α
  | [] => []
  | (j, w) :: t => if j = k then tabDel k t else (j, w) :: tabDel k t

/-- Puts a value into a table kept against the default `d`: writing the default removes the entry. -/
def tabSet {α : Type} [DecidableEq α] (d : α) (t : Tab α) (k : Nat) (v : α) : Tab α :=
  if v = d then tabDel k t else tabIns k v t

/-- Changes every entry. -/
def tabMap {α : Type} (f : Nat → α → α) (t : Tab α) : Tab α :=
  t.map fun e => (e.1, f e.1 e.2)

/-- Keys are strictly rising, the first above `lo` where one is given. -/
def tabSorted {α : Type} : Option Nat → Tab α → Bool
  | _, [] => true
  | none, (k, _) :: t => tabSorted (some k) t
  | some j, (k, _) :: t => decide (j < k) && tabSorted (some k) t

/-- The canonical form of a table against a default: keys strictly rising and no entry equal to the default. -/
def tabCanon {α : Type} [DecidableEq α] (d : α) (t : Tab α) : Bool :=
  tabSorted none t && t.all fun e => decide (e.2 ≠ d)

/-- Sorted insertion of a number, without repeats. -/
def setIns (k : Nat) : List Nat → List Nat
  | [] => [k]
  | j :: t => if k < j then k :: j :: t else if k = j then j :: t else j :: setIns k t

end Sys2Proof.Machine
end

