-- ==== Sys2Proof/Machine/Mem.lean ====
section
/-!
DEFINITION. The byte stores of the package as one canonical list of cells (R46, R102, R119, R157): a flat key space with
a window for each store. Every byte that nothing has written reads 0: start-up zeroes pools, lane stores and owned
channels (R409), teardown zeroes them again (R103, R167).
-/

namespace Sys2Proof.Machine

/-- What an unlisted byte reads as (log 4). -/
def memDefault : Byte := 0#8

/-- Key of byte `off` of physical lane `lane` of physical unit `u` (R46, R158). -/
def laneKey (u lane off : Nat) : Nat := u * 0x4000000 + lane * 0x80000 + off

/-- Key of byte `off` of the scale store of a lane (R46, R51). -/
def scaleKey (u lane off : Nat) : Nat := 0x10000000000 + u * 0x100000 + lane * 0x2000 + off

/-- Key of byte `off` of the pool of cluster `cl` (R102). -/
def poolKey (cl off : Nat) : Nat := 0x20000000000 + cl * 0x400000 + off

/-- Key of byte `off` of the vector instruction memory of cluster `cl` (R119). -/
def imemKey (cl off : Nat) : Nat := 0x40000000000 + cl * 0x10000 + off

/-- Key of byte `off` of package channel `ch` (R161). -/
def chanKey (ch off : Nat) : Nat := 0x80000000000 + ch * 0x400000000 + off

/-- One byte. -/
def memByte (m : List Host.Cell) (k : Nat) : Byte := tabGet memDefault m k

/-- Writes one byte; the canonical form is kept. -/
def memPut (m : List Host.Cell) (k : Nat) (b : Byte) : List Host.Cell := tabSet memDefault m k b

/-- `n` bytes from a key on. -/
def memBytes (m : List Host.Cell) (k n : Nat) : List Byte := (List.range n).map fun i => memByte m (k + i)

/-- Writes (key, byte) pairs in order. -/
def memPuts (m : List Host.Cell) (ws : List (Nat × Byte)) : List Host.Cell :=
  ws.foldl (fun m w => memPut m w.1 w.2) m

/-- The writes that put bytes at consecutive keys. -/
def bytesAt : Nat → List Byte → List (Nat × Byte)
  | _, [] => []
  | k, b :: bs => (k, b) :: bytesAt (k + 1) bs

/-- Zeroes `n` bytes from a key on. -/
def memZero (m : List Host.Cell) (k n : Nat) : List Host.Cell := m.filter fun c => !(decide (k ≤ c.1) && decide (c.1 < k + n))

/-- Little-endian value of bytes (R10). -/
def leNat : List Byte → Nat
  | [] => 0
  | b :: bs => b.toNat + 256 * leNat bs

/-- The `n` little-endian bytes of a number (R10). -/
def leBytes : Nat → Nat → List Byte
  | 0, _ => []
  | n + 1, v => BitVec.ofNat 8 v :: leBytes n (v / 256)

/-- Little-endian number of `n` bytes at a key. -/
def memNat (m : List Host.Cell) (k n : Nat) : Nat := leNat (memBytes m k n)

/-- FP32 code at a key. -/
def memW32 (m : List Host.Cell) (k : Nat) : W32 := BitVec.ofNat 32 (memNat m k 4)

/-- 64-bit word at a key. -/
def memW64 (m : List Host.Cell) (k : Nat) : W64 := BitVec.ofNat 64 (memNat m k 8)

/-- Bytes of 32-bit words. -/
def w32Bytes (ws : List W32) : List Byte := ws.flatMap fun w => leBytes 4 w.toNat

/-- Bytes of 64-bit words. -/
def w64Bytes (ws : List W64) : List Byte := ws.flatMap fun w => leBytes 8 w.toNat

/-- 32-bit words of bytes. -/
def w32sOf (m : List Host.Cell) (k n : Nat) : List W32 := (List.range n).map fun i => memW32 m (k + 4 * i)

/-- The canonical form of the memory. -/
def Memory.wf (m : List Host.Cell) : Bool := tabCanon memDefault m

/-- Bits [hi:lo] of a word (R10). -/
def fld (w : W64) (hi lo : Nat) : Nat := w.toNat / 2 ^ lo % 2 ^ (hi - lo + 1)

/-- One bit of a word. -/
def flag (w : W64) (i : Nat) : Bool := w.toNat / 2 ^ i % 2 == 1

/-- The words of a card (R109). -/
def cardWord (c : Card) : Nat → W64
  | 0 => c.w0
  | 1 => c.w1
  | 2 => c.w2
  | 3 => c.w3
  | 4 => c.w4
  | 5 => c.w5
  | 6 => c.w6
  | _ => c.w7

/-- A card read from 64 bytes of memory (R109). -/
def cardAt (m : List Host.Cell) (k : Nat) : Card :=
  ⟨memW64 m k, memW64 m (k + 8), memW64 m (k + 16), memW64 m (k + 24), memW64 m (k + 32), memW64 m (k + 40),
   memW64 m (k + 48), memW64 m (k + 56)⟩

/-- The words of a card in order. -/
def cardWords (c : Card) : List W64 := [c.w0, c.w1, c.w2, c.w3, c.w4, c.w5, c.w6, c.w7]

/-- Bytes `off` to `off + n` of a list, zero beyond its end. -/
def sliceZ (l : List Byte) (off n : Nat) : List Byte :=
  let x := (l.drop off).take n
  x ++ List.replicate (n - x.length) 0#8

/-- CRC-32C (Castagnoli, reflected polynomial 0x82F63B78) of bytes, as the records of R244, R325 and R348 use it. -/
def crc32cByte (crc : Nat) (b : Nat) : Nat :=
  let step := fun (c : Nat) => if c % 2 == 1 then (c / 2) ^^^ 0x82F63B78 else c / 2
  step (step (step (step (step (step (step (step (crc ^^^ b))))))))

/-- CRC-32C of a byte string. -/
def crc32c (bs : List Byte) : W32 :=
  BitVec.ofNat 32 (bs.foldl (fun c b => crc32cByte c b.toNat) 0xFFFFFFFF ^^^ 0xFFFFFFFF)

end Sys2Proof.Machine
end

