-- ==== Sys2Proof/Machine/Num.lean ====
section
/-!
DEFINITION. Numbers (R49 to R60, R124, R126, R148, R149, R151): exact values, the eight formats, the roundings, and the
FP32 operations every engine shares. Every operation forms an exact value and rounds it once.
-/

namespace Sys2Proof.Machine

/-! ## Counters that wrap at 2^64 (R447) -/

/-- The value after `a`. -/
def next64 (a : Nat) : Nat := (a + 1) % 2 ^ 64

/-- Steps from `b` up to `a`. -/
def ago64 (a b : Nat) : Nat := (a + 2 ^ 64 - b % 2 ^ 64) % 2 ^ 64

/-- An exact value: NaN, an infinity, or ± m × 2^e. -/
inductive Val where
  | nan
  | inf (neg : Bool)
  | fin (neg : Bool) (m : Nat) (e : Int)
deriving DecidableEq, Repr

/-- 2^i for an integer that is at least 0, 1 below it. -/
def pow2 (i : Int) : Nat := 2 ^ i.toNat

/-- Exact sum; a zero sum is +0 unless both terms are −0 (R54, R55). -/
def Val.add : Val → Val → Val
  | .nan, _ => .nan
  | _, .nan => .nan
  | .inf a, .inf b => if a = b then .inf a else .nan
  | .inf a, _ => .inf a
  | _, .inf b => .inf b
  | .fin sa ma ea, .fin sb mb eb =>
    let e := min ea eb
    let a := ma * pow2 (ea - e)
    let b := mb * pow2 (eb - e)
    if sa = sb then .fin sa (a + b) e
    else if b < a then .fin sa (a - b) e
    else if a < b then .fin sb (b - a) e
    else .fin false 0 e

/-- Exact product; infinity × 0 is NaN (R55). -/
def Val.mul : Val → Val → Val
  | .nan, _ => .nan
  | _, .nan => .nan
  | .inf a, .inf b => .inf (xor a b)
  | .inf a, .fin sb mb _ => if mb = 0 then .nan else .inf (xor a sb)
  | .fin sa ma _, .inf b => if ma = 0 then .nan else .inf (xor sa b)
  | .fin sa ma ea, .fin sb mb eb => .fin (xor sa sb) (ma * mb) (ea + eb)

/-- The value with the other sign. -/
def Val.neg : Val → Val
  | .nan => .nan
  | .inf s => .inf (!s)
  | .fin s m e => .fin (!s) m e

/-- The magnitude. -/
def Val.abs : Val → Val
  | .nan => .nan
  | .inf _ => .inf false
  | .fin _ m e => .fin false m e

/-- Whether the value is NaN. -/
def Val.isNan : Val → Bool
  | .nan => true
  | _ => false

/-- Whether the value is finite. -/
def Val.isFin : Val → Bool
  | .fin _ _ _ => true
  | _ => false

/-- a < b; false with a NaN. -/
def Val.lt : Val → Val → Bool
  | .nan, _ => false
  | _, .nan => false
  | .inf a, .inf b => a && !b
  | .inf a, _ => a
  | _, .inf b => !b
  | .fin sa ma ea, .fin sb mb eb =>
    let e := min ea eb
    let a := ma * pow2 (ea - e)
    let b := mb * pow2 (eb - e)
    if sa && sb then decide (b < a)
    else if sa then decide (0 < a + b)
    else if sb then false
    else decide (a < b)

/-- a ≤ b; false with a NaN. -/
def Val.le (a b : Val) : Bool := !a.isNan && !b.isNan && !(Val.lt b a)

/-- Unbiased exponent of a finite value, −126 for zeros and anything below 2^−126 (R83). -/
def Val.peakExp : Val → Int
  | .fin _ m e => if m = 0 then -126 else max (-126) (e + (Nat.log2 m : Int))
  | _ => 128

/-! ## Formats -/

/-- Width in bits of an element of a format code (R49). -/
def fmtWidth : Nat → Nat
  | 0 => 4
  | 1 => 4
  | 2 => 8
  | 3 => 8
  | 4 => 8
  | 5 => 16
  | 6 => 16
  | _ => 32

/-- An IEEE-shaped code of `eb` exponent bits and `mb` fraction bits; subnormals honoured, all-ones exponent special. -/
def decIeee (eb mb : Nat) (w : Nat) : Val :=
  let s := w / 2 ^ (eb + mb) % 2 == 1
  let e := w / 2 ^ mb % 2 ^ eb
  let f := w % 2 ^ mb
  let bias : Int := 2 ^ (eb - 1) - 1
  if e = 2 ^ eb - 1 then (if f = 0 then .inf s else .nan)
  else if e = 0 then .fin s f (1 - bias - mb)
  else .fin s (2 ^ mb + f) (e - bias - mb)

/-- Two's complement of `n` bits as a value; zero is +0. -/
def decInt (n w : Nat) : Val :=
  if w < 2 ^ (n - 1) then .fin false w 0 else .fin true (2 ^ n - w) 0

/-- The exact value of an element code of a format (R50, R52): INT8 and BI4 as integers, a BF16 exponent field of 0 as
zero of the same sign. -/
def decElem (fmt w : Nat) : Val :=
  match fmt with
  | 0 =>
    let s := w / 8 % 2 == 1
    let e := w / 2 % 4
    if e = 0 then .fin s (w % 2) (-1) else .fin s (2 + w % 2) ((e : Int) - 2)
  | 1 => decInt 4 w
  | 2 =>
    let s := w / 128 % 2 == 1
    let e := w / 8 % 16
    let f := w % 8
    if w % 128 = 127 then .nan
    else if e = 0 then .fin s f (-9)
    else .fin s (8 + f) ((e : Int) - 10)
  | 3 => decIeee 5 2 w
  | 4 => decInt 8 w
  | 5 => if w / 128 % 256 = 0 then .fin (w / 32768 % 2 == 1) 0 0 else decIeee 8 7 w
  | 6 => decIeee 5 10 w
  | _ => decIeee 8 23 w

/-- FP32 code as a value. -/
def val32 (w : W32) : Val := decIeee 8 23 w.toNat

/-- The canonical NaN (R55). -/
def nan32 : W32 := 0x7FC00000#32

/-- How a discarded fraction is resolved. -/
inductive Rnd where
  /-- Round to nearest, ties to even. -/
  | rne
  /-- The one-bit lane rule (R148) with bit 31 of the draw. -/
  | oneBit (b : Bool)
  /-- The full-width rule (R149) with the word drawn. -/
  | full (y : W32)
  /-- Toward zero. -/
  | zero
deriving DecidableEq, Repr

/-- Rounds the non-negative number n / d, d > 0, to an integer. -/
def roundRatio (r : Rnd) (n d : Nat) : Nat :=
  let q := n / d
  let f := n % d
  match r with
  | .rne => if d < 2 * f ∨ (2 * f = d ∧ q % 2 = 1) then q + 1 else q
  | .oneBit b => if 4 * f < d then q else if 3 * d < 4 * f then q + 1 else if b then q + 1 else q
  | .full y =>
    let dd := d / Nat.gcd f d
    let k := if dd = 2 ^ Nat.log2 dd then min 32 (Nat.log2 dd) else 32
    if 2 ^ k ≤ f * 2 ^ k / d + y.toNat / 2 ^ (32 - k) then q + 1 else q
  | .zero => q

/-- A positive number n / d × 2^e. -/
structure Mag where
  n : Nat
  d : Nat
  e : Int
deriving DecidableEq, Repr

/-- ⌊log₂⌋ of a positive magnitude. -/
def Mag.log (x : Mag) : Int :=
  let l : Int := (Nat.log2 x.n : Int) - Nat.log2 x.d
  if pow2 l * x.d ≤ x.n * pow2 (-l) then x.e + l else x.e + l - 1

/-- Rounds a magnitude to a count of units of 2^u. -/
def Mag.count (x : Mag) (r : Rnd) (u : Int) : Nat :=
  roundRatio r (x.n * pow2 (x.e - u)) (x.d * pow2 (u - x.e))

/-- Rounds a positive magnitude to `p` bits with the last place no lower than `qmin`: (count, unit exponent). -/
def Mag.round (x : Mag) (r : Rnd) (p : Nat) (qmin : Int) : Nat × Int :=
  let u := max (x.log - p + 1) qmin
  (x.count r u, u)

/-- The code of ± c × 2^u, exactly representable with `eb` exponent bits and `mb` fraction bits and bias `bias`. -/
def encParts (eb mb : Nat) (bias : Int) (s : Bool) (c : Nat) (u : Int) : Nat :=
  let sg := if s then 2 ^ (eb + mb) else 0
  if c = 0 then sg
  else
    let l := Nat.log2 c
    let x := u + (l : Int)
    if 1 - bias ≤ x then sg + (x + bias).toNat * 2 ^ mb + (c * 2 ^ mb / 2 ^ l) % 2 ^ mb
    else sg + c * pow2 (u - (1 - bias - mb)) / pow2 ((1 - bias - mb) - u)

/-- Rounds a magnitude with a sign to FP32: the code, and whether it overflowed to infinity (R55). -/
def mag32 (r : Rnd) (s : Bool) (x : Mag) : W32 × Bool :=
  if x.n = 0 then (BitVec.ofNat 32 (if s then 2 ^ 31 else 0), false)
  else
    let (c, u) := x.round r 24 (-149)
    if 128 ≤ u + (Nat.log2 c : Int) ∧ c ≠ 0 then (BitVec.ofNat 32 (0x7F800000 + if s then 2 ^ 31 else 0), true)
    else (BitVec.ofNat 32 (encParts 8 23 127 s c u), false)

/-- Rounds an exact value once to FP32, nearest even (R54, R55): the code and the overflow flag. -/
def round32 : Val → W32 × Bool
  | .nan => (nan32, false)
  | .inf s => (BitVec.ofNat 32 (0x7F800000 + if s then 2 ^ 31 else 0), false)
  | .fin s m e => mag32 .rne s ⟨m, 1, e⟩

/-- FP32 code of an exact value. -/
def to32 (v : Val) : W32 := (round32 v).1

/-- FP32 sum. -/
def fAdd (a b : W32) : W32 := to32 ((val32 a).add (val32 b))

/-- FP32 difference. -/
def fSub (a b : W32) : W32 := to32 ((val32 a).add (val32 b).neg)

/-- FP32 product. -/
def fMul (a b : W32) : W32 := to32 ((val32 a).mul (val32 b))

/-- FP32 fused multiply-add a × b + c. -/
def fFma (a b c : W32) : W32 := to32 (((val32 a).mul (val32 b)).add (val32 c))

/-- FP32 negation. -/
def fNeg (a : W32) : W32 := a ^^^ 0x80000000#32

/-- Whether an FP32 code is NaN. -/
def fNan (a : W32) : Bool := (val32 a).isNan

/-- Whether an FP32 code is an infinity. -/
def fInf (a : W32) : Bool := a.toNat % 2 ^ 31 == 0x7F800000

/-- Whether an FP32 code is finite. -/
def fFin (a : W32) : Bool := (val32 a).isFin

/-- FP32 a < b. -/
def fLt (a b : W32) : Bool := (val32 a).lt (val32 b)

/-- FP32 a ≤ b. -/
def fLe (a b : W32) : Bool := (val32 a).le (val32 b)

/-- −∞. -/
def negInf32 : W32 := 0xFF800000#32

/-- The FP32 value of a natural number, nearest even. -/
def fOfNat (n : Nat) : W32 := to32 (.fin false n 0)

/-- The FP32 value of an integer, nearest even. -/
def fOfInt (i : Int) : W32 := to32 (.fin (decide (i < 0)) i.natAbs 0)

/-- The larger of two FP32 values; a NaN on either side gives the canonical NaN. -/
def fMax (a b : W32) : W32 := if fNan a || fNan b then nan32 else if fLt a b then b else a

/-- FP32 quotient, nearest even. -/
def fDiv (a b : W32) : W32 :=
  match val32 a, val32 b with
  | .nan, _ => nan32
  | _, .nan => nan32
  | .inf _, .inf _ => nan32
  | .inf s, .fin t _ _ => to32 (.inf (xor s t))
  | .fin s _ _, .inf t => to32 (.fin (xor s t) 0 0)
  | .fin s m e, .fin t n f =>
    if n = 0 then (if m = 0 then nan32 else to32 (.inf (xor s t)))
    else (mag32 .rne (xor s t) ⟨m, n, e - f⟩).1

/-- Flushes an FP32 result below 2^−126 to zero, keeping its sign (R124). -/
def flush32 (a : W32) : W32 := if a.toNat / 2 ^ 23 % 256 = 0 then BitVec.ofNat 32 (a.toNat / 2 ^ 31 * 2 ^ 31) else a

/-- Correctly rounded reciprocal, 0 below 2^−126 (R124). -/
def fRecip (a : W32) : W32 := flush32 (fDiv 0x3F800000#32 a)

/-- ⌊√n⌋ of a number below 4^fuel, one bit of the root at a time. -/
def isqrtAux (n : Nat) : Nat → Nat → Nat
  | 0, r => r
  | k + 1, r => if (r + 2 ^ k) * (r + 2 ^ k) ≤ n then isqrtAux n k (r + 2 ^ k) else isqrtAux n k r

/-- ⌊√n⌋. -/
def isqrt (n : Nat) : Nat := isqrtAux n (Nat.log2 n / 2 + 1) 0

/-- Square root of a positive magnitude to more than 100 bits, with a half unit added where it is not exact, so that
one rounding of it is the correct one. -/
def Mag.sqrt (x : Mag) : Mag :=
  let odd := x.e % 2 = 1
  let n := if odd then 2 * x.n else x.n
  let e := if odd then x.e - 1 else x.e
  let t := n * 2 ^ 400 / x.d
  let r := isqrt t
  if r * r = t ∧ n * 2 ^ 400 % x.d = 0 then ⟨r, 1, e / 2 - 200⟩ else ⟨2 * r + 1, 1, e / 2 - 201⟩

/-- Correctly rounded square root. -/
def fSqrt (a : W32) : W32 :=
  match val32 a with
  | .nan => nan32
  | .inf s => if s then nan32 else a
  | .fin s m e => if m = 0 then a else if s then nan32 else (mag32 .rne false (Mag.sqrt ⟨m, 1, e⟩)).1

/-- Correctly rounded reciprocal square root, 0 below 2^−126 (R124). -/
def fRsqrt (a : W32) : W32 :=
  match val32 a with
  | .nan => nan32
  | .inf s => if s then nan32 else 0#32
  | .fin s m e =>
    if m = 0 then to32 (.inf s) else if s then nan32 else flush32 (mag32 .rne false (Mag.sqrt ⟨1, m, -e⟩)).1

/-- ⌊ln 2 × 2^256⌋. -/
def ln2Fix : Int := 0xb17217f7d1cf79abc9e3b39803f2f6af40f343267298b62d8a0d175b8baafa2b

/-- Terms of the exponential series in fixed point of 256 bits: sum of r^i / i! from term `t` at index `i` on. -/
def expSeries (r : Int) : Nat → Nat → Int → Int
  | 0, _, t => t
  | k + 1, i, t => t + expSeries r k (i + 1) (t * r / 2 ^ 256 / (i + 1))

/-- Correctly rounded e^x, 0 below 2^−126 (R124). -/
def fExp (a : W32) : W32 :=
  match val32 a with
  | .nan => nan32
  | .inf s => if s then 0#32 else a
  | .fin s m e =>
    if m = 0 then 0x3F800000#32
    else if 8 ≤ e + (Nat.log2 m : Int) then (if s then 0#32 else to32 (.inf false))
    else
      let x : Int := (if s then -1 else 1) * (m * pow2 (e + 256) / pow2 (-(e + 256)) : Nat)
      let k := x / ln2Fix
      let r := x - k * ln2Fix
      flush32 (mag32 .rne false ⟨(expSeries r 64 0 (2 ^ 256)).toNat, 1, k - 256⟩).1

/-! ## Narrowing (R58, R59) -/

/-- The format's fraction bits, exponent bits and bias. -/
def fmtParts : Nat → Nat × Nat × Int
  | 2 => (4, 3, 7)
  | 3 => (5, 2, 15)
  | 5 => (8, 7, 127)
  | 6 => (5, 10, 15)
  | _ => (8, 23, 127)

/-- NaN code of a format (R59). -/
def nanCode : Nat → Nat
  | 2 => 0x7F
  | 3 => 0x7E
  | 5 => 0x7FC0
  | 6 => 0x7E00
  | _ => 0x7FC00000

/-- What an overflow writes: ±448 for E4M3, ±infinity else (R59). -/
def ovfCode (fmt : Nat) (s : Bool) : Nat :=
  let sg := fun (n : Nat) => if s then n else 0
  match fmt with
  | 2 => 0x7E + sg 0x80
  | 3 => 0x7C + sg 0x80
  | 5 => 0x7F80 + sg 0x8000
  | 6 => 0x7C00 + sg 0x8000
  | _ => 0x7F800000 + sg 0x80000000

/-- Whether a rounded magnitude c × 2^u is beyond the largest finite value; E4M3's is 448, and under nearest even its
overflow begins at 464 (R59). -/
def beyond (fmt : Nat) (r : Rnd) (x : Mag) (c : Nat) (u : Int) : Bool :=
  match fmt with
  | 2 => decide (448 * pow2 (-u) < c * pow2 u) || (decide (r = .rne) && decide (464 * x.d * pow2 (-x.e) ≤ x.n * pow2 x.e))
  | 3 => decide (c ≠ 0) && decide (16 ≤ u + (Nat.log2 c : Int))
  | 6 => decide (c ≠ 0) && decide (16 ≤ u + (Nat.log2 c : Int))
  | _ => decide (c ≠ 0) && decide (128 ≤ u + (Nat.log2 c : Int))

/-- Narrows a signed magnitude to BF16, FP16, E4M3, E5M2 or FP32: the code, and whether it overflowed (R59, R60). -/
def narrowMag (fmt : Nat) (r : Rnd) (s : Bool) (x : Mag) : Nat × Bool :=
  let (eb, mb, bias) := fmtParts fmt
  if x.n = 0 then (encParts eb mb bias s 0 0, false)
  else
    let qmin := if fmt = 5 then x.log - 8 else 1 - bias - mb
    let (c, u) := x.round r (mb + 1) qmin
    if beyond fmt r x c u then (ovfCode fmt s, true)
    else if fmt = 5 ∧ u + (Nat.log2 c : Int) < -126 then (encParts eb mb bias s 0 0, false)
    else (encParts eb mb bias s c u, false)

/-- Narrows an FP32 value (R59). -/
def narrow (fmt : Nat) (r : Rnd) (w : W32) : Nat × Bool :=
  if fmt = 7 then (w.toNat, false)
  else match val32 w with
    | .nan => (nanCode fmt, false)
    | .inf s => (ovfCode fmt s, false)
    | .fin s m e => narrowMag fmt r s ⟨m, 1, e⟩

/-- Widens an element code exactly to FP32 (R52, R119, R123). -/
def widen (fmt w : Nat) : W32 := if fmt = 7 then BitVec.ofNat 32 w else to32 (decElem fmt w)

/-- Rounds to a narrow format and widens the result exactly again (R131). -/
def sepRound (fmt : Nat) (r : Rnd) (w : W32) : W32 × Bool :=
  let (c, o) := narrow fmt r w
  (widen fmt c, o)

/-! ## The canonical tree (R56) -/

/-- One level of the canonical tree: neighbours are added, an odd last part passes up unchanged. -/
def pairUp (add : W32 → W32 → W32) : List W32 → List W32
  | a :: b :: t => add a b :: pairUp add t
  | l => l

/-- Levels of the tree, `fuel` at most. -/
def treeLevels (add : W32 → W32 → W32) : Nat → List W32 → List W32
  | 0, l => l
  | k + 1, l => if l.length ≤ 1 then l else treeLevels add k (pairUp add l)

/-- canonical_sum of R56 over parts in logical order; no part gives +0. -/
def canonSum (parts : List W32) : W32 := (treeLevels fAdd 24 parts).headD 0#32

/-- The largest peak exponent of the nodes of the tree over the parts, leaves included (R83). -/
def treePeak : Nat → List W32 → Int
  | 0, l => l.foldl (fun p w => max p (val32 w).peakExp) (-126)
  | k + 1, l =>
    let here := l.foldl (fun p w => max p (val32 w).peakExp) (-126)
    if l.length ≤ 1 then here else max here (treePeak k (pairUp fAdd l))

/-- Whether one level of the tree overflows: a node is infinite, and its two parts are finite (R60). -/
def pairOvf : List W32 → Bool
  | a :: b :: t => (fFin a && fFin b && fInf (fAdd a b)) || pairOvf t
  | _ => false

/-- Whether a node of the tree over the parts overflows (R60). -/
def treeOvf : Nat → List W32 → Bool
  | 0, _ => false
  | k + 1, l => pairOvf l || (decide (1 < l.length) && treeOvf k (pairUp fAdd l))

/-! ## Quantisers (R126) -/

/-- Largest magnitude of FP32 values, as an exact value; NaN or infinity if any value is. -/
def maxAbs : List W32 → Val
  | [] => .fin false 0 0
  | w :: t =>
    let a := (val32 w).abs
    let b := maxAbs t
    if a.isNan || b.isNan then .nan else if Val.lt a b then b else a

/-- The BF4 scale byte of a block: 127 + ⌈log₂(max / 6)⌉ clamped to 0–254; 0 for an all-zero block, 0xFF for a
non-finite one. -/
def bf4Scale (xs : List W32) : Nat :=
  match maxAbs xs with
  | .fin _ m e =>
    if m = 0 then 0
    else
      let q : Mag := ⟨m, 6, e⟩
      let l := q.log
      let up := if q.n * pow2 (q.e - l) = q.d * pow2 (l - q.e) then l else l + 1
      min 254 (127 + up).toNat
  | _ => 0xFF

/-- The BI4 scale code of a block: max / 7 rounded once to FP16, 0x7BFF where that is infinite, 0x7E00 for a non-finite
block. -/
def bi4Scale (xs : List W32) : Nat :=
  match maxAbs xs with
  | .fin _ m e =>
    if m = 0 then 0
    else
      let (c, o) := narrowMag 6 .rne false ⟨m, 7, e⟩
      if o then 0x7BFF else c
  | _ => 0x7E00

/-- An E2M1 code of ± n / d × 2^e, saturating at 6. -/
def e2m1Code (r : Rnd) (s : Bool) (x : Mag) : Nat :=
  let sg := if s then 8 else 0
  if x.n = 0 then sg
  else
    let (c, u) := x.round r 2 (-1)
    if 6 * pow2 (-u) ≤ c * pow2 u then sg + 7 else encParts 2 1 1 s c u

/-- A BF4 element of a block of scale `s` (R126). -/
def bf4Elem (r : Rnd) (scale : Nat) (w : W32) : Nat :=
  match val32 w with
  | .fin s m e => if scale = 0xFF then 0 else e2m1Code r s ⟨m, 1, e - ((scale : Int) - 127)⟩
  | _ => 0

/-- Two's complement code of ± c in `n` bits, clamped. -/
def intCode (n : Nat) (s : Bool) (c : Nat) : Nat :=
  if s then (if c = 0 then 0 else 2 ^ n - min c (2 ^ (n - 1))) else min c (2 ^ (n - 1) - 1)

/-- A BI4 element of a block whose scale has the FP16 code `scale` (R126). -/
def bi4Elem (r : Rnd) (scale : Nat) (w : W32) : Nat :=
  match val32 w, decElem 6 scale with
  | .fin s m e, .fin t n f =>
    if n = 0 then 0 else intCode 4 (xor s t) (Mag.count ⟨m, n, e - f⟩ r 0)
  | _, _ => 0

/-- An INT8 element with the card's SCALE (R126). -/
def int8Elem (r : Rnd) (scale : W32) (w : W32) : Nat :=
  match (val32 w).mul (val32 scale) with
  | .nan => 0
  | .inf s => if s then 128 else 127
  | .fin s m e => intCode 8 s (Mag.count ⟨m, 1, e⟩ r 0)

end Sys2Proof.Machine
end

