-- ==== Sys2Proof/Machine/Flags.lean ====
section
/-!
DEFINITION. The exception flags of a card (R60).
-/

namespace Sys2Proof.Machine

/-- NAN_IN, NAN_GEN and OVF. -/
structure Flags where
  nanIn : Bool
  nanGen : Bool
  ovf : Bool
deriving DecidableEq, Repr

/-- No flag. -/
def Flags.none : Flags := ⟨false, false, false⟩

/-- Either card's flags. -/
def Flags.or (a b : Flags) : Flags := ⟨a.nanIn || b.nanIn, a.nanGen || b.nanGen, a.ovf || b.ovf⟩

/-- Flags of an operation, output by output, each with the FP32 inputs that it is formed from: NaN in, NaN from non-NaN
inputs, and an infinity from finite inputs. -/
def Flags.each (l : List (List W32 × W32)) : Flags :=
  ⟨l.any fun p => p.1.any fNan, l.any fun p => !(p.1.any fNan) && fNan p.2, l.any fun p => p.1.all fFin && fInf p.2⟩

/-- Flags of an operation that forms no value of its own: NaN in. -/
def Flags.ofInputs (ins : List W32) : Flags := ⟨ins.any fNan, false, false⟩

end Sys2Proof.Machine
end

