-- ==== Sys2Proof/Config.lean ====
section
/-!
DEFINITION. The free values: constants without a body for what the spec leaves open or keeps secret. Nothing can be
proved about a value of theirs, so a claim holds for every value. Each is named in the assumption log.
-/

namespace Sys2Proof.Config

/-- A free 64-bit value for each count of the model's own field `free` (log 8): what the spec leaves open at a step. -/
opaque freeValue : Nat → BitVec 64

/-- The package's entropy source and HMAC_DRBG (R397): the n-th draw of `bytes` bytes, as a number. -/
opaque entropy : (n bytes : Nat) → Nat

/-- The public key of DEVICE_KEY's ephemeral pair for the n-th session (R399). -/
opaque ephemeralKey : Nat → Nat

/-- An ECDSA P-384 signature with the secret DEVICE_KEY over a message of bytes (R397, R399, R400): r, s, as 96 bytes
big-endian. The key never leaves the core. -/
opaque deviceSign : List Byte → List Byte

/-- The 3 KiB ROM of VX.NORM (R152): per layer x_i, the ratio x_(i+1)/x_i and f(x_i), as FP32 codes. The spec names the
table and not its values. -/
opaque normTable : (layer : Nat) → BitVec 32 × BitVec 32 × BitVec 32

/-- Whether a wedge attempt of VX.NORM passes its density test (R152): f(x_i) of the layer and of the next, the candidate and the
second word. The spec names the test and gives no arithmetic for it. -/
opaque normWedge : (f fNext candidate word : BitVec 32) → Bool

/-- The exponential tail method of VX.NORM beyond r (R152), by the 23-bit position and the second word: none where the attempt is
rejected, else the excess over r in units of 2^-23. The spec names the method and gives no arithmetic for it. -/
opaque normTail : (position : Nat) → (word : BitVec 32) → Option Nat

/-- Where a block scale of an OP card's operand lies (R63, R118, log 12): its byte in the job area of the pool, by the scale
line or first line of the operand, the row stride, the block of 32 rows and the column. The spec names the scales and gives no
place to those of one column. -/
opaque opScaleByte : (line stride block column : Nat) → Nat

/-- TIMEOUT of a norm reduction, by job and group (R310, log 109): the timeout rule governs it, and no field names its length. -/
opaque normTimeout : (job group : Nat) → Nat

/-- The MAC of R399 over a reply, under a session's key, as 16 bytes. -/
opaque sessionMac : (session counter : Nat) → List Byte → List Byte

end Sys2Proof.Config
end

