-- ==== Sys2Proof/Machine/StatusCode.lean ====
section
/-!
DEFINITION. The 16-bit code of each status (R15), from the status tables of spec/01 to spec/16.
-/

namespace Sys2Proof.Machine

/-- The code of a status (R15, R44, R78, R100, R137, R155, R185, R228, R261, R295, R314, R340, R366, R385, R403,
R437, R453). -/
def statusCode : Status → BitVec 16
  | .ok => 0x0000#16
  | .tkConfigInvalid => 0x0101#16
  | .tkBusy => 0x0102#16
  | .tkApplyTooSoon => 0x0103#16
  | .noCredit => 0x0104#16
  | .creditMismatch => 0x0105#16
  | .tickSyncLost => 0x0106#16
  | .cardTooLong => 0x0107#16
  | .tornDown => 0x0108#16
  | .lwFormatInvalid => 0x0201#16
  | .lwPairInvalid => 0x0202#16
  | .lwShapeInvalid => 0x0203#16
  | .lwRowsInvalid => 0x0204#16
  | .lwDepthInvalid => 0x0205#16
  | .lwAccEmpty => 0x0206#16
  | .lwAccOpen => 0x0207#16
  | .lwOutfmtInvalid => 0x0208#16
  | .lwRoundInvalid => 0x0209#16
  | .lwUnitAbsent => 0x020A#16
  | .lwCirrusOvercommit => 0x020B#16
  | .lwCirrusNoShare => 0x020C#16
  | .lwCirrusNoPermit => 0x020D#16
  | .ckRetriedOk => 0x0301#16
  | .ckRelocated => 0x0302#16
  | .ckTolData => 0x0303#16
  | .ckUnrecovered => 0x0304#16
  | .ckNoRelief => 0x0305#16
  | .staleEpoch => 0x0306#16
  | .ckNoChecksum => 0x0307#16
  | .ckRowchkInvalid => 0x0308#16
  | .ckStoreUncorrectable => 0x0309#16
  | .ckRefillNoSource => 0x030A#16
  | .ckRepairRecordFull => 0x030B#16
  | .ckReqInvalid => 0x030C#16
  | .ckReqDenied => 0x030D#16
  | .ckTargetRetired => 0x030E#16
  | .ckUnitInUse => 0x030F#16
  | .ckMaintQueueFull => 0x0310#16
  | .ckReqMerged => 0x0311#16
  | .ckNoSlot => 0x0312#16
  | .cardEngineInvalid => 0x0401#16
  | .cardNotOwner => 0x0402#16
  | .cardEpochMismatch => 0x0403#16
  | .cardOpcodeInvalid => 0x0404#16
  | .cardFieldInvalid => 0x0405#16
  | .poolRangeInvalid => 0x0406#16
  | .chainNotOpen => 0x0407#16
  | .chainBusy => 0x0408#16
  | .chainTooLong => 0x0409#16
  | .chainTwoHeavy => 0x040A#16
  | .chainWaitInvalid => 0x040B#16
  | .chainAborted => 0x040C#16
  | .chainNoSpace => 0x040D#16
  | .chainArrivalOvf => 0x040E#16
  | .tableEmpty => 0x040F#16
  | .tableInvalid => 0x0410#16
  | .vxBudgetExceeded => 0x0411#16
  | .vxFault => 0x0412#16
  | .poolUncorrectable => 0x0413#16
  | .cardDestInvalid => 0x0414#16
  | .poolNoSpace => 0x0415#16
  | .reservedNonzero => 0x0416#16
  | .rgRselInvalid => 0x0501#16
  | .rgTileRange => 0x0502#16
  | .mtAddrInvalid => 0x0601#16
  | .mtNotOwner => 0x0602#16
  | .mtReadOnly => 0x0603#16
  | .mtNoSpace => 0x0604#16
  | .mtRegionTableFull => 0x0605#16
  | .mtUncorrectable => 0x0606#16
  | .mtRemoteTimeout => 0x0607#16
  | .mtChannelFailed => 0x0608#16
  | .mtPrefetchInvalid => 0x0609#16
  | .mtError => 0x060A#16
  | .reqKindInvalid => 0x0701#16
  | .reqJobInvalid => 0x0702#16
  | .reqTenantInvalid => 0x0703#16
  | .reqLengthInvalid => 0x0704#16
  | .reqSamplingInvalid => 0x0705#16
  | .reqHandleInvalid => 0x0706#16
  | .reqQueueFull => 0x0707#16
  | .reqBudgetExceedsCap => 0x0708#16
  | .reqAdmitTimeout => 0x0709#16
  | .reqUnknown => 0x070A#16
  | .cancelled => 0x070B#16
  | .alreadyComplete => 0x070C#16
  | .alreadyCancelled => 0x070D#16
  | .reqTokenInvalid => 0x070E#16
  | .kvSlotInvalid => 0x070F#16
  | .kvPosRange => 0x0710#16
  | .kvPosOrder => 0x0711#16
  | .kvPageShared => 0x0712#16
  | .kvNoPage => 0x0713#16
  | .kvShareInvalid => 0x0714#16
  | .smMaskEmpty => 0x0715#16
  | .smStackOvf => 0x0716#16
  | .smTokenRejected => 0x0717#16
  | .smTableInvalid => 0x0718#16
  | .smScanMismatch => 0x0719#16
  | .smTenantDenied => 0x071A#16
  | .smTenantBusy => 0x071B#16
  | .smConfigInvalid => 0x071C#16
  | .smRingInvalid => 0x071D#16
  | .seqManifestInvalid => 0x071E#16
  | .ctNoContext => 0x0801#16
  | .ctManifestInvalid => 0x0802#16
  | .ctMapInvalid => 0x0803#16
  | .ctPublishBusy => 0x0804#16
  | .ctEpochExhausted => 0x0805#16
  | .ctNonfinite => 0x0806#16
  | .ctSealFailed => 0x0807#16
  | .ctPublishTimeout => 0x0808#16
  | .ctPublishAborted => 0x0809#16
  | .ctSwitchLate => 0x080A#16
  | .ctRecordStale => 0x080B#16
  | .ctImageInvalid => 0x080C#16
  | .ctKeyUnknown => 0x080D#16
  | .ctSignatureInvalid => 0x080E#16
  | .ctShardMissing => 0x080F#16
  | .ctShardHash => 0x0810#16
  | .ctLibraryFull => 0x0811#16
  | .ctModelAbsent => 0x0812#16
  | .ctModelInUseMax => 0x0813#16
  | .ctShareInvalid => 0x0814#16
  | .ctLoadBusy => 0x0815#16
  | .lnManifestInvalid => 0x0901#16
  | .stratusOverflow => 0x0902#16
  | .stratusDirFull => 0x0903#16
  | .stratusUnderflow => 0x0904#16
  | .stratusOrder => 0x0905#16
  | .stratusNoFrame => 0x0906#16
  | .stratusRange => 0x0907#16
  | .stratusNotEmpty => 0x0908#16
  | .expNoRing => 0x0909#16
  | .expRingInvalid => 0x090A#16
  | .expNotConsumer => 0x090B#16
  | .expRecordMismatch => 0x090C#16
  | .expAnnotateInvalid => 0x090D#16
  | .updManifestInvalid => 0x0A01#16
  | .updLsRange => 0x0A02#16
  | .updNormLeaf => 0x0A03#16
  | .updAdvanceLate => 0x0A04#16
  | .updDoneBusy => 0x0A05#16
  | .updTMax => 0x0A06#16
  | .sqManifestInvalid => 0x0B01#16
  | .sqNoGroup => 0x0B02#16
  | .sqNotMember => 0x0B03#16
  | .sqSeqInvalid => 0x0B04#16
  | .sqSizeInvalid => 0x0B05#16
  | .sqCollAborted => 0x0B06#16
  | .sqPoison => 0x0B07#16
  | .sqCalendarFull => 0x0B08#16
  | .sqCreditSpace => 0x0B09#16
  | .sqShareInvalid => 0x0B0A#16
  | .sqNoLane => 0x0B0B#16
  | .sqPortDown => 0x0B0C#16
  | .sqPeerUnreachable => 0x0B0D#16
  | .sqTransferCrc => 0x0B0E#16
  | .sqTimeout => 0x0B0F#16
  | .sqMismatch => 0x0B10#16
  | .sqCapExceeded => 0x0B11#16
  | .sqMemberFailed => 0x0B12#16
  | .agManifestInvalid => 0x0C01#16
  | .agNoContext => 0x0C02#16
  | .agCopyTimeout => 0x0C03#16
  | .agNoSlot => 0x0C04#16
  | .agDrainTimeout => 0x0C05#16
  | .agDrainFailed => 0x0C06#16
  | .agNoRecoveryCut => 0x0C07#16
  | .agSpareUnfit => 0x0C08#16
  | .agShrinkRefused => 0x0C09#16
  | .agCtxUnfit => 0x0C0A#16
  | .agBusy => 0x0C0B#16
  | .agReqInvalid => 0x0C0C#16
  | .agReqDenied => 0x0C0D#16
  | .agHeld => 0x0C0E#16
  | .agShapeMismatch => 0x0C0F#16
  | .hzStreamInvalid => 0x0D01#16
  | .hzStreamBusy => 0x0D02#16
  | .hzDenied => 0x0D03#16
  | .hzActionDup => 0x0D04#16
  | .hzActionLate => 0x0D05#16
  | .hzNotServing => 0x0D06#16
  | .hzManifestInvalid => 0x0D07#16
  | .hzHoldLimit => 0x0D08#16
  | .hzPortDown => 0x0D09#16
  | .ptTableInvalid => 0x0E01#16
  | .ptResourceBusy => 0x0E02#16
  | .ptPowerOvercommit => 0x0E03#16
  | .ptSchedOvercommit => 0x0E04#16
  | .ptBusy => 0x0E05#16
  | .ptReqInvalid => 0x0E06#16
  | .ptDenied => 0x0E07#16
  | .ptGrantInvalid => 0x0E08#16
  | .ptGrantStale => 0x0E09#16
  | .ptJobTableFull => 0x0E0A#16
  | .ptNoClusters => 0x0E0B#16
  | .scAuthFailed => 0x0E0C#16
  | .scSessionMac => 0x0E0D#16
  | .scSessionIdle => 0x0E0E#16
  | .scSessionFull => 0x0E0F#16
  | .scAuthLocked => 0x0E10#16
  | .scBusy => 0x0E11#16
  | .bootFlashError => 0x0F01#16
  | .bootImageInvalid => 0x0F02#16
  | .bootRootRevoked => 0x0F03#16
  | .bootSignatureInvalid => 0x0F04#16
  | .bootVersionOld => 0x0F05#16
  | .bootConfigInvalid => 0x0F06#16
  | .bootMemoryFailed => 0x0F07#16
  | .bootDieFailed => 0x0F08#16
  | .wnComponentFault => 0x0F09#16
  | .wnComponentFailed => 0x0F0A#16
  | .hotImageInvalid => 0x0F0B#16
  | .hotStateIncompatible => 0x0F0C#16
  | .hotFixed => 0x0F0D#16
  | .hotBusy => 0x0F0E#16
  | .hotAborted => 0x0F0F#16
  | .manInvalid => 0x0F10#16
  | .manBusy => 0x0F11#16
  | .manMismatch => 0x0F12#16
  | .wnDenied => 0x0F13#16
  | .wnPkgBusy => 0x0F14#16
  | .mgmtMsgInvalid => 0x0F15#16
  | .mgmtEventsLost => 0x0F16#16
  | .flashWriteFailed => 0x0F17#16
  | .pmFloorExceeds => 0x1001#16
  | .pmThrottle => 0x1002#16

end Sys2Proof.Machine
end

