-- ==== Sys2Proof/Machine/Ops.lean ====
section
/-!
DEFINITION. The shared operations over State: reads and writes of its tables, counters, events, the partition table,
queues, chains, completion records and the end of a job.
-/

namespace Sys2Proof.Machine

/-! ## Running -/

/-- A command that acts only while ticks run (R409, R462): elsewhere it changes nothing (log 7). No command touches the
queue of waiting commands. -/
def running (s : State) (f : State → State) : Host.Outcome State Fault Refusal :=
  .next (if s.edge.power = .running then { f s with pending := s.pending } else s)

/-- Applies `f` where `c` holds. -/
def whenB (c : Bool) (f : State → State) (s : State) : State := if c then f s else s

/-- Applies a change for each element of a list. -/
def forEach {α : Type} (l : List α) (f : α → State → State) (s : State) : State := l.foldl (fun t a => f a t) s

/-- Work that leaves the tick block alone. -/
def sameTk (f : State → State) (s : State) : State := { f s with tk := s.tk }

/-- Adds to what has left the package (log 9). -/
def emit (o : Out) (s : State) : State := { s with out := s.out ++ [o] }

/-- Takes the next free value (log 8). -/
def takeFree (s : State) : W64 × State := (Config.freeValue s.free, { s with free := s.free + 1 })

/-! ## Geometry (R6 to R8, R160) -/

/-- Compute die of a cluster index 32 × die + 8 × region + cluster. -/
def clDie (cl : Nat) : Nat := cl / 32

/-- Home rim die of a compute die (R160), row 0 first, eight columns a row. -/
def homeTable : List Nat :=
  [0, 0, 0, 0, 1, 1, 1, 1,
   7, 0, 0, 0, 1, 1, 1, 2,
   7, 7, 7, 7, 2, 2, 2, 2,
   7, 7, 6, 6, 3, 3, 2, 2,
   6, 6, 6, 6, 3, 3, 3, 3,
   6, 5, 5, 5, 4, 4, 4, 3,
   5, 5, 5, 5, 4, 4, 4, 4]

/-- Home rim die of die 0–55. -/
def homeRd (die : Nat) : Nat := homeTable.getD die 0

/-- Home rim die of a cluster. -/
def clRd (cl : Nat) : Nat := homeRd (clDie cl)

/-! ## Tables of State -/

/-- Repair-record entries in force since start-up (R91). -/
def repairs (s : State) : List (Nat × Nat) := s.fuses.repair.take s.fuses.applied

/-- Whether the fuses or the repair record take a physical unit out (R2, R91). -/
def unitOut (s : State) (k : Nat) : Bool := s.fuses.fused.contains k || (repairs s).contains (k, 64)

/-- A physical unit that nothing has touched since start-up: AVAILABLE at epoch 1, STALE before start-up; fused, retired and
remapped as the fuses and the repair record say; enabled units are numbered in ascending physical order (R2, R91, R99,
R409). -/
def unitReset (s : State) (k : Nat) : UnitSt :=
  let lane := (repairs s).find? fun e => decide (e.1 = k) && decide (e.2 < 64)
  { state := if s.fuses.fused.contains k then .fused else if unitOut s k then .retired
      else if s.tk.started then .available else .stale,
    spareInUse := lane.isSome, spareBad := false, spareFor := (lane.map (·.2)).getD 0,
    logical := if unitOut s k then 15 else ((List.range (k % 8)).filter fun i => !unitOut s (k / 8 * 8 + i)).length,
    epoch := if s.tk.started && !unitOut s k then 1 else 0, suspects := 0, suspectOvf := false, marked := false, acc := none,
    file := [], operand := [], rowScalar := [], refill := none, source := .nothing, written := false, wfmt := 5, test := none,
    permit := false, haze := false, fenced := false }

/-- Physical unit `k`. -/
def getUnit (s : State) (k : Nat) : UnitSt := match tabFind k s.units with
  | some u => u
  | none => unitReset s k

/-- Puts a physical unit. -/
def setUnit (k : Nat) (u : UnitSt) (s : State) : State := { s with units := tabIns k u s.units }

/-- Changes a physical unit. -/
def modUnit (k : Nat) (f : UnitSt → UnitSt) (s : State) : State := setUnit k (f (getUnit s k)) s

/-- The vector engine at reset. -/
def vecReset : VecSt :=
  { pc := 0, x := [], f := [], v := [], vl := 0, vtype := 0#32, vstart := 0, fflags := 0#5, frm := 0#3, vxrm := 0#2, vxsat := false,
    pinned := [] }

/-- A cluster at reset (R99, R451). -/
def clReset : Cluster :=
  { owner := none, epoch := 1, permits := 0, permitsUsed := 0, queues := [], runs := [], tier := [], colls := [],
    collCredits := 4, list := none, exec9 := none, prefetch := [], chains := [], past := [], uses := 0, writeBuf := [], arrivals := [], tables := [], grammars := [],
    allows := [], scans := [], gens := [], vx := vecReset, pm := .mist, wakeAt := 0, sleep := none, capped := false, deferred := [],
    published := false, updDone := false, coreDown := false,
    owed := [] }

/-- Cluster `cl`. -/
def getCl (s : State) (cl : Nat) : Cluster := tabGet clReset s.clusters cl

/-- Puts a cluster. -/
def setCl (cl : Nat) (c : Cluster) (s : State) : State := { s with clusters := tabIns cl c s.clusters }

/-- Changes a cluster. -/
def modCl (cl : Nat) (f : Cluster → Cluster) (s : State) : State := setCl cl (f (getCl s cl)) s

/-- A channel at reset (R183). -/
def chanReset : Chan :=
  { state := .active, tempC := 0, refresh := 0, odecc := 0, retries := 0, exhausted := 0, zeroing := [], rewrite := [],
    scrub := 0, trained := false }

/-- Channel `ch`. -/
def getChan (s : State) (ch : Nat) : Chan := tabGet chanReset s.mt.chans ch

/-- Changes a channel. -/
def modChan (ch : Nat) (f : Chan → Chan) (s : State) : State :=
  { s with mt := { s.mt with chans := tabIns ch (f (getChan s ch)) s.mt.chans } }

/-- A partition's own queues at reset. -/
def partReset : PartSt :=
  { intake := [], intakeCredits := 1024, annotCredits := 1024, permits := 0, nextReq := 1, ended := [], nextJob := 1, annots := [], submit := none, jobStatus := (.ok, 0, 0),
    loadStatus := .ok, load := none, meter := 0, meterLast := 0, permitsLast := 0,
    abortLast := ⟨0, 0, 0, .ok, .ok, 0⟩, attestLast := .ok, agLast := .ok, hzLast := .ok, ptLast := .ok,
    maintLast := .ok, discard := (0, 0, 0) }

/-- Partition `p`'s own queues and statuses. -/
def getPart (s : State) (p : Nat) : PartSt := tabGet partReset s.parts p

/-- Changes them. -/
def modPart (p : Nat) (f : PartSt → PartSt) (s : State) : State :=
  { s with parts := tabIns p (f (getPart s p)) s.parts }

/-- A live job. -/
def getJob (s : State) (j : Nat) : Option Job := tabFind j s.jobs

/-- Changes a live job. -/
def modJob (j : Nat) (f : Job → Job) (s : State) : State :=
  match getJob s j with
  | some x => { s with jobs := tabIns j (f x) s.jobs }
  | none => s

/-- Changes a Contrail context. -/
def modCtx (c : Nat) (f : Ctx → Ctx) (s : State) : State :=
  match tabFind c s.lrn.ctxs with
  | some x => { s with lrn := { s.lrn with ctxs := tabIns c (f x) s.lrn.ctxs } }
  | none => s

/-- Changes an Afterglow context. -/
def modAg (c : Nat) (f : AgCtx → AgCtx) (s : State) : State :=
  match tabFind c s.lrn.ags with
  | some x => { s with lrn := { s.lrn with ags := tabIns c (f x) s.lrn.ags } }
  | none => s

/-- Changes an experience ring. -/
def modRing (r : Nat) (f : ExpRing → ExpRing) (s : State) : State :=
  match tabFind r s.lrn.rings with
  | some x => { s with lrn := { s.lrn with rings := tabIns r (f x) s.lrn.rings } }
  | none => s

/-- Changes the live request of a partition with an identifier. -/
def modReq (p id : Nat) (f : Req → Req) (s : State) : State :=
  { s with gen := { s.gen with reqs := s.gen.reqs.map fun r => if r.part = p ∧ r.id = id then f r else r } }

/-- Writes (key, byte) pairs to the byte stores. -/
def putMem (ws : List (Nat × Byte)) (s : State) : State := { s with mem := memPuts s.mem ws }

/-- Zeroes bytes of the byte stores. -/
def zeroMem (k n : Nat) (s : State) : State := { s with mem := memZero s.mem k n }

/-! ## Counters (R12, R17, R447) -/

/-- The 64-bit statistics counters, by their register. -/
inductive Ctr where
  | tkOverrun
  | lwCirrusDefer
  | lwCirrusMain
  | lwExc
  | ckRetried
  | ckRelocated
  | ckTolData
  | ckEccCorr
  | rgPinnedTiles
  | mtCorr
  | mtUncorr
  | mtEdcRetry
  | mtPrefetchLate
  | smTokens
  | kvPrefixHit
  | kvPrefixSkip
  | kvEvict
  | kvPageWait
  | ctPublishes
  | ctFailed
  | ctSaturated
  | ctResent
  | ctHeld
  | ctExpStale
  | ctExpWait
  | ctExpNoteach
  | ctExpNoreward
  | ctExpAnnotRej
  | vxAdvances
  | vxNormNonfinite
  | sqInnet
  | sqFallback
  | sqAborts
  | sqPoisons
  | sqRetrans
  | sqLinkErr
  | agCuts
  | agSkipped
  | agStalls
  | agDrains
  | agDrainSkipped
  | agRollbacks
  | hzHoldover
  | hzObsMissing
  | hzObsSuperseded
  | hzRxDrop
  | ptAdmitted
  | ptCompleted
  | ptFaulted
  | ptTornDown
  | scAuthFails
  | wnDiscards
  | wnRestarts
  | pmCapTicks
  | pmThrottleTicks
deriving DecidableEq, Repr

/-- Key of a counter's element. -/
def ctrKey (c : Ctr) (i : Nat) : Nat := 4096 * c.ctorIdx + i

/-- Value of a counter. -/
def ctrVal (s : State) (c : Ctr) (i : Nat) : Nat := tabGet 0 s.ctrs (ctrKey c i)

/-- Adds to a counter, which sticks at 2^64 − 1 and sets its sticky flag there. -/
def bumpBy (c : Ctr) (i n : Nat) (s : State) : State :=
  let v := ctrVal s c i + n
  if v < 2 ^ 64 - 1 then { s with ctrs := tabSet 0 s.ctrs (ctrKey c i) v }
  else { s with ctrs := tabSet 0 s.ctrs (ctrKey c i) (2 ^ 64 - 1), ovfs := setIns (ctrKey c i) s.ovfs }

/-- Adds 1 to a counter. -/
def bump (c : Ctr) (i : Nat) (s : State) : State := bumpBy c i 1 s

/-! ## Firmware components (R414, R417) -/

/-- Component 2 serves partition changes and grants, 1 and 2 attestation and sessions (R414, R418). -/
def compState (s : State) (c : Nat) : Nat := match tabFind c s.wn.comps with
  | some x => x.state
  | none => 0

/-- A component is RUNNING. -/
def compUp (s : State) (c : Nat) : Bool := decide (compState s c = 0)

/-! ## Rights, views and events (R394, R431) -/

/-- Whether the requester has package rights. -/
def packageRights (s : State) : Who → Bool
  | .cores _ => false
  | .session n => match tabFind n s.sc.sessions with
    | some x => x.package
    | none => false

/-- Whether the requester has rights over partition `p`. -/
def rightsOver (s : State) (w : Who) (p : Nat) : Bool :=
  match w with
  | .cores q => decide (q = p)
  | .session n => match tabFind n s.sc.sessions with
    | some x => x.package || x.mask.toNat / 2 ^ p % 2 == 1
    | none => false

/-- The view of a requester: 0–15 a partition, 16 a package session, 17 a session whose PT_VIEW names no partition of its
key. -/
def viewOf (s : State) : Who → Nat
  | .cores p => p
  | .session n => match tabFind n s.sc.sessions with
    | some x => if x.package then 16 else if x.mask.toNat / 2 ^ x.view % 2 = 1 then x.view else 17
    | none => 17

/-- Changes what a view keeps: a partition's view its own record, the package sessions' view that of the package. -/
def modView (v : Nat) (f : PartSt → PartSt) (g : WnSt → WnSt) (s : State) : State :=
  if v < 16 then modPart v f s else if v = 16 then { s with wn := g s.wn } else s

/-- Whether the requester exists: the cores of a partition, or an open session. -/
def present (s : State) : Who → Bool
  | .cores _ => true
  | .session n => (tabFind n s.sc.sessions).isSome

/-- Appends an event to a session's list; beyond 1,024 the oldest is dropped and counted (R431). -/
def pushEvent (n : Nat) (st : Status) (part detail : Nat) (s : State) : State :=
  match tabFind n s.sc.sessions with
  | none => s
  | some x =>
    let es := x.events ++ [(x.eventSeq, st, part, s.tk.tick, detail)]
    let x' := { x with eventSeq := next64 x.eventSeq,
                       events := if 1024 < es.length then es.drop 1 else es,
                       lost := if 1024 < es.length then x.lost + 1 else x.lost }
    emit (.event n x.eventSeq st part s.tk.tick detail)
      { s with sc := { s.sc with sessions := tabIns n x' s.sc.sessions } }

/-- Delivers an event to one session; where events were lost, MGMT_EVENTS_LOST with their number comes first (R431). -/
def deliver (n : Nat) (st : Status) (part detail : Nat) (s : State) : State :=
  match tabFind n s.sc.sessions with
  | none => s
  | some x =>
    if x.lost = 0 then pushEvent n st part detail s
    else
      pushEvent n st part detail (pushEvent n .mgmtEventsLost 0xFF x.lost
        { s with sc := { s.sc with sessions := tabIns n { x with lost := 0 } s.sc.sessions } })

/-- Raises an event on the management event stream, to the sessions whose rights cover `part`; 0xFF concerns the
package (R394, R431). -/
def raise (st : Status) (part detail : Nat) (s : State) : State :=
  forEach (s.sc.sessions.map (·.1))
    (fun n t => if packageRights t (.session n) || (decide (part < 16) && rightsOver t (.session n) part)
      then deliver n st part detail t else t) s

/-! ## The partition table (R386) -/

/-- Bits [hi:lo] of word `w` of a partition entry. -/
def ptFld (e : BitVec 1024) (w hi lo : Nat) : Nat := e.toNat / 2 ^ (64 * w + lo) % 2 ^ (hi - lo + 1)

/-- The entry of a partition. -/
def ptEntry (s : State) (p : Nat) : BitVec 1024 := tabGet 0#1024 s.pt.table p

/-- VALID of R386. -/
def ptValid (e : BitVec 1024) : Bool := ptFld e 0 4 4 == 1

/-- A bit range of a partition entry as a number. -/
def ptSpan (e : BitVec 1024) (lo n : Nat) : Nat := e.toNat / 2 ^ lo % 2 ^ n

/-- SLOTS[c] of an entry. -/
def ptSlots (e : BitVec 1024) (c : Nat) : Nat := ptSpan e (640 + 11 * c) 11

/-- Whether the entry holds region 4 × die + region. -/
def ptHasRegion (e : BitVec 1024) (r : Nat) : Bool := e.toNat / 2 ^ (64 + r) % 2 == 1

/-- Regions held (R401). -/
def ptRegions (e : BitVec 1024) : List Nat := (List.range 224).filter (ptHasRegion e)

/-- Application cores held, as 16 × RD + core. -/
def ptCores (e : BitVec 1024) : List Nat := (List.range 128).filter fun c => e.toNat / 2 ^ (320 + c) % 2 == 1

/-- Byte of the channel table (R386): PART [3:0], CLASS [6:4], OWNED [7]. -/
def chanByte (t : BitVec 1024) (ch : Nat) : Nat := t.toNat / 2 ^ (8 * ch) % 256

/-- Owner of a channel: partition and class. -/
def chanOwner (t : BitVec 1024) (ch : Nat) : Option (Nat × Nat) :=
  let b := chanByte t ch
  if b / 128 = 1 then some (b % 16, b / 16 % 8) else none

/-- Channels a partition owns. -/
def ptChans (t : BitVec 1024) (p : Nat) : List Nat :=
  (List.range 128).filter fun ch => decide ((chanOwner t ch).map (·.1) = some p)

/-- Partition that holds cluster `cl`'s region, if any (R388). -/
def clPart (s : State) (cl : Nat) : Option Nat :=
  (List.range 16).find? fun p => ptValid (ptEntry s p) && ptHasRegion (ptEntry s p) (cl / 8)

/-- Twice FLOOR_W of an entry, in W (R441): 0.5 W a held cluster, 5.5 W an owned channel, 5 W a core. -/
def floor2 (e : BitVec 1024) (chans : Nat) : Nat := 8 * (ptRegions e).length + 11 * chans + 10 * (ptCores e).length

/-- The partition's budget of a tick in 0.1 pJ (R441). -/
def budget (s : State) (p : Nat) : Nat :=
  let e := ptEntry s p
  (2 * ptFld e 0 29 16 - floor2 e (ptChans s.pt.chans p).length) * s.tk.cfg.periodUs * 5000000

/-- No copy holds the contents of a unit: none was made, or they changed after the last one (R94). -/
def Source.none (x : Source) : Bool := decide (x = .nothing) || decide (x = .changed)

/-- Permits assigned to the jobs of a partition (R67). -/
def permitsHeld (s : State) (p : Nat) : Nat :=
  (s.clusters.map fun c => match c.2.owner with
    | some (_, q, _) => if q = p then c.2.permits else 0
    | none => 0).sum

/-- The throttle level in force: a FOLLOWER applies the larger of its own level and its source's (R446). -/
def levelInForce (s : State) : Nat := if s.tk.role = 2 then max s.pm.level s.pm.sourceLevel else s.pm.level

/-! ## Units of a cluster (R2, R9, R90) -/

/-- Whether a physical unit is enabled: neither fused nor retired. -/
def unitEnabled (u : UnitSt) : Bool := decide (u.state ≠ .fused) && decide (u.state ≠ .retired)

/-- The physical unit of a logical unit of a cluster. A retired unit keeps its number until the cluster is renumbered
(R90), and its cards run in relief. -/
def physOf (s : State) (cl u : Nat) : Option Nat :=
  ((List.range 8).map (8 * cl + ·)).find? fun k => decide ((getUnit s k).state ≠ .fused) && decide ((getUnit s k).logical = u)

/-- Enabled units of a cluster as the cards count them. -/
def enabledCount (s : State) (cl : Nat) : Nat :=
  ((List.range 8).filter fun i => decide ((getUnit s (8 * cl + i)).logical < 8)).length

/-! ## Queues (R39 to R43, R105) -/

/-- Depth of the queue with a key: 0–7 units, 8 + e engine e, 17 control core (R105). -/
def queueDepth (k : Nat) : Nat :=
  if k < 8 then 16
  else match k with
    | 9 => 32
    | 10 => 16
    | 11 => 32
    | 12 => 16
    | 13 => 16
    | 14 => 8
    | 15 => 32
    | 16 => 32
    | _ => 64

/-- A cluster's queue. -/
def getQ (c : Cluster) (k : Nat) : Queue := tabGet ⟨queueDepth k, queueDepth k, []⟩ c.queues k

/-- Puts a cluster's queue. -/
def setQ (k : Nat) (q : Queue) (c : Cluster) : Cluster := { c with queues := tabIns k q c.queues }

/-- Posts a card: one credit is taken (R39). -/
def postQ (k : Nat) (x : QCard) (c : Cluster) : Cluster :=
  let q := getQ c k
  setQ k { q with credits := q.credits - 1, cards := q.cards ++ [x] } c

/-- Takes the card at the head; the credit comes back at retirement. -/
def popQ (k : Nat) (c : Cluster) : Cluster :=
  let q := getQ c k
  setQ k { q with cards := q.cards.drop 1 } c

/-- Hands a collective to the Squall engine: one credit is taken (R39, R328). -/
def postCollQ (r : Run) (c : Cluster) : Cluster := { c with colls := c.colls ++ [r], collCredits := c.collCredits - 1 }

/-- A collective's card leaves its queue, and the credit comes back (R39, R328). -/
def dropCollQ (k : Nat) (c : Cluster) : Cluster := { c with colls := c.colls.eraseIdx k, collCredits := c.collCredits + 1 }

/-- Returns a credit (R39). -/
def creditQ (k : Nat) (c : Cluster) : Cluster :=
  let q := getQ c k
  setQ k { q with credits := q.credits + 1 } c

end Sys2Proof.Machine

namespace Sys2Proof

/-! ## Card header (R109) -/

/-- ENGINE. -/
def Card.engine (c : Card) : Nat := Machine.fld c.w0 3 0

/-- CLASS. -/
def Card.cls (c : Card) : Nat := Machine.fld c.w0 6 4

/-- PART. -/
def Card.part (c : Card) : Nat := Machine.fld c.w0 11 8

/-- UNIT. -/
def Card.unit (c : Card) : Nat := Machine.fld c.w0 15 12

/-- OPCODE. -/
def Card.opcode (c : Card) : Nat := Machine.fld c.w0 23 16

/-- CHAIN. -/
def Card.chain (c : Card) : Nat := Machine.fld c.w0 29 24

/-- CHAIN_LAST. -/
def Card.last (c : Card) : Bool := Machine.flag c.w0 30

/-- SPLIT_COMPAT. -/
def Card.split (c : Card) : Bool := Machine.flag c.w0 31

/-- Prefix wait WAIT_HI × 256 + WAIT. -/
def Card.wait (c : Card) : Nat := Machine.fld c.w1 61 54 * 256 + Machine.fld c.w0 39 32

/-- WAIT_ARR. -/
def Card.waitArr (c : Card) : Nat := Machine.fld c.w0 47 40

/-- CARD_TAG. -/
def Card.tag (c : Card) : Nat := Machine.fld c.w0 63 48

/-- JOB. -/
def Card.job (c : Card) : Nat := Machine.fld c.w1 15 0

/-- EPOCH. -/
def Card.epoch (c : Card) : Nat := Machine.fld c.w1 31 16

/-- COMPL_SLOT. -/
def Card.slot (c : Card) : Nat := Machine.fld c.w1 43 32

/-- COMPL_ALWAYS. -/
def Card.always (c : Card) : Bool := Machine.flag c.w1 44

/-- SEPFMT. -/
def Card.sepFmt (c : Card) : Nat := Machine.fld c.w1 51 48

/-- SEPROUND. -/
def Card.sepRound (c : Card) : Nat := Machine.fld c.w1 53 52

/-- Queue key of a card: its unit, or 8 + engine. -/
def Card.queueKey (c : Card) : Nat := if c.engine = 0 then c.unit else 8 + c.engine

/-- Stamps the cluster epoch into a card whose EPOCH is 0 (R111). -/
def Card.stamp (c : Card) (epoch : Nat) : Card :=
  if c.epoch = 0 then { c with w1 := c.w1 ||| BitVec.ofNat 64 (epoch * 2 ^ 16) } else c

end Sys2Proof

namespace Sys2Proof.Machine

/-! ## Completion records (R117) -/

/-- What a retirement reports. -/
structure Report where
  status : Status
  unit : Nat
  nanIn : Bool
  nanGen : Bool
  ovf : Bool
  mode : Nat
  word : Nat
  bit : Nat
  cycles : Nat
deriving DecidableEq, Repr

/-- A report of a status and nothing else. -/
def Report.of (st : Status) (unit : Nat) : Report := ⟨st, unit, false, false, false, 0, 0, 0, 0⟩

/-- The two words of a completion record. -/
def complWords (c : Card) (r : Report) (tick : Nat) : List W64 :=
  let b := fun (x : Bool) (n : Nat) => if x then 2 ^ n else 0
  [BitVec.ofNat 64 ((statusCode r.status).toNat + c.tag * 2 ^ 16 + c.engine * 2 ^ 32 + r.unit % 16 * 2 ^ 36
      + c.chain * 2 ^ 40 + b r.nanIn 46 + b r.nanGen 47 + b r.ovf 48 + r.mode * 2 ^ 49 + r.word % 16 * 2 ^ 51
      + r.bit % 64 * 2 ^ 55),
   BitVec.ofNat 64 (r.cycles % 2 ^ 32 + tick % 2 ^ 32 * 2 ^ 32)]

/-- Writes the completion record where R117 asks for one: always, with a status, or with a flag. -/
def complete (cl : Nat) (c : Card) (r : Report) (s : State) : State :=
  if c.always || decide (r.status ≠ .ok) || r.nanIn || r.nanGen || r.ovf then
    putMem (bytesAt (poolKey cl (16 * c.slot)) (w64Bytes (complWords c r s.tk.tick))) s
  else s

/-! ## Ending a job (R396) -/

/-- Decides a job's end; the first cause stands (R402). No further card of the job issues from here. -/
def decideEnd (j : Nat) (e : JobEnd) (st : Status) (s : State) : State :=
  modJob j (fun x => if x.ending = none then { x with ending := some (e, st) } else x) s

/-- A fault of the job's own work tears it down alone (R396). -/
def faultJob (j : Nat) (st : Status) (s : State) : State := decideEnd j .faulted st s

/-- Statuses that tear the job of a card down alone (R86, R94, R175, R179, R180). -/
def fatalStatus (st : Status) : Bool :=
  decide (st = .ckNoRelief) || decide (st = .ckUnrecovered) || decide (st = .ckRefillNoSource)
    || decide (st = .mtUncorrectable) || decide (st = .mtChannelFailed)

/-! ## Chains (R112 to R116) -/

/-- Statuses that do not abort a chain (R115). -/
def benign (st : Status) : Bool :=
  decide (st = .ok) || decide (st = .ckRetriedOk) || decide (st = .ckRelocated) || decide (st = .ckTolData)

/-- Raises the retired prefix over the cards that have retired, up to `lim` when a closing card holds it back. -/
def advancePrefix : Nat → Nat → List Nat → Option Nat → Nat × List Nat
  | 0, d, a, _ => (d, a)
  | k + 1, d, a, lim =>
    if a.contains (d + 1) && !(decide (lim = some (d + 1))) then advancePrefix k (d + 1) (a.filter (· ≠ d + 1)) lim
    else (d, a)

/-- Marks card `ord` of a chain as retired. -/
def Chain.retire (ord : Nat) (c : Chain) : Chain :=
  let a := if ord = 0 then c.ahead else c.ahead ++ [ord]
  let (d, a') := advancePrefix (a.length + 1) c.done a (c.closing.map (·.1))
  { c with done := d, ahead := a' }

/-- Status with which a card of an aborted chain retires (R115). -/
def abortStatus (cause : AbortCause) (last : Bool) : Status :=
  match cause with
  | .failed => .chainAborted
  | .cancelled => .cancelled
  | .arrivalOvf => if last then .chainArrivalOvf else .chainAborted

/-- Use `use` of chain `ch`: open, or closed with cards that have not retired (R112). A card with CHAIN 0 is in none. -/
def useChain (c : Cluster) (ch use : Nat) : Option Chain :=
  if ch = 0 then none else match tabFind ch c.chains with
  | some h => if h.use = use then some h else tabFind use c.past
  | none => tabFind use c.past

/-- Puts back a use of chain `ch`; a closed one is forgotten once its last card has retired. -/
def putUse (ch : Nat) (h : Chain) (c : Cluster) : Cluster :=
  if (tabFind ch c.chains).any fun x => decide (x.use = h.use) then { c with chains := tabIns ch h c.chains }
  else { c with past := if h.posted ≤ h.done ∧ h.closing.isNone then tabDel h.use c.past else tabIns h.use h c.past }

/-- Closes a chain whose CHAIN_LAST has retired and that has no finish work left (R112). -/
def closeIfDone (cl ch : Nat) (s : State) : State :=
  match tabFind ch (getCl s cl).chains with
  | some h =>
    if h.lastDone && h.closing.isNone then
      modCl cl (fun x => putUse ch h { x with chains := tabDel ch x.chains }) s
    else s
  | none => s

/-- A card of a chain retires: the prefix of its use advances; with CHAIN_LAST the arrival count starts anew and the chain
closes (R112, R113). -/
def chainRetire (cl : Nat) (c : Card) (ord : ChainPlace) (s : State) : State :=
  if c.chain = 0 then s
  else
    match useChain (getCl s cl) c.chain ord.use with
    | none => s
    | some h =>
      let h' := h.retire ord.n
      closeIfDone cl c.chain (modCl cl (fun x =>
        putUse c.chain { h' with lastDone := h'.lastDone || c.last }
          (if c.last then { x with arrivals := tabSet 0 x.arrivals c.chain 0 } else x)) s)

/-- Retires a card of a queue without acting. -/
def retireUnrun (cl : Nat) (q : QCard) (st : Status) (s : State) : State :=
  chainRetire cl q.card q.ord (complete cl q.card (Report.of st q.card.unit) s)

/-- Whether a card was posted in use `use` of chain `ch`. -/
def QCard.inUse (ch use : Nat) (q : QCard) : Bool := decide (q.card.chain = ch) && decide (q.ord.use = use)

/-- Takes every card of a use of a chain out of a queue, its credits returned. -/
def stripQueue (ch use : Nat) (q : Queue) : Queue :=
  let keep := q.cards.filter fun x => !x.inUse ch use
  { q with cards := keep, credits := q.credits + (q.cards.length - keep.length) }

/-- The cards of a use of a chain that wait in the cluster's queues, queue by queue. -/
def chainCards (ch use : Nat) (c : Cluster) : List QCard := c.queues.flatMap fun q => q.2.cards.filter (QCard.inUse ch use)

/-- A byte of near memory lies on a channel that serves accesses: a FAILED one serves none (R180). -/
def served (s : State) (w : Nat × Byte) : Bool := decide ((getChan s (w.1 / 0x400000000 % 128)).state ≠ .failed)

/-- What the write buffer of a cluster holds reaches near memory (R135). -/
def drainBuffer (cl : Nat) (s : State) : State :=
  modCl cl (fun c => { c with writeBuf := [] }) (putMem ((getCl s cl).writeBuf.filter (served s)) s)

/-- Aborts a use of a chain (R115), apart from its collectives (R334): its cards that have not issued retire without acting, its finish cards are discarded, its
held tiles and its two-pass region are released (R136). -/
def dropUse (cl ch use : Nat) (cause : AbortCause) (s : State) : State :=
  match useChain (getCl s cl) ch use with
  | none => s
  | some h =>
    if h.abort.isSome then s
    else
      let gone := chainCards ch use (getCl s cl)
      let s1 := modCl cl (fun x =>
        putUse ch { h with abort := some cause, closing := none, tiles := [] }
          { x with queues := tabMap (fun _ q => stripQueue ch use q) x.queues }) s
      let s2 := if h.mode = 2 then drainBuffer cl s1 else s1
      closeIfDone cl ch (forEach gone (fun q t => retireUnrun cl q (abortStatus cause q.card.last) t) s2)

/-- Whether a card's waits are met (R113). -/
def waitsMet (c : Cluster) (q : QCard) : Bool :=
  let x := q.card
  if x.chain = 0 then true
  else match useChain c x.chain q.ord.use with
    | some h => decide (x.wait ≤ h.done) && decide (x.waitArr ≤ tabGet 0 c.arrivals x.chain)
    | none => decide (x.wait = 0) && decide (x.waitArr ≤ tabGet 0 c.arrivals x.chain)

/-- Whether the window of a class is open in a phase of the tick (R29, R36): the work of GEN and HORIZON ends at the commit
point, but for a late step; MAINT has no cards. LEARN's slice marks are not in the model (log 81). -/
def windowOpen (s : State) (cls : Nat) : Bool :=
  match s.tk.phase with
  | .step => decide (cls ≠ 7)
  | .late => decide (cls ≠ 7) && decide (cls ≠ 6) && decide (cls ≠ 0)
  | _ => false

/-- The slot that a sampler, mask, KV or STEP_DONE card names (R206, R211, R128, R204). -/
def cardSlot (c : Card) : Option Nat :=
  match c.engine with
  | 4 => some (fld c.w3 15 0)
  | 5 => some (fld c.w3 34 19)
  | 8 => some (fld c.w2 15 0)
  | 9 => if c.opcode = 5 then some (fld c.w2 15 0) else none
  | _ => none

/-- A sequence of a job is late in a step that has not ended (R29): that of a slot, or any. -/
def lateStepOf (s : State) (j : Nat) (slot : Option Nat) : Bool :=
  s.gen.reqs.any fun r => decide (r.job = j) && r.lateStep && r.step.isSome && (slot.isNone || decide (r.slot = slot))

/-- Whether a card belongs to a late step (R29): it names the slot of a late sequence, or its chain serves one; a card and a
chain that name no slot belong to every step of the job (log 81). -/
def lateCard (s : State) (cl j : Nat) (c : Card) : Bool :=
  match cardSlot c with
  | some k => lateStepOf s j (some k)
  | none => match tabFind c.chain (getCl s cl).chains with
    | some h => if h.slots = [] then lateStepOf s j none else h.slots.any fun k => lateStepOf s j (some k)
    | none => lateStepOf s j none

/-- A late GEN step of the cluster's job goes on until W (R29). -/
def lateOpen (s : State) (cls : Nat) (late : Bool) : Bool := decide (s.tk.phase = .late) && decide (cls = 0) && late

/-- Whether a card of a cluster may issue now: in the window of the cluster's class, a tile sender's in SQUALL's, and a late
step's until W (R29, R36). -/
def cardWindow (s : State) (cl : Nat) (c : Card) : Bool :=
  match (getCl s cl).owner with
  | none => false
  | some (cls, _, j) => windowOpen s (if c.engine = 7 then 4 else cls) || lateOpen s cls (lateCard s cl j c)

/-- Whether the control core of a cluster may take cards of its lists now. -/
def listWindow (s : State) (cl : Nat) : Bool :=
  match (getCl s cl).owner with
  | none => false
  | some (cls, _, j) => windowOpen s cls || lateOpen s cls (lateStepOf s j none)

/-- Whether the job may still issue cards (R396). -/
def jobIssues (s : State) (j : Nat) : Bool :=
  match getJob s j with
  | some x => x.ending.isNone && !x.held
  | none => false

/-- Whether the partition can pay `e` tenths of a pJ (R443). -/
def canPay (s : State) (p e : Nat) : Bool := decide ((getPart s p).meter + e ≤ budget s p)

/-- Charges the partition (R442). -/
def pay (p e : Nat) (s : State) : State := modPart p (fun x => { x with meter := x.meter + e }) s

/-- A card of the cluster waits on the budget in this tick (R443). -/
def markCapped (cl : Nat) (s : State) : State := modCl cl (fun x => { x with capped := true }) s

/-! ## Register writes (R12, R425) -/

/-- What a register write comes to: the status its writer sees, the discard that the window records where there is one
(R428: 0 RO field, 1 reserved field, 2 no register, 3 width), and the state. -/
structure Wr where
  st : Status
  drop : Option Nat
  s : State

/-- A write that took effect. -/
def Wr.ok (s : State) : Wr := ⟨.ok, none, s⟩

/-- A write refused with a status. -/
def Wr.no (st : Status) (s : State) : Wr := ⟨st, none, s⟩

/-- A write discarded and recorded. -/
def Wr.drops (kind : Nat) (s : State) : Wr := ⟨.ok, some kind, s⟩

/-- A write that took effect in part: non-zero reserved or read-only bits were discarded. -/
def Wr.part (bad : Bool) (kind : Nat) (w : Wr) : Wr := if bad && w.drop.isNone then { w with drop := some kind } else w

end Sys2Proof.Machine
end

