-- ==== Sys2Proof/Machine/Fabric.lean ====
section
/-!
DEFINITION. The external links of Squall (R318 to R325): port choice, frames, acknowledgement, retransmission, credits,
head flits, and what a package sends to other packages.
-/

namespace Sys2Proof.Machine

/-- A port before start-up. -/
def portReset : Port :=
  { state := .unbound, width := 0, pmd := 0, peer := 0, switched := false, rttUs := 0, txSeq := 0, rxSeq := 0, unacked := [],
    used := [] }

/-- External port `n`. -/
def getPort (s : State) (n : Nat) : Port := tabGet portReset s.sq.ports n

/-- Changes a port. -/
def modPort (n : Nat) (f : Port → Port) (s : State) : State :=
  { s with sq := { s.sq with ports := tabIns n (f (getPort s n)) s.sq.ports } }

/-- UP ports that reach a package, ascending (R322). -/
def upPorts (s : State) (pkg : Nat) : List Nat :=
  (s.sq.ports.filter fun e => decide (e.2.state = .up) && (decide (e.2.peer = pkg) || e.2.switched)).map (·.1)

/-- The port of a flow, source die + destination die: entry flow mod count (R322). -/
def choosePort (s : State) (pkg flow : Nat) : Option Nat :=
  let l := upPorts s pkg
  if l = [] then none else l[flow % l.length]?

/-- Slots of lane `v` on an edge (R319). -/
def laneSlots (s : State) (v : Nat) : Nat :=
  if 128 ≤ v then 16
  else
    let e := ptEntry s (v / 8)
    if ptValid e = false then 0
    else match v % 8 with
      | 7 => 8
      | 3 => (ptFld e 8 9 0 + 12) / 13
      | c => ptSlots e c

/-- External-port slots of lane `v` (R318, R319). -/
def laneXslots (s : State) (v : Nat) : Nat :=
  if 128 ≤ v then 16
  else
    let e := ptEntry s (v / 8)
    if ptValid e = false then 0 else if v % 8 = 7 then 8 else (e.toNat / 2 ^ (64 * 12 + 11 * (v % 8))) % 2048

/-- Credits of a lane at an external port (R320); a lane without slots on the edges or at the port carries nothing (R318). -/
def portCredits (s : State) (n v : Nat) : Nat :=
  let p := getPort s n
  let x := laneXslots s v
  if x = 0 ∨ laneSlots s v = 0 then 0 else (x * p.width * 25000 * p.rttUs + 1024 * 64 - 1) / (1024 * 64) + 16

/-! ## Paths through the mesh (R315, R317) -/

/-- Compute dies that a rim die attaches to (R315). -/
def attached (rd : Nat) : List Nat :=
  ([[0, 1, 2, 3], [4, 5, 6, 7], [7, 15, 23, 31], [39, 47, 55], [52, 53, 54, 55], [48, 49, 50, 51], [32, 40, 48], [0, 8, 16, 24]]
    : List (List Nat)).getD rd []

/-- Hops between two compute dies. -/
def hops (a b : Nat) : Nat := (a % 8 - b % 8) + (b % 8 - a % 8) + (a / 8 - b / 8) + (b / 8 - a / 8)

/-- The die of a list nearest to one, the lower number where two are. -/
def nearest (x : Nat) : List Nat → Nat
  | [] => x
  | [a] => a
  | a :: t => let b := nearest x t; if hops a x ≤ hops b x then a else b

/-- The compute die where a path between two dies enters the mesh, and the one where it leaves it: dies 56–63 are rim dies. Between
two rim dies, the pair of attached dies with the fewest hops (log 112). -/
def meshEnds (a b : Nat) : Nat × Nat :=
  if a < 56 then (if b < 56 then (a, b) else (a, nearest a (attached (b - 56))))
  else if b < 56 then (nearest b (attached (a - 56)), b)
  else
    let pairs := (attached (a - 56)).map fun x => (x, nearest x (attached (b - 56)))
    pairs.foldl (fun p q => if hops q.1 q.2 < hops p.1 p.2 then q else p) (pairs.headD (0, 0))

/-- The path of a flit from die to die (R317): along its row to the destination's column, then along that column; with the dies at
its ends. -/
def route (a b : Nat) : List Nat :=
  let (x, y) := meshEnds a b
  let towards := fun (p q n : Nat) => if p ≤ q then p + n else p - n
  let dist := fun (p q : Nat) => (p - q) + (q - p)
  a :: ((List.range (dist (x % 8) (y % 8) + 1)).map fun n => x / 8 * 8 + towards (x % 8) (y % 8) n)
    ++ ((List.range (dist (x / 8) (y / 8))).map fun n => 8 * towards (x / 8) (y / 8) (n + 1) + y % 8) ++ [b]

/-! ## What a frame holds (R323) -/

/-- MAC of port `n` of a package: 02-56-59, then package × 256 + n. -/
def portMac (pkg n : Nat) : BitVec 48 := BitVec.ofNat 48 (0x025659 * 2 ^ 24 + (pkg * 256 + n) % 2 ^ 24)

/-- The link header, in network order. -/
def linkHeader (type vl flits seq ack cvl credits : Nat) : List Byte :=
  beBytes 1 (16 + type) ++ beBytes 1 vl ++ beBytes 1 flits ++ [0#8] ++ beBytes 3 seq ++ beBytes 3 ack ++ beBytes 1 cvl
    ++ beBytes 2 credits ++ [0#8, 0#8, 0#8]

/-- The FCS of an Ethernet frame: the CRC-32 of IEEE 802.3 over it, as the four bytes that follow it. -/
def fcsOf (bs : List Byte) : List Byte :=
  let bitOf := fun (c : Nat) => if c % 2 = 1 then (c / 2) ^^^ 0xEDB88320 else c / 2
  let byteOf := fun (c : Nat) (b : Byte) => (List.range 8).foldl (fun x _ => bitOf x) (c ^^^ b.toNat)
  leBytes 4 (bs.foldl byteOf 0xFFFFFFFF ^^^ 0xFFFFFFFF)

/-- A frame from port `n` of package `own` to a MAC: header, flits, CRC-32C over both, and FCS (R323, log 110). -/
def linkBytes (own n : Nat) (dst : BitVec 48) (header : List Byte) (flits : List (List Byte)) : List Byte :=
  let payload := header ++ flits.flatten
  let bs := beBytes 6 dst.toNat ++ beBytes 6 (portMac own n).toNat ++ [0x88#8, 0xB5#8] ++ payload
    ++ beBytes 4 (crc32c payload).toNat
  bs ++ fcsOf bs

/-- A DATA frame of port `n` as it goes out now, with the SEQ next expected from the peer in ACK. -/
def dataFrame (s : State) (n : Nat) (u : Sent) : Out :=
  .frame n (linkBytes s.wn.pkg n (portMac u.pkg n)
    (linkHeader 0 u.vl u.flits.length u.seq (getPort s n).rxSeq 0 0) u.flits)

/-- An ACK (TYPE 1) or NAK (TYPE 2) of port `n`, with the credits it returns to a lane (R320, R324). -/
def answerFrame (s : State) (n type : Nat) (dst : BitVec 48) (cvl credits : Nat) : Out :=
  .frame n (linkBytes s.wn.pkg n dst
    (linkHeader type 0 0 (getPort s n).txSeq (getPort s n).rxSeq cvl credits) [])

/-! ## Sending (R320, R322, R324) -/

/-- Puts a frame of a flow to a package behind a port's others, under the port's next sequence number, and sends it; its flits
take credits of its lane (R320, R324). -/
def pushFrame (n pkg flow v : Nat) (flits : List (List Byte)) (s : State) : State :=
  let u : Sent := ⟨(getPort s n).txSeq, v, flits, 0, pkg, flow⟩
  emit (dataFrame s n u) (modPort n (fun p =>
    { p with txSeq := (p.txSeq + 1) % 2 ^ 24, used := tabSet 0 p.used v (tabGet 0 p.used v + flits.length),
             unacked := p.unacked ++ [u] }) s)

/-- Sends flits of a lane on a port in frames of at most 16 (R323); the count bounds the frames. -/
def pushFrames : Nat → Nat → Nat → Nat → Nat → List (List Byte) → State → State
  | 0, _, _, _, _, _, s => s
  | k + 1, n, pkg, flow, v, flits, s =>
    if flits = [] then s else pushFrames k n pkg flow v (flits.drop 16) (pushFrame n pkg flow v (flits.take 16) s)

/-- Sends as many of a message's flits as the credits at its flow's port allow: those left over, and the state (R320,
R322). -/
def sendPart (pkg flow v : Nat) (flits : List (List Byte)) (s : State) : List (List Byte) × State :=
  match choosePort s pkg flow with
  | none => (flits, s)
  | some n =>
    let m := portCredits s n v - tabGet 0 (getPort s n).used v
    (flits.drop m, pushFrames (flits.take m).length n pkg flow v (flits.take m) s)

/-- Sends a message to another package; without an UP port, or with flits left over, it waits, and so does what follows it on
its lane to that package (R320, R324). -/
def sendOut (w : Waiting) (s : State) : State :=
  let wait := fun (l : List (List Byte)) (t : State) => { t with waiting := t.waiting ++ [{ w with flits := l }] }
  if s.waiting.any fun x => decide (x.pkg = w.pkg) && decide (x.lane = w.lane) then wait w.flits s
  else
    let (left, t) := sendPart w.pkg (w.src + w.dst) w.lane w.flits s
    if left = [] then emit w.out t else wait left t

/-- Sends the messages that wait, in order, as far as ports and credits allow; a lane to a package keeps its order. -/
def flushWaiting (s : State) : State := forEach s.waiting sendOut { s with waiting := [] }

/-- The partition of a job handle. -/
def jobPart (j : Nat) : Nat := j / 4096

/-- Cuts bytes into lines of 64, the last padded with zeros. -/
def linesOf (bs : List Byte) : List (List Byte) := (List.range ((bs.length + 63) / 64)).map fun i => sliceZ bs (64 * i) 64

/-- The head flit of a message (R325). -/
def headFlit (type vl pkg : Nat) (h : Head) (lines : List (List Byte)) : List Byte :=
  w64Bytes [BitVec.ofNat 64 (type % 16 + vl % 256 * 2 ^ 4 + h.job % 2 ^ 16 * 2 ^ 12 + h.group % 4096 * 2 ^ 28
      + (if h.group = 0 then 0 else h.srank % 2 ^ 16) * 2 ^ 40),
    BitVec.ofNat 64 (pkg % 1024 + h.die % 64 * 2 ^ 10 + h.cluster % 32 * 2 ^ 16 + h.chain % 64 * 2 ^ 21 + h.seq % 2 ^ 32 * 2 ^ 32),
    BitVec.ofNat 64 (h.chunk % 2 ^ 32 + h.lines % 128 * 2 ^ 32), BitVec.ofNat 64 h.dst,
    BitVec.ofNat 64 ((crc32c lines.flatten).toNat + h.step % 2 ^ 32 * 2 ^ 32)] ++ List.replicate 24 0#8

/-- The messages that a transfer makes: one for each 64 lines, at least one, each with its chunk index (R325). -/
def messagesOf (h : Head) (data : List Byte) : List (Head × List (List Byte)) :=
  let lines := if data = [] then [List.replicate 64 0#8] else linesOf data
  (List.range ((lines.length + 63) / 64)).map fun i =>
    let l := (lines.drop (64 * i)).take 64
    ({ h with chunk := h.chunk + i, lines := l.length }, l)

/-- Sends a transfer on lane `v` from a die to a die of another package, message by message (R325). -/
def sendLane (pkg type v src dst : Nat) (h : Head) (data : List Byte) (s : State) : State :=
  forEach (messagesOf h data) (fun c t =>
    sendOut ⟨pkg, src, dst, v, headFlit type v pkg c.1 c.2 :: c.2, .msg pkg type c.1 c.2.flatten⟩ t) s

/-- Sends a transfer of class `cls` of its job, formed in the job's step (R318, R325). -/
def sendMsg (pkg type cls src dst : Nat) (h : Head) (data : List Byte) (s : State) : State :=
  sendLane pkg type (8 * jobPart h.job + cls) src dst { h with step := ((getJob s h.job).map (·.j)).getD 0 % 2 ^ 32 } data s

/-- What the data flit of a CTRL message holds: the spec lays it out nowhere (log 111). -/
def ctrlFlit (s : State) : List Byte := (List.range 8).flatMap fun i => leBytes 8 (Config.freeValue (s.free + i)).toNat

/-- Sends a message of a head flit and one data flit on the CTRL lane of a job's partition (R318, R325). -/
def sendCtrlOut (pkg src dst : Nat) (h : Head) (o : Out) (s : State) : State :=
  let h' := { h with die := dst, lines := 1 }
  let v := 8 * jobPart h.job + 7
  sendOut ⟨pkg, src, dst, v, [headFlit 5 v pkg h' [ctrlFlit s], ctrlFlit s], o⟩ { s with free := s.free + 8 }

/-- A head that names a job, a group and a sequence. -/
def headOf (j g q : Nat) : Head := ⟨j, g, 0, 0, 0, 0, q, 0, 0, 0, 0, true⟩

/-- Job of a CTRL-lane report. -/
def ctrlJob : CtrlMsg → Nat
  | .publishReport j _ => j
  | .publishStart j _ => j
  | .publishFailed j _ _ => j
  | .sealReport j _ => j
  | .switchAt j _ => j
  | .updReport j _ => j
  | .updNotice j _ => j
  | .cutReport j _ _ => j
  | .manifest j _ _ => j
  | .cutComplete j _ _ => j
  | .copyReport j _ _ => j
  | .narrowReport j _ _ => j
  | .buddySeal j _ _ _ => j
  | .drainStart j _ _ => j
  | .hold j _ _ _ => j
  | .restoreReport j _ => j
  | .resumeAt j _ => j
  | .startAt j _ => j
  | .memberEnded j => j

/-- Die number of the rim die that holds the scheduler core (R413). -/
def schedDie : Nat := 58

/-- Sends a CTRL-lane report to the scheduler core of a package. -/
def sendCtrl (pkg : Nat) (m : CtrlMsg) (s : State) : State :=
  sendCtrlOut pkg schedDie schedDie (headOf (ctrlJob m) 0 0) (.ctrl pkg m) s

/-- The least of a list of numbers. -/
def leastOf : List Nat → Option Nat
  | [] => none
  | a :: t => match leastOf t with
    | some b => some (min a b)
    | none => some a

/-- Packages of a job. -/
def jobPkgs (s : State) (j : Nat) : List Nat := match getJob s j with
  | some x => x.packages
  | none => []

/-- The lead of a job (R229): its lowest package number. -/
def leadPkg (s : State) (j : Nat) : Nat := (leastOf (jobPkgs s j)).getD s.wn.pkg

/-- Other packages of a job. -/
def otherPkgs (s : State) (j : Nat) : List Nat := (jobPkgs s j).filter fun k => decide (k ≠ s.wn.pkg)

/-- Sends a CTRL-lane message to every other package of a job. -/
def castCtrl (j : Nat) (m : CtrlMsg) (s : State) : State := forEach (otherPkgs s j) (fun k t => sendCtrl k m t) s

/-! ## Frames (R323, R324) -/

/-- R323's checks of a frame received on port `n`; one that fails is discarded and counted. -/
def frameOk (s : State) (n : Nat) (f : Frame) : Bool :=
  f.fcsOk && f.crcOk && decide (f.dstMac = portMac s.wn.pkg n) && decide (f.etherType = 0x88B5#16) && decide (f.ver = 1)
    && f.reservedZero && (if f.type = 0 then decide (1 ≤ f.flits) && decide (f.flits ≤ 16) else decide (f.flits = 0))

/-- Whether sequence `a` comes before `b`, mod 2^24. -/
def seqBefore (a b : Nat) : Bool := decide (a ≠ b) && decide ((b + 2 ^ 24 - a) % 2 ^ 24 < 2 ^ 23)

/-- What ACK, CVL and CREDITS of any frame do. -/
def takeAck (n : Nat) (f : Frame) (s : State) : State :=
  flushWaiting (modPort n (fun p =>
    { p with unacked := p.unacked.filter fun u => !seqBefore u.seq f.ack,
             used := if f.credits = 0 then p.used else tabSet 0 p.used f.cvl (tabGet 0 p.used f.cvl - f.credits) }) s)

/-- The unacknowledged frames of a DOWN port go, in order, to the port that each flow has now, and are counted there; those
that no UP port can take stay (R324). -/
def moveFrames (n : Nat) (s : State) : State :=
  let goes := fun (u : Sent) => (choosePort s u.pkg u.flow).isSome
  let move := (getPort s n).unacked.filter goes
  let s1 := modPort n (fun p =>
    { p with unacked := p.unacked.filter fun u => !goes u,
             used := move.foldl (fun t u => tabSet 0 t u.vl (tabGet 0 t u.vl - u.flits.length)) p.used }) s
  forEach move (fun u t => match choosePort t u.pkg u.flow with
    | some m => bump .sqRetrans m (pushFrame m u.pkg u.flow u.vl u.flits t)
    | none => t) s1

/-- Packages that this one has dealings with: those of its jobs, and those its messages and frames go to. -/
def knownPkgs (s : State) : List Nat :=
  let all := s.jobs.flatMap (fun j => j.2.packages) ++ s.waiting.map (·.pkg)
    ++ s.sq.ports.flatMap fun p => p.2.unacked.map (·.pkg)
  (all.filter fun k => decide (k ≠ s.wn.pkg)).foldl (fun l k => setIns k l) []

/-- Peers that a port reached and that no UP port reaches (R324). -/
def cutPeers (s : State) (n : Nat) : List Nat :=
  (if (getPort s n).switched then knownPkgs s else [(getPort s n).peer]).filter fun k => decide (upPorts s k = [])

/-- A port goes DOWN (R324): its unacknowledged frames go to other ports; where none reaches their package they wait here.
SQ_PEER_UNREACHABLE is raised for each peer that the port was the last to reach. -/
def portDown (n : Nat) (s : State) : State :=
  let s1 := moveFrames n (raise .sqPortDown 0xFF n (modPort n (fun p => { p with state := .down }) s))
  forEach (cutPeers s1 n) (fun p t => raise .sqPeerUnreachable 0xFF p t) s1

/-- Sends the unacknowledged frames of a port again, each counted (R324). -/
def sendAgain (n : Nat) (s : State) : State :=
  forEach (getPort s n).unacked (fun u t => emit (dataFrame t n u) (bump .sqRetrans n t)) s

/-- Resends every unacknowledged frame of a port from the first on (R324); a frame resent 8 times takes the port DOWN. -/
def resendAll (n : Nat) (s : State) : State :=
  let s1 := sendAgain n (modPort n (fun p =>
    { p with unacked := p.unacked.map fun u => { u with resent := u.resent + 1 } }) s)
  if (getPort s1 n).unacked.any fun u => decide (8 ≤ u.resent) then portDown n s1 else s1

/-- Whether a port receives. -/
def portLive (s : State) (n : Nat) : Bool := decide ((getPort s n).state = .up) || decide ((getPort s n).state = .cal)

/-- A frame of a TYPE comes on a port: checked, and handed on. One of a TYPE above 2 is discarded, counted where a check of
R323 fails. -/
def frameIn (type n : Nat) (f : Frame) (go : State → State) (s : State) : State :=
  if !portLive s n ∨ (f.type ≠ type ∧ f.type ≤ 2) then s
  else if !frameOk s n f then bump .sqLinkErr n s
  else if f.type ≠ type then s
  else go (takeAck n f s)

/-- SQ_FRAME_RX: a DATA frame. One out of sequence is discarded and answered with NAK; the flits of one in sequence leave the
port's buffer, and the ACK returns their credits (R320, R324, log 110). -/
def dataIn (n : Nat) (f : Frame) (s : State) : State :=
  if f.seq ≠ (getPort s n).rxSeq then emit (answerFrame s n 2 f.srcMac 0 0) s
  else
    let s1 := modPort n (fun p => { p with rxSeq := (p.rxSeq + 1) % 2 ^ 24 }) s
    emit (answerFrame s1 n 1 f.srcMac f.vl f.flits) s1

/-- SQ_PORT_UP: a DOWN port has retrained; frames that waited on it go again, and those that waited on other DOWN ports come to
the ports that now reach their packages. -/
def portUp (n : Nat) (s : State) : State :=
  if (getPort s n).state ≠ .down then s
  else
    let s1 := sendAgain n (modPort n (fun p =>
      { p with state := .up, unacked := p.unacked.map fun u => { u with resent := 0 } }) s)
    flushWaiting (forEach ((s1.sq.ports.filter fun e => decide (e.1 ≠ n) && decide (e.2.state = .down)).map (·.1)) moveFrames s1)

/-! ## The commands -/

/-- SQ_FRAME_RX (R323). -/
def execSqFrameRx (n : Nat) (f : Frame) (s : State) : Host.Outcome State Fault Refusal :=
  running s (frameIn 0 n f (dataIn n f))

/-- SQ_ACK (R324). -/
def execSqAck (n : Nat) (f : Frame) (s : State) : Host.Outcome State Fault Refusal := running s (frameIn 1 n f id)

/-- SQ_NAK (R324). -/
def execSqNak (n : Nat) (f : Frame) (s : State) : Host.Outcome State Fault Refusal :=
  running s (frameIn 2 n f (resendAll n))

/-- SQ_RETRANS_TIMEOUT (R324). -/
def execSqRetransTimeout (n : Nat) (dead : Bool) (s : State) : Host.Outcome State Fault Refusal :=
  running s (fun t => if !portLive t n ∨ (getPort t n).unacked = [] then t
    else if dead then portDown n t else resendAll n t)

/-- SQ_PORT_UP (R324). -/
def execSqPortUp (n : Nat) (s : State) : Host.Outcome State Fault Refusal := running s (portUp n)

end Sys2Proof.Machine
end

