-- ==== Sys2Proof/Machine/Chains.lean ====
section
/-!
DEFINITION. Chains that abort, and the collectives that fall with them (R115, R327, R334, R335): the groups of a job, the
collectives under way, retirement, and the abort of a chain or a collective.
-/

namespace Sys2Proof.Machine

/-! ## Groups -/

/-- A group of a job. -/
def groupOf (s : State) (j g : Nat) : Option SqGroup := (getJob s j).bind fun x => tabFind g x.groups

/-- Changes a group. -/
def modGroup (j g : Nat) (f : SqGroup → SqGroup) (s : State) : State :=
  modJob j (fun x => match tabFind g x.groups with
    | some y => { x with groups := tabIns g (f y) x.groups }
    | none => x) s

/-- Whether a package rank is this package's. -/
def hereRank (s : State) (j pr : Nat) : Bool := decide ((getJob s j).map (·.rank) = some pr)

/-- Number of the package with a rank of a job. -/
def rankPkg (s : State) (j pr : Nat) : Nat := (jobPkgs s j).getD pr 0

/-- Members of a group on this package: rank and cluster, ascending. -/
def localRanks (s : State) (j : Nat) (g : SqGroup) : List (Nat × Nat) :=
  (g.members.zipIdx.filter fun m => hereRank s j m.1.1).map fun m => (m.2, m.1.2)

/-- Rank of a cluster of this package in a group. -/
def rankOf (s : State) (j : Nat) (g : SqGroup) (cl : Nat) : Option Nat :=
  ((localRanks s j g).find? fun m => decide (m.2 = cl)).map (·.1)

/-- The update side of a job. -/
def updOf (s : State) (j : Nat) : Option UpdSt := (getJob s j).bind (·.upd)

/-- Changes it. -/
def modUpd (j : Nat) (f : UpdSt → UpdSt) (s : State) : State := modJob j (fun x => { x with upd := x.upd.map f }) s

/-! ## Collectives under way (R330 to R337) -/

/-- Step J that the low 32 bits name, near the job's own (R325, R336). -/
def fullStep (j step : Nat) : Nat :=
  let d := (j % 2 ^ 32 + 2 ^ 32 - step % 2 ^ 32) % 2 ^ 32
  if d < 2 ^ 31 then j - d else j + (2 ^ 32 - d)

/-- A step of a job is to be rolled back (R337). -/
def spoil (j step : Nat) (s : State) : State := modJob j (fun x => { x with spoiled := setIns step x.spoiled }) s

/-- An abort invalidates the job's current step; when the step was rolled back for an abort before, the job falls (R335). -/
def spoilAbort (j : Nat) (s : State) : State :=
  match getJob s j with
  | none => s
  | some x =>
    if x.abortedStep = some x.j ∧ !x.spoiled.contains x.j then faultJob j .sqCollAborted s
    else modJob j (fun y => { y with abortedStep := some x.j }) (spoil j x.j s)

/-- Place of a collective's card among a cluster's. -/
def collIdx (c : Cluster) (g q : Nat) : Option Nat :=
  c.colls.findIdx? fun r => decide (fld r.card.w2 11 0 = g) && decide (r.collSeq = q)

/-- Whether a collective is the one with a job, group and sequence. -/
def isColl (j g q : Nat) (x : Coll) : Bool := decide (x.job = j) && decide (x.group = g) && decide (x.seq = q)

/-- A collective under way. -/
def findColl (s : State) (j g q : Nat) : Option Coll := s.sq.colls.find? (isColl j g q)

/-- Changes a collective. -/
def modColl (j g q : Nat) (f : Coll → Coll) (s : State) : State :=
  { s with sq := { s.sq with colls := s.sq.colls.map fun x => if isColl j g q x then f x else x } }

/-- Ends a collective's state on this package; its context and pages come back (R332). -/
def dropColl (j g q : Nat) (s : State) : State :=
  let held := match findColl s j g q with
    | some x => x.ctxRd
    | none => none
  let w := ((groupOf s j g).map (·.window)).getD 0
  let ctxs := match held with
    | some rd => s.sq.ctxs.erase (rd, jobPart j, w)
    | none => s.sq.ctxs
  { s with sq := { s.sq with colls := s.sq.colls.filter fun x => !isColl j g q x, ctxs := ctxs } }

/-- The number by which the norm reduction of a job's step aborts on its group (R310, log 109). -/
def normSeq (j : Nat) : Nat := 2 ^ 32 + j % 2 ^ 32

/-! ## Retirement and abort, one use or one collective at a time -/

/-- The rest of a retirement, after the card's writes: completion record, chain, abort of the chain alone, and the job's fall
(R115, R117, R396). A CHAIN_LAST card of a chain aborted for its arrivals reports CHAIN_ARRIVAL_OVF (R113). -/
def settleCard (cl : Nat) (q : QCard) (r : Report) (s : State) : State :=
  let ovf : Bool := match useChain (getCl s cl) q.card.chain q.ord.use with
    | some h => decide (h.abort = some .arrivalOvf) && q.card.last
    | none => false
  let r' := if ovf then { r with status := Status.chainArrivalOvf } else r
  let s1 := complete cl q.card r' s
  let s2 := if benign r.status || q.card.chain == 0 then s1 else dropUse cl q.card.chain q.ord.use .failed s1
  let s3 := chainRetire cl q.card q.ord s2
  if fatalStatus r.status then faultJob q.card.job r.status s3 else s3

/-- Takes a card off the Squall engine's queue and retires it with SQ_COLL_ABORTED (R335). -/
def endColl (cl k : Nat) (s : State) : State :=
  match (getCl s cl).colls[k]? with
  | none => s
  | some r => settleCard cl ⟨r.card, r.ord⟩ (Report.of .sqCollAborted 0) (modCl cl (dropCollQ k) s)

/-- Ends the norm reduction under way on a group: its posters' chains abort (R313). -/
def dropNorm (j : Nat) (s : State) : State :=
  match updOf s j with
  | none => s
  | some u =>
    forEach u.posters (fun p t => if p.chain = 0 then t else dropUse p.cl p.chain p.use .failed t)
      (modUpd j (fun v => { v with partials := [], posters := [] }) s)

/-- The detail of an event that names a collective (R335). -/
def collDetail (j g q : Nat) : Nat := j % 2 ^ 16 + g * 2 ^ 16 + q % 2 ^ 32 * 2 ^ 32

/-- A collective, or the norm reduction of a step, aborts on this package (R335), with the cause that this package knows: its
cards end, its context and pages come back, and the step is spoiled. -/
def abortHere (j g q : Nat) (cause : Status) (s : State) : State :=
  match groupOf s j g with
  | none => s
  | some x =>
    if x.aborted.contains q then s
    else
      let p := jobPart j
      let s1 := dropColl j g q (modGroup j g (fun y => { y with aborted := setIns q y.aborted }) s)
      let s2 := if q = normSeq ((getJob s j).map (·.j) |>.getD 0) then dropNorm j s1
        else forEach (localRanks s j x) (fun m t => match collIdx (getCl t m.2) g q with
          | some k => endColl m.2 k t
          | none => t) s1
      let s3 := modPart p (fun y =>
        { y with abortLast := ⟨j, g, q % 2 ^ 32, .sqCollAborted, cause, s.tk.tick % 2 ^ 32⟩ }) s2
      spoilAbort j (raise .sqCollAborted p (collDetail j g q) (bump .sqAborts p s3))

/-- Rim die of the package root of a group on a package rank (R333): the home rim die of its lowest rank there. -/
def rootRd (g : SqGroup) (pr : Nat) : Nat := match g.members.find? fun m => decide (m.1 = pr) with
  | some m => clRd m.2
  | none => 0

/-- Sends a CTRL message about a group from this package's root to that of another (R322, R333). -/
def sendRoot (pkg : Nat) (h : Head) (o : Out) (s : State) : State :=
  let pr := (jobPkgs s h.job).findIdx fun k => decide (k = pkg)
  let own := ((getJob s h.job).map (·.rank)).getD 0
  let rd := fun (k : Nat) => 56 + ((groupOf s h.job h.group).map fun g => rootRd g k).getD 0
  sendCtrlOut pkg (rd own) (rd pr) h o s

/-- A member here aborts a collective: ABORT goes to every other package of the job (R335). -/
def abortColl (j g q : Nat) (cause : Status) (s : State) : State :=
  let pkgs := match groupOf s j g with
    | some x => if x.aborted.contains q then [] else otherPkgs s j
    | none => []
  abortHere j g q cause (forEach pkgs (fun k t => sendRoot k (headOf j g q) (.abortMsg k j g q) t) s)

/-! ## What falls with an aborted chain (R334) -/

/-- Whether a use of a chain has aborted. -/
def useAborted (s : State) (cl ch use : Nat) : Bool :=
  decide (ch ≠ 0) && match useChain (getCl s cl) ch use with
    | some h => h.abort.isSome
    | none => false

/-- Collectives and norm reductions of which a member's chain here has aborted (R313, R334): job, group, number. -/
def brokenColls (s : State) : List (Nat × Nat × Nat) :=
  (s.clusters.flatMap fun e => (e.2.colls.filter fun r => useAborted s e.1 r.card.chain r.ord.use).map fun r =>
      (r.card.job, fld r.card.w2 11 0, r.collSeq))
    ++ s.jobs.filterMap fun e => match e.2.upd with
      | some u => if u.posters.any fun p => useAborted s p.cl p.chain p.use then some (e.1, u.normGroup, normSeq e.2.j) else none
      | none => none

/-- Aborts broken collectives, one after another, with cause SQ_MEMBER_FAILED (R334); the count bounds them. -/
def fellN : Nat → State → State
  | 0, s => s
  | n + 1, s => match brokenColls s with
    | [] => s
    | c :: _ => fellN n (abortColl c.1 c.2.1 c.2.2 .sqMemberFailed s)

/-- Collectives fall with the chains that hold their cards (R334). Each of them ends at most once. -/
def fellColls (s : State) : State := fellN ((s.clusters.map fun e => e.2.colls.length).sum + s.jobs.length) s

/-! ## The operations -/

/-- Aborts a use of a chain, and with it the collectives of its cards (R115, R334). -/
def abortUse (cl ch use : Nat) (cause : AbortCause) (s : State) : State := fellColls (dropUse cl ch use cause s)

/-- Aborts an open chain (R115). -/
def abortChain (cl ch : Nat) (cause : AbortCause) (s : State) : State :=
  match tabFind ch (getCl s cl).chains with
  | none => s
  | some h => abortUse cl ch h.use cause s

/-- The rest of a retirement, after the card's writes; where its status aborts its chain, collectives fall with it (R115, R117,
R334, R396). -/
def settle (cl : Nat) (q : QCard) (r : Report) (s : State) : State :=
  let t := settleCard cl q r s
  if benign r.status || q.card.chain == 0 then t else fellColls t

/-- An arrival for a chain of a cluster (R113): at 65,535 the count sticks and the chain aborts. -/
def chainArrive (cl ch : Nat) (s : State) : State :=
  let n := tabGet 0 (getCl s cl).arrivals ch
  if n = 65535 then abortChain cl ch .arrivalOvf s
  else modCl cl (fun x => { x with arrivals := tabSet 0 x.arrivals ch (n + 1) }) s

/-- An abort comes to this package (R335). -/
def applyAbort (j g q : Nat) (cause : Status) (s : State) : State := fellColls (abortHere j g q cause s)

/-- A member here aborts a collective (R334, R335). -/
def beginAbort (j g q : Nat) (cause : Status) (s : State) : State := fellColls (abortColl j g q cause s)

/-- Collectives and norm reductions of jobs that are ending abort too (R334). -/
def endedColls (s : State) : List (Nat × Nat × Nat) :=
  let cards := s.clusters.flatMap fun e => e.2.colls.map fun r => (r.card.job, fld r.card.w2 11 0, r.collSeq)
  let norms := s.jobs.filterMap fun e => match e.2.upd with
    | some u => if u.posters = [] then none else some (e.1, u.normGroup, normSeq e.2.j)
    | none => none
  (cards ++ norms).filter fun c => match getJob s c.1 with
    | some x => x.ending.isSome
    | none => false

/-- SQ_MEMBER_FAILED of jobs that are torn down (R334). -/
def sweepColls (s : State) : State := forEach (endedColls s) (fun c t => beginAbort c.1 c.2.1 c.2.2 .sqMemberFailed t) s

/-- Poison: counted, recorded, raised, and the step it names is spoiled (R336 to R338). -/
def applyPoison (j g q step : Nat) (s : State) : State :=
  match getJob s j with
  | none => s
  | some x =>
    let p := jobPart j
    let s1 := modPart p (fun y => { y with abortLast := ⟨j, g, q, .sqPoison, .ok, s.tk.tick % 2 ^ 32⟩ }) s
    spoil j (fullStep x.j step) (raise .sqPoison p (collDetail j g q) (bump .sqPoisons p s1))

/-- The finder of a wrong chunk or transfer sends POISON to every member package of the job (R336, R337). -/
def raisePoison (h : Head) (s : State) : State :=
  applyPoison h.job h.group h.seq h.step
    (forEach (otherPkgs s h.job) (fun k t => sendRoot k h (.poisonMsg k h.job h.group h.seq h.chunk h.step) t) s)

end Sys2Proof.Machine
end

