-- ==== Sys2Proof/Machine/Access.lean ====
section
/-!
DEFINITION. Memory tiers (R157 to R166): tier addresses, regions, the checks of R159 and R164, and the bytes of a region.
-/

namespace Sys2Proof.Machine

/-- A byte range of a region of this package. -/
structure Place where
  rd : Nat
  region : Nat
  off : Nat
deriving DecidableEq, Repr

/-- A region-table entry (R162). -/
def regionOf (s : State) (rd h : Nat) : Option Region := tabFind (256 * rd + h) s.mt.regions

/-- Local channels of a CHMASK, ascending (R163). -/
def maskChans (m : Nat) : List Nat := (List.range 16).filter fun c => m / 2 ^ c % 2 == 1

/-- Local channel and byte position of a region offset (R163). -/
def locate (e : Region) (off : Nat) : Nat × Nat :=
  let cs := maskChans e.chmask
  let n := cs.length
  let page := off / 4096
  (cs.getD (page % n) 0, e.base + page / n * 4096 + off % 4096)

/-- Key of a byte of a region of rim die `rd`. -/
def nearKey (rd : Nat) (e : Region) (off : Nat) : Nat :=
  let (c, b) := locate e off
  chanKey (16 * rd + c) b

/-- Bytes of a region. -/
def regionBytes (s : State) (rd : Nat) (e : Region) (off n : Nat) : List Byte :=
  (List.range n).map fun i => memByte s.mem (nearKey rd e (off + i))

/-- The writes that put bytes into a region from an offset on. -/
def regionWrites (rd : Nat) (e : Region) : Nat → List Byte → List (Nat × Byte)
  | _, [] => []
  | off, b :: bs => (nearKey rd e off, b) :: regionWrites rd e (off + 1) bs

/-- A 64-bit word of a region. -/
def regionWord (s : State) (rd : Nat) (e : Region) (off : Nat) : W64 :=
  BitVec.ofNat 64 (leNat (regionBytes s rd e off 8))

/-- Keys, in 64-byte lines, of the lines of a region range. -/
def regionLines (rd : Nat) (e : Region) (off lines : Nat) : List Nat :=
  (List.range lines).map fun i => nearKey rd e (off + 64 * i) / 64

/-- Package channels that a region range touches. -/
def regionChans (rd : Nat) (e : Region) (off lines : Nat) : List Nat :=
  (List.range lines).map fun i => 16 * rd + (locate e (off + 64 * i)).1

/-- What an access does (R164). -/
inductive Acc where
  | rd
  | wr
  | add
deriving DecidableEq, Repr

/-- R164's checks of an access against a region entry: `near` when it is the requester's home rim die. -/
def ownerCheck (e : Region) (part job cls die cl : Nat) (near : Bool) (a : Acc) : Option Status :=
  if !(decide (e.job = job) || (decide (a = .rd) && e.grant.toNat / 2 ^ part % 2 == 1)) then some .mtNotOwner
  else if e.cls ≠ cls then some .mtNotOwner
  else match a with
    | .rd => if near then (if e.owner = die || e.sealed then none else some .mtNotOwner)
      else if e.sealed then none else some .mtNotOwner
    | _ =>
      if !near then some .mtReadOnly
      else if e.sealed then some .mtReadOnly
      else if e.owner ≠ die then some .mtNotOwner
      else if a = .add ∧ e.accumCluster ≠ cl % 32 then some .mtNotOwner
      else none

/-- What a tier address of TIER 2 to 4 names. -/
inductive Where where
  | here (rd h off : Nat)
  | remote (pkg rd h off : Nat)
deriving DecidableEq, Repr

/-- Takes a 64-bit tier address of TIER 2, 3 or 4 apart (R158, R159) for a requester on a die. -/
def tierAddr (s : State) (die : Nat) (a : W64) : Option Where :=
  let pkg := fld a 60 51
  let rd := fld a 50 48
  let h := fld a 47 40
  let off := fld a 39 0
  match fld a 63 61 with
  | 2 => if pkg = 0 ∧ rd = 0 then some (.here (homeRd die) h off) else none
  | 3 => if pkg = 0 ∧ rd ≠ homeRd die then some (.here rd h off) else none
  | 4 => if pkg ≠ s.wn.pkg then some (.remote pkg rd h off) else none
  | _ => none

/-- The checks of R159 and R164 for `bytes` bytes of this package's memory: a place, or the status. -/
def access (s : State) (part job cls cl : Nat) (rd h off bytes : Nat) (a : Acc) : Except Status Place :=
  match regionOf s rd h with
  | none => .error .mtAddrInvalid
  | some e =>
    if e.len ≤ off ∨ e.len < off + bytes then .error .mtAddrInvalid
    else match ownerCheck e part job cls (clDie cl) cl (decide (rd = homeRd (clDie cl))) a with
      | some st => .error st
      | none => .ok ⟨rd, h, off⟩

/-- Whether any of the package channels has FAILED (R180). -/
def anyFailed (s : State) (chs : List Nat) : Bool := chs.any fun c => decide ((getChan s c).state = .failed)

/-- A read of a region by firmware or an engine of the package: the bytes, or MT_CHANNEL_FAILED or MT_UNCORRECTABLE. -/
def readPlace (s : State) (p : Place) (n : Nat) : Except Status (List Byte) :=
  match regionOf s p.rd p.region with
  | none => .error .mtAddrInvalid
  | some e =>
    let lines := (p.off % 64 + n + 63) / 64
    let o := p.off - p.off % 64
    if anyFailed s (regionChans p.rd e o lines) then .error .mtChannelFailed
    else if (regionLines p.rd e o lines).any s.mt.poison.contains then .error .mtUncorrectable
    else .ok (regionBytes s p.rd e p.off n)

/-- Writes bytes into a region, but for those on a FAILED channel (R180); a full-line write clears POISON (R179). -/
def writePlace (rd h off : Nat) (bs : List Byte) (s : State) : State :=
  match regionOf s rd h with
  | none => s
  | some e =>
    let full := (List.range (bs.length / 64 + 1)).filter fun i =>
      decide (off ≤ (off + 63) / 64 * 64 + 64 * i) && decide ((off + 63) / 64 * 64 + 64 * i + 64 ≤ off + bs.length)
    let cleared := full.map fun i => nearKey rd e ((off + 63) / 64 * 64 + 64 * i) / 64
    let s1 := putMem ((regionWrites rd e off bs).filter (served s)) s
    { s1 with mt := { s1.mt with poison := s1.mt.poison.filter fun k => !cleared.contains k } }

/-- A 48-bit near address of a die: rim die, handle, offset (R158). -/
def nearAddr (die : Nat) (a : Nat) : Nat × Nat × Nat := (homeRd die, a / 2 ^ 40 % 256, a % 2 ^ 40)

/-- Reads `n` bytes at a near address for a cluster of a job and class. -/
def readNear (s : State) (part job cls cl a n : Nat) : Except Status (List Byte) :=
  let (rd, h, off) := nearAddr (clDie cl) a
  match access s part job cls cl rd h off n .rd with
  | .error st => .error st
  | .ok p => readPlace s p n

/-- A card in 64 bytes. -/
def cardOf (bs : List Byte) : Card :=
  let w := fun i => BitVec.ofNat 64 (leNat ((bs.drop (8 * i)).take 8))
  ⟨w 0, w 1, w 2, w 3, w 4, w 5, w 6, w 7⟩

end Sys2Proof.Machine
end

