-- ==== Sys2Proof/Machine/Rng.lean ====
section
/-!
DEFINITION. Random bits (R138 to R150): the lagged-sum generator, seeding, stream numbers, free and pinned draws.
-/

namespace Sys2Proof.Machine

/-- rotr by 9 of a 32-bit word. -/
def rotr9 (w : W32) : W32 := w.rotateRight 9

/-- One draw: the tempered word and the next state (R138); the state is x(n − 31) … x(n − 1). -/
def drawOne (st : List W32) : W32 × List W32 :=
  let x := st.getD 0 0#32 + st.getD 18 0#32
  (x ^^^ rotr9 (st.getD 11 0#32), st.drop 1 ++ [x])

/-- `n` draws in order, and the state after them. -/
def drawMany : Nat → List W32 → List W32 × List W32
  | 0, st => ([], st)
  | n + 1, st =>
    let (y, st') := drawOne st
    let (ys, st'') := drawMany n st'
    (y :: ys, st'')

/-- mix64 of R142. -/
def mix64 (z : W64) : W64 :=
  let a := (z ^^^ (z >>> 30)) * 0xBF58476D1CE4E5B9#64
  let b := (a ^^^ (a >>> 27)) * 0x94D049BB133111EB#64
  b ^^^ (b >>> 31)

/-- key of R142. -/
def rngKey (seed : W64) (tensor step : Nat) : W64 :=
  mix64 (seed ^^^ mix64 (BitVec.ofNat 64 (tensor * 2 ^ 32 + step)))

/-- seed_state of R142: x(0) to x(30), the last one odd. -/
def seedState (k stream : W64) : List W32 :=
  let z := mix64 (k ^^^ mix64 stream)
  let w := fun (i : Nat) => mix64 (z + BitVec.ofNat 64 (i + 1) * 0x9E3779B97F4A7C15#64)
  let half := fun (j : Nat) => if j % 2 = 0 then (w (j / 2)).truncate 32 else ((w (j / 2)) >>> 32).truncate 32
  (List.range 30).map half ++ [half 30 ||| 1#32]

/-- Stream number of kind FREE (R140). `source` 0–7 physical unit, 8 vector, 9 epilogue, 10 random, 11 sampler. -/
def freeStream (part cl source lane : Nat) : W64 :=
  BitVec.ofNat 64 (part * 2 ^ 58 + clDie cl * 2 ^ 52 + cl / 8 % 4 * 2 ^ 50 + cl % 8 * 2 ^ 47 + source * 2 ^ 43 + lane * 2 ^ 36)

/-- Stream number of kind TILE (R140). -/
def tileStream (rowTile colTile column : Nat) : W64 :=
  BitVec.ofNat 64 (1 * 2 ^ 62 + rowTile % 2 ^ 18 * 2 ^ 44 + colTile % 2 ^ 32 * 2 ^ 12 + column)

/-- Stream number of kind SAMPLE (R140). -/
def sampleStream (position vtile column : Nat) : W64 :=
  BitVec.ofNat 64 (2 * 2 ^ 62 + position % 2 ^ 18 * 2 ^ 38 + vtile * 2 ^ 32 + column)

/-- Stream number of kind VECTOR (R140). -/
def vectorStream (vtile column : Nat) : W64 := BitVec.ofNat 64 (3 * 2 ^ 62 + vtile % 2 ^ 18 * 2 ^ 44 + column)

/-- RSEL of a card (R141): word 7. -/
structure RSel where
  pinned : Bool
  tensor : Nat
  rowTile : Nat
  step : Nat
deriving DecidableEq, Repr

/-- The fields of an RSEL word. -/
def rselOf (w : W64) : RSel := ⟨flag w 0, fld w 13 2, fld w 31 14, fld w 63 32⟩

/-- R141's checks of an RSEL: `draws` when the card rounds stochastically or draws, `tiles` row tiles from ROWTILE on. -/
def rselCheck (w : W64) (draws : Bool) (tiles : Nat) : Option Status :=
  if !flag w 0 && decide (w ≠ 0#64) then some .rgRselInvalid
  else if !draws && decide (w ≠ 0#64) then some .rgRselInvalid
  else if flag w 0 && decide (2 ^ 18 < fld w 31 14 + tiles) then some .rgTileRange
  else none

/-- The words y(31), y(32), … of a pinned tile column, `n` of them (R145). -/
def tileWords (seed : W64) (r : RSel) (rowTile colTile column n : Nat) : List W32 :=
  (drawMany n (seedState (rngKey seed r.tensor r.step) (tileStream rowTile colTile column))).1

/-- Seed of the cluster's job. -/
def clSeed (s : State) (cl : Nat) : W64 :=
  match (getCl s cl).owner with
  | some (_, _, j) => match getJob s j with
    | some x => x.seed
    | none => 0#64
  | none => 0#64

/-- State of a free-mode generator of a cluster: where it has not drawn yet, its admission seeding (R144). -/
def freeGen (s : State) (cl source lane : Nat) : List W32 :=
  let part := match (getCl s cl).owner with
    | some (_, p, _) => p
    | none => 0
  (tabFind (66 * source + lane) (getCl s cl).gens).getD
    (seedState (rngKey (clSeed s cl) 0 0) (freeStream part cl source lane))

/-- Draws `n` words from a free-mode generator. -/
def freeDraw (cl source lane n : Nat) (s : State) : List W32 × State :=
  let (ys, st) := drawMany n (freeGen s cl source lane)
  (ys, modCl cl (fun c => { c with gens := tabIns (66 * source + lane) st c.gens }) s)

/-- Row-column words of `rows` × `cols` elements in free mode, column by column, each from its own generator. -/
def freeGrid (cl source : Nat) (lanes : List Nat) (rows : Nat) (s : State) : List (List W32) × State :=
  lanes.foldl (fun (acc : List (List W32) × State) l =>
    let (ys, t) := freeDraw cl source l rows acc.2
    (acc.1 ++ [ys], t)) ([], s)

/-- The pinned word of card row `row`, column word lists given per row tile: word r = row mod 64 of tile
ROWTILE + ⌊row / 64⌋ (R145). -/
def pinnedColumn (seed : W64) (r : RSel) (colTile column rows : Nat) : List W32 :=
  (List.range ((rows + 63) / 64)).flatMap fun t =>
    tileWords seed r (r.rowTile + t) colTile column (min 64 (rows - 64 * t))

end Sys2Proof.Machine
end

