-- ==== Sys2Proof/Machine/Operands.lean ====
section
/-!
DEFINITION. Operand forms: elements and rows of a pool, lane-store columns with their scales and checksums, and the
checks of card fields.
-/

namespace Sys2Proof.Machine

/-! ## Field checks (R110) -/

/-- A failed check: status, and for CARD_FIELD_INVALID the word and lowest bit of the first offending field (R117). -/
abbrev Chk := Option (Status × Nat × Nat)

/-- Fails with a status when the condition holds. -/
def bad (c : Bool) (st : Status) : Chk := if c then some (st, 0, 0) else none

/-- Fails with CARD_FIELD_INVALID naming word `w`, bit `b`, when the condition holds. -/
def badField (c : Bool) (w b : Nat) : Chk := if c then some (.cardFieldInvalid, w, b) else none

/-- The first failure of a list of checks. -/
def firstBad : List Chk → Chk
  | [] => none
  | none :: t => firstBad t
  | some x :: _ => some x

/-- RESERVED_NONZERO when any of the bit ranges (word, high, low) of a card is not zero (R13). -/
def reserved (c : Card) (l : List (Nat × Nat × Nat)) : Chk :=
  bad (l.any fun r => decide (fld (cardWord c r.1) r.2.1 r.2.2 ≠ 0)) .reservedNonzero

/-- POOL_RANGE_INVALID unless the lines lie inside the job area (R103). -/
def poolRange (line n : Nat) : Chk := bad (decide (line < 4096) || decide (65536 < line + n)) .poolRangeInvalid

/-- The range of `rows` rows of `n` lines, `stride` lines apart. -/
def rowsRange (line stride rows n : Nat) : Chk := poolRange line ((rows - 1) * stride + n)

/-- CARD_TOO_LONG above 7,520 cycles (R22). -/
def tooLong (t : Nat) : Chk := bad (decide (7520 < t)) .cardTooLong

/-! ## Elements -/

/-- Code of element `j` of a packed row that starts at a byte key; 4-bit elements low nibble first (R126). -/
def elemAt (m : List Host.Cell) (key fmt j : Nat) : Nat :=
  match fmtWidth fmt with
  | 4 => (memByte m (key + j / 2)).toNat / (if j % 2 = 0 then 1 else 16) % 16
  | 8 => (memByte m (key + j)).toNat
  | 16 => memNat m (key + 2 * j) 2
  | _ => memNat m (key + 4 * j) 4

/-- Lines of a row of `n` elements of a format. -/
def rowLines (fmt n : Nat) : Nat := (n * fmtWidth fmt + 511) / 512

/-- Packs pairs of 4-bit codes into bytes. -/
def packNibbles : List Nat → List Byte
  | a :: b :: t => BitVec.ofNat 8 (a % 16 + 16 * b) :: packNibbles t
  | [a] => [BitVec.ofNat 8 (a % 16)]
  | [] => []

/-- Bytes of a packed row of codes of a width. -/
def packRow (width : Nat) (codes : List Nat) : List Byte :=
  match width with
  | 4 => packNibbles codes
  | 8 => codes.map (BitVec.ofNat 8)
  | 16 => codes.flatMap (leBytes 2)
  | _ => codes.flatMap (leBytes 4)

/-- Row of `n` pool elements widened exactly to FP32. -/
def poolRow32 (s : State) (cl line fmt n : Nat) : List W32 :=
  (List.range n).map fun j => widen fmt (elemAt s.mem (poolKey cl (64 * line)) fmt j)

/-- FP32 words of the pool. -/
def poolW32 (s : State) (cl line n : Nat) : List W32 := w32sOf s.mem (poolKey cl (64 * line)) n

/-- Value of a block scale code; an infinite BI4 scale acts as NaN (R51). -/
def scaleVal (fmt code : Nat) : Val :=
  if fmt = 0 then (if code % 256 = 255 then .nan else .fin false 1 ((code % 256 : Nat) - 127))
  else match decElem 6 code with
    | .inf _ => .nan
    | v => v

/-- Whether a block scale code is NaN (R60). -/
def scaleNan (fmt code : Nat) : Bool :=
  if fmt = 0 then code % 256 == 255 else (decElem 6 code).isNan

/-- Whether a format has block scales. -/
def scaled (fmt : Nat) : Bool := decide (fmt < 2)

/-- An operand element: its exact value with its block scale applied, and whether an input was NaN. -/
structure Elem where
  v : Val
  nan : Bool
deriving DecidableEq, Repr

/-- An unscaled element. -/
def plainElem (fmt code : Nat) : Elem := let v := decElem fmt code; ⟨v, v.isNan⟩

/-- A block-scaled element. -/
def scaledElem (fmt code scale : Nat) : Elem := ⟨(decElem fmt code).mul (scaleVal fmt scale), scaleNan fmt scale⟩

/-- Elements of a broadcast row of `n` elements (R118): scales of a BF4 row one byte a block, of a BI4 row two, from the
row's scale line on, as QUANT lays them out (R126). -/
def bcastRow (s : State) (cl line fmt scaleLine n : Nat) : List Elem :=
  (List.range n).map fun j =>
    let c := elemAt s.mem (poolKey cl (64 * line)) fmt j
    if fmt = 0 then scaledElem 0 c (memByte s.mem (poolKey cl (64 * scaleLine + j / 32))).toNat
    else if fmt = 1 then scaledElem 1 c (memNat s.mem (poolKey cl (64 * scaleLine + 2 * (j / 32))) 2)
    else plainElem fmt c

/-! ## Lane stores (R46, R51, R233, R234) -/

/-- The Contrail context of a job. -/
def jobCtx (s : State) (j : Nat) : Option Ctx :=
  match getJob s j with
  | some x => x.ctx.bind fun c => tabFind c s.lrn.ctxs
  | none => none

/-- Bank in use on a cluster: BANK_BYTES and the active bank of a banked GEN cluster, none elsewhere (R233). -/
def bankOf (s : State) (cl : Nat) : Option (Nat × Nat) :=
  match (getCl s cl).owner with
  | some (0, _, j) => (jobCtx s j).map fun c => (c.bankBytes, c.activeBank)
  | _ => none

/-- Bytes of the lane store that a card may address (R234). -/
def bankLimit (s : State) (cl : Nat) : Nat :=
  match bankOf s cl with
  | some (b, _) => b
  | none => 65536

/-- First byte of the bank in a data lane. -/
def bankBase (s : State) (cl : Nat) : Nat :=
  match bankOf s cl with
  | some (b, a) => a * b
  | none => 0

/-- First byte of the bank in lane 64. -/
def sumBase (s : State) (cl : Nat) : Nat :=
  match bankOf s cl with
  | some (_, a) => a * 262144
  | none => 0

/-- Physical lane that stands for a logical data lane of a unit (R57). -/
def physLane (u : UnitSt) (l : Nat) : Nat := if u.spareInUse ∧ u.spareFor = l then 65 else l

/-- Weights k = 0 … n − 1 of a lane from byte `off` of its store on, with their block scales (R51). -/
def laneWeights (s : State) (unit lane off fmt n : Nat) : List Elem :=
  (List.range n).map fun k =>
    let c := elemAt s.mem (laneKey unit lane off) fmt k
    if scaled fmt then
      scaledElem fmt c (memNat s.mem (scaleKey unit lane ((off + k / 32 * 16) / 8)) 2)
    else plainElem fmt c

/-- Column checksums ŝ_k of element indices `e` … of lane 64, from the bank's half on (R233). -/
def laneSums (s : State) (unit base e n : Nat) : List Elem :=
  (List.range n).map fun k =>
    let v := val32 (memW32 s.mem (laneKey unit 64 (base + 4 * (e + k))))
    ⟨v, v.isNan⟩

end Sys2Proof.Machine
end

