-- ==== Sys2Proof/Machine/Engine.lean ====
section
/-!
DEFINITION. How an engine issues the card at the head of its queue, and how a card retires (R105 to R117, R442, R443).
-/

namespace Sys2Proof.Machine

/-- A run of a card that has computed nothing yet. -/
def runOf (q : QCard) : Run :=
  { card := q.card, ord := q.ord, status := .ok, nanIn := false, nanGen := false, ovf := false, writes := [], cycles := 0,
    mode := 0, attempt := .first, host := 0, file := [], result := [], pairs := [], chunks := 0, peakA := -126,
    peakT := -126, prev := [], onMain := false, issueTick := 0, chans := [], landed := [], collSeq := 0, finish := none,
    discard := false }

/-- What an engine computes for a card. -/
structure Work where
  status : Status
  flags : Flags
  writes : List (Nat × Byte)
  cycles : Nat
deriving DecidableEq, Repr

/-- The run of a card with its work. -/
def Work.run (w : Work) (q : QCard) : Run :=
  { runOf q with status := w.status, nanIn := w.flags.nanIn, nanGen := w.flags.nanGen, ovf := w.flags.ovf,
                 writes := w.writes, cycles := w.cycles }

/-- The cluster is awake: its engines run (R438). -/
def awake (c : Cluster) : Bool := decide (c.pm = .clear) || decide (c.pm = .haze)

/-- An engine can take a card: the job issues, the cluster is awake, and nothing runs on it. -/
def engineFree (s : State) (cl key : Nat) : Bool :=
  match (getCl s cl).owner with
  | none => false
  | some (_, _, j) => jobIssues s j && awake (getCl s cl) && (tabFind key (getCl s cl).runs).isNone

/-- R107 without the head's waits: the engine can take a card, and the window of the card at the head is open. -/
def engineIdle (s : State) (cl key : Nat) : Bool :=
  engineFree s cl key && match (getQ (getCl s cl) key).cards with
    | q :: _ => cardWindow s cl q.card
    | [] => false

/-- Partition of a cluster's owner. -/
def clOwnerPart (s : State) (cl : Nat) : Nat :=
  match (getCl s cl).owner with
  | some (_, p, _) => p
  | none => 0

/-- Issues the head of a queue: a card that `want`s this command, whose waits are met (R107, R113), whose epoch is the
cluster's (R111) and whose charge the budget can pay (R443). `charge` is in tenths of a pJ. -/
def issueHead (cl key : Nat) (want : Card → Bool) (charge : State → QCard → Nat) (go : QCard → State → State)
    (s : State) : State :=
  match (getQ (getCl s cl) key).cards with
  | [] => s
  | q :: _ =>
    if !want q.card || !engineIdle s cl key || !waitsMet (getCl s cl) q then s
    else if q.card.epoch ≠ (getCl s cl).epoch then
      settle cl q (Report.of .cardEpochMismatch q.card.unit) (modCl cl (fun c => creditQ key (popQ key c)) s)
    else if !canPay s (clOwnerPart s cl) (charge s q) then markCapped cl s
    else go q (pay (clOwnerPart s cl) (charge s q) (modCl cl (popQ key) s))

/-- Puts a run on an engine. -/
def putRun (cl key : Nat) (r : Run) (s : State) : State := modCl cl (fun c => { c with runs := tabIns key r c.runs }) s

/-- Puts a lane-row card in execution: its unit leaves Haze (R439). -/
def putLaneRun (cl key : Nat) (r : Run) (s : State) : State :=
  putRun cl key r (if (getUnit s r.host).haze then modUnit r.host (fun u => { u with haze := false }) s else s)

/-- Issues a card of opcode `op` on engine `e` for `charge`: its run holds what it computes, and the draws that this takes are
made. -/
def issueWork (cl e op : Nat) (charge : State → QCard → Nat) (work : State → QCard → Work × State) (s : State) : State :=
  issueHead cl (8 + e) (fun c => decide (c.opcode = op)) charge
    (fun q t => putRun cl (8 + e) ((work t q).1.run q) (work t q).2) s

/-- Issues a card of opcode `op` on engine `e`, which charges `rate` tenths of a pJ a cycle and draws nothing. -/
def issueEngine (cl e op rate : Nat) (work : State → QCard → Work) (s : State) : State :=
  issueWork cl e op (fun t q => rate * (work t q).cycles) (fun t q => (work t q, t)) s

/-- Report of a run. -/
def Run.report (r : Run) (st : Status) (unit : Nat) : Report := ⟨st, unit, r.nanIn, r.nanGen, r.ovf, r.mode, 0, 0, r.cycles⟩

/-- A run that has met an uncorrectable pool word: the card ends POOL_UNCORRECTABLE and writes nothing (R102). A card that has
already failed keeps its status. -/
def Run.poolFail (r : Run) : Run :=
  if benign r.status then { r with status := .poolUncorrectable, nanIn := false, nanGen := false, ovf := false, writes := [] } else r

/-- The card of an engine retires: its writes become visible, the credit returns (R39), and the retirement settles. -/
def retireEngine (cl key : Nat) (r : Run) (s : State) : State :=
  settle cl ⟨r.card, r.ord⟩ (r.report r.status r.card.unit)
    (putMem r.writes (modCl cl (fun c => creditQ key { c with runs := tabDel key c.runs }) s))

/-- Whether a card's output leaves the chain as one narrowing, or stays in it as FP32 (R129): the format in which it is
written. -/
def outFormat (c : Card) (fmt : Nat) : Nat := if c.chain ≠ 0 ∧ !c.last then 7 else fmt

/-- Whether a card rounds stochastically (R141). -/
def stochastic (c : Card) (round : Nat) : Bool := decide (round = 1) || (c.split && decide (c.sepRound = 1))

/-- Whether a card's output is rounded as the separate form would (R131): a split-compatible card whose output stays in
the chain. -/
def splitForm (c : Card) : Bool := c.split && !c.last

/-- Whether the values of a card are rounded with a random word: SEPROUND decides in split form, ROUND else; on an FP32 output
ROUND has no effect (R58, R131). -/
def drawsWords (c : Card) (fmt round : Nat) : Bool :=
  if splitForm c then decide (c.sepRound = 1) else decide (round = 1) && decide (fmt ≠ 7)

/-- Writes one FP32 value in the form the card gives it: narrowed to `fmt` under `r`, or, in split form, rounded to SEPFMT
under `r` and widened (R131). Code and overflow flag. -/
def emitValue (c : Card) (fmt : Nat) (r : Rnd) (w : W32) : Nat × Bool :=
  if splitForm c then
    let (v, o) := sepRound c.sepFmt r w
    (v.toNat, o)
  else narrow fmt r w

end Sys2Proof.Machine
end

