-- ==== Sys2Proof/Machine/Epilogue.lean ====
section
/-!
DEFINITION. The statistic and epilogue engine (R123 to R135, R223): its eleven cards, function tables, row statistics
and finish cards.
-/

namespace Sys2Proof.Machine

/-- Fields of an epilogue card (R123). -/
structure Epi where
  inf : Nat
  outf : Nat
  round : Nat
  table : Nat
  rows : Nat
  tile : Nat
  tiles : Nat
  src : Nat
  dst : Nat
  aux : Nat
  aux2 : Nat
  ss : Nat
  ds : Nat
  parts : Nat
  ps : Nat
  scale : W32
  eps : W32
  ncols : Nat
deriving DecidableEq, Repr

/-- The fields of a card's body. -/
def epiOf (c : Card) : Epi :=
  { inf := fld c.w2 3 0, outf := fld c.w2 7 4, round := fld c.w2 9 8, table := fld c.w2 13 10, rows := fld c.w2 24 16
    tile := fld c.w2 47 32, tiles := fld c.w2 63 48, src := fld c.w3 15 0, dst := fld c.w3 31 16, aux := fld c.w3 47 32
    aux2 := fld c.w3 63 48, ss := fld c.w4 15 0, ds := fld c.w4 31 16, parts := fld c.w4 47 32, ps := fld c.w4 63 48
    scale := BitVec.ofNat 32 (fld c.w5 31 0), eps := BitVec.ofNat 32 (fld c.w5 63 32), ncols := fld c.w6 31 0 }

/-- CHAIN_OPEN's fields (R116). -/
def coBase (c : Card) : Nat := fld c.w2 15 0

/-- RESV_LINES. -/
def coLines (c : Card) : Nat := fld c.w2 31 16

/-- ROWS of CHAIN_OPEN. -/
def coRows (c : Card) : Nat := fld c.w2 40 32

/-- TILE_COUNT of CHAIN_OPEN. -/
def coTiles (c : Card) : Nat := fld c.w2 63 48

/-- NM_BASE. -/
def coNm (c : Card) : Nat := fld c.w3 47 0

/-- NM_BYTES. -/
def coNmBytes (c : Card) : Nat := fld c.w4 31 0

/-- MODE of CHAIN_OPEN. -/
def coMode (c : Card) : Nat := fld c.w4 33 32

/-- Columns of the tile below NCOLS (R124). -/
def liveCols (e : Epi) : Nat := min 64 (e.ncols - 64 * e.tile)

/-- Cards whose output is finished at close. -/
def isNorm (op : Nat) : Bool := decide (1 ≤ op) && decide (op ≤ 3)

/-- Cycles per row p (R124). -/
def epiPerRow (op mode : Nat) (e : Epi) : Nat :=
  match op with
  | 1 => if mode = 2 then 5 else 1
  | 2 => if mode = 2 then 5 else 1
  | 3 => if mode = 2 then 5 else 1
  | 6 => e.parts + 1
  | 7 => e.parts
  | _ => 1

/-- Length of an epilogue card (R124). -/
def epiLength (op mode : Nat) (e : Epi) : Nat := 8 + e.rows * epiPerRow op mode e

/-- The chain that a card names. -/
def cardChain (s : State) (cl : Nat) (c : Card) : Option Chain := tabFind c.chain (getCl s cl).chains

/-- The use of a chain in which a card was posted. -/
def postedChain (s : State) (cl : Nat) (q : QCard) : Option Chain := useChain (getCl s cl) q.card.chain q.ord.use

/-- Mode of that chain's row statistic (R132). -/
def postedMode (s : State) (cl : Nat) (q : QCard) : Nat := ((postedChain s cl q).map (·.mode)).getD 0

/-- Whether a tile index of the chain has been posted before (R132): it has come, or waits in the engine's queue. -/
def tilePosted (s : State) (cl : Nat) (c : Card) : Bool :=
  let i := (epiOf c).tile
  (match cardChain s cl c with
    | some h => h.tiles.any fun t => decide (t.index = i)
    | none => false)
  || (getQ (getCl s cl) 11).cards.any fun q =>
      isNorm q.card.opcode && decide (q.card.chain = c.chain) && decide ((epiOf q.card).tile = i)

/-- Width of the output rows in lines. -/
def epiOutLines (c : Card) (e : Epi) : Nat :=
  if c.opcode = 0 then 1
  else if c.opcode = 10 then rowLines e.outf 64
  else if isNorm c.opcode then rowLines e.outf 64
  else rowLines (if splitForm c then 7 else e.outf) 64

/-- AUX and AUX2 of a card that needs them absent, needs AUX, or may take them (R124). -/
def auxCheck (c : Card) (e : Epi) : Chk :=
  let needs := decide (c.opcode = 5) || decide (c.opcode = 6) || decide (c.opcode = 8) || (decide (c.opcode = 10) && scaled e.outf)
  let usesAux := needs || decide (c.opcode = 4) || decide (c.opcode = 2) || decide (c.opcode = 3) || decide (c.opcode = 10)
  let usesAux2 := decide (c.opcode = 3) || decide (c.opcode = 6)
  let neither := !usesAux && !usesAux2
  firstBad [badField (needs && decide (e.aux = 0)) 3 32, badField (neither && decide (e.aux ≠ 0)) 3 32,
    badField (neither && decide (e.aux2 ≠ 0)) 3 48]

/-- Lines that AUX covers, and AUX2. -/
def auxRanges (c : Card) (e : Epi) : Chk :=
  let n := match c.opcode with
    | 5 => (e.rows - 1) * e.ss + 4
    | 6 => (e.parts - 1) * e.ps + (8 * e.rows + 63) / 64
    | 10 => (e.rows - 1) * e.ds + 1
    | _ => 4
  let n2 := if c.opcode = 6 then (8 * e.rows + 63) / 64 else 4
  firstBad [if e.aux = 0 then none else poolRange e.aux n, if e.aux2 = 0 then none else poolRange e.aux2 n2]

/-- Checks at post of an epilogue card (R123 to R132). A chained card's TILE_COUNT is its chain's; a TILE_COUNT of 0, of a chain
without a row statistic or of no chain, bounds no TILE_INDEX (DESIGN CHOICE, log 95). -/
def epilogueCheck (s : State) (cl : Nat) (c : Card) : Chk :=
  let e := epiOf c
  let op := c.opcode
  let parts := if op = 6 ∨ op = 7 then e.parts else 1
  let mode := match cardChain s cl c with
    | some h => h.mode
    | none => 0
  firstBad [
    (match cardChain s cl c with
      | some h => bad (decide (c.chain ≠ 0) && decide (coTiles h.openCard ≠ e.tiles)
          || (isNorm op && (decide (coRows h.openCard ≠ e.rows) || decide (e.rows = 0)))) .chainNotOpen
      | none => bad (isNorm op) .chainNotOpen),
    poolRange e.src ((parts - 1) * e.ps + (e.rows - 1) * e.ss + rowLines e.inf 64),
    (if op = 8 then none else rowsRange e.dst e.ds e.rows (epiOutLines c e)),
    auxRanges c e,
    badField (!([7, 5, 6, 2, 3, 4].contains e.inf)) 2 0,
    badField (if op = 10 then !([0, 1, 4].contains e.outf) else decide (op ≠ 0) && decide (op ≠ 8) && !([7, 5, 6, 2, 3].contains e.outf)) 2 4,
    badField (decide (1 < e.round)) 2 8,
    badField (decide (e.rows = 0) || decide (256 < e.rows)) 2 16,
    badField (decide (e.ncols = 0) || decide (262144 < e.ncols)) 6 0,
    badField ((decide (op = 6) && (decide (e.parts < 2) || decide (16 < e.parts)))
      || (decide (op = 7) && (decide (e.parts < 2) || decide (64 < e.parts)))) 4 32,
    auxCheck c e,
    bad ((decide (op = 4) || decide (op = 5)) && !(getCl s cl).tables.contains e.table) .tableEmpty,
    badField (decide (c.chain ≠ 0) && !c.last && !isNorm op && decide (op ≠ 0) && decide (op ≠ 8) && decide (e.outf ≠ 7)) 2 4,
    badField ((decide (e.tiles ≠ 0) && decide (e.tiles ≤ e.tile)) || (isNorm op && (decide (e.tiles = 0) || tilePosted s cl c))) 2 32,
    (rselCheck c.w7 (stochastic c e.round) ((e.rows + 63) / 64)).map fun st => (st, 0, 0),
    tooLong (epiLength op mode e)]

/-! ## Function tables (R125) -/

/-- FP32 word `i` of the function table in slot `t`. -/
def tableWord (s : State) (cl t i : Nat) : W32 := memW32 s.mem (poolKey cl (0x10000 + t * 0x3000 + 4 * i))

/-- ⌊u⌋ of a non-negative FP32 value, at most 1,023. -/
def floor1023 (u : W32) : Nat :=
  match val32 u with
  | .fin false m e => min 1023 (m * pow2 e / pow2 (-e))
  | .inf false => 1023
  | _ => 0

/-- table_eval of R125. -/
def tableEval (s : State) (cl t : Nat) (x : W32) : W32 :=
  let w := tableWord s cl t
  if fNan x then nan32
  else if fLt x (w 0) then fFma (w 4) x (w 5)
  else if fLe (w 1) x then fFma (w 6) x (w 7)
  else
    let u := fMul (fSub x (w 0)) (w 2)
    let i := floor1023 u
    fFma (w (8 + 2 * i + 1)) (fSub u (fOfNat i)) (w (8 + 2 * i))

/-! ## Tiles -/

/-- Row `r` of a source tile, widened to FP32 (R123). -/
def epiRow (s : State) (cl : Nat) (e : Epi) (part r : Nat) : List W32 :=
  poolRow32 s cl (e.src + part * e.ps + r * e.ss) e.inf 64

/-- The words of a tile's draws, column by column (R144, R145): `n` live columns of `rows` rows. -/
def epiWords (cl : Nat) (c : Card) (tile rows n : Nat) (s : State) : List (List W32) × State :=
  let r := rselOf c.w7
  if r.pinned then
    ((List.range n).map fun j => pinnedColumn (clSeed s cl) r tile j rows,
      if n = 0 then s else bumpBy .rgPinnedTiles c.part ((rows + 63) / 64) s)
  else freeGrid cl 9 (List.range n) rows s

/-- Writes a tile of FP32 rows in the card's output form: the writes, whether a value overflowed, and the state after
the draws (R129, R131). -/
def emitTile (cl : Nat) (c : Card) (e : Epi) (norm : Bool) (rows : List (List W32)) (s : State) :
    List (Nat × Byte) × Bool × State :=
  let n := liveCols e
  let split := splitForm c && (!norm || decide (e.outf = 7))
  let draws := if split then decide (c.sepRound = 1) else decide (e.round = 1)
  let (cols, s1) := if draws then epiWords cl c e.tile rows.length n s else ([], s)
  let fmt := if split then 7 else e.outf
  let outs := rows.zipIdx.map fun (row, i) => (row.take n).zipIdx.map fun (w, j) =>
    let r := if draws then Rnd.full ((cols.getD j []).getD i 0#32) else .rne
    if split then (let (v, o) := sepRound c.sepFmt r w; (v.toNat, o && fFin w))
    else (let (v, o) := narrow e.outf r w; (v, o && fFin w))
  (outs.zipIdx.flatMap fun (row, i) =>
      bytesAt (poolKey cl (64 * (e.dst + i * e.ds))) (packRow (fmtWidth fmt) (row.map (·.1))),
    outs.any (fun row => row.any (·.2)), s1)

/-- Work of a card that forms its output rows at once (ACT, DERIV, MERGE, REDUCE, ROUND): each value with the inputs that it
is formed from, the live columns counting for the flags (R60, R124). -/
def directTile (cl : Nat) (c : Card) (rows : List (List (List W32 × W32))) (extra : List (Nat × Byte)) (s : State) :
    Work × State :=
  let e := epiOf c
  let (ws, o, s1) := emitTile cl c e false (rows.map fun r => r.map (·.2)) s
  let f := Flags.each (rows.flatMap fun r => r.take (liveCols e))
  (⟨.ok, { f with ovf := f.ovf || o }, ws ++ extra, epiLength c.opcode 0 e⟩, s1)

/-- The chain whose row statistic has closed and waits for finish cards, the lowest first: its number, and what it holds. -/
def finishing (s : State) (cl : Nat) : Option (Nat × Chain × Nat × Nat) :=
  let f := fun (ch : Nat) (h : Chain) => h.closing.map fun c => (ch, h, c.1, c.2)
  ((getCl s cl).chains.findSome? fun h => f h.1 h.2).orElse fun _ => (getCl s cl).past.findSome? fun h => f h.2.openCard.chain h.2

/-- The tile of the card at the head of the engine's queue would overfill the 64 KiB write buffer: the card waits before issue,
and the buffer drains meanwhile (R135, log 96). -/
def bufferFull (s : State) (cl : Nat) : Bool :=
  match (getQ (getCl s cl) 11).cards with
  | q :: _ => isNorm q.card.opcode && decide (postedMode s cl q = 2)
      && decide (65536 < (getCl s cl).writeBuf.length + 256 * (epiOf q.card).rows)
  | [] => false

/-- Issues an epilogue card of opcode `op`; finish cards go first (R132). -/
def issueEpi (op cl : Nat) (work : State → QCard → Work × State) (s : State) : State :=
  if (finishing s cl).isSome then s
  else if bufferFull s cl then drainBuffer cl s
  else
    issueWork cl 3 op (fun t q => 1500 * epiLength op (postedMode t cl q) (epiOf q.card)) work s

/-! ## Statistics (R133) -/

/-- The four statistics of a row of live values: m, s, a, q. -/
def rowStats (scale : W32) (xs : List W32) : W32 × W32 × W32 × W32 :=
  let x' := xs.map (fMul scale)
  let m := x'.foldl fMax negInf32
  (m, canonSum (x'.map fun x => fExp (fSub x m)), canonSum xs, canonSum (xs.map fun x => fMul x x))

/-- The 16-byte record of a row. -/
def statBytes (t : W32 × W32 × W32 × W32) : List Byte := w32Bytes [t.1, t.2.1, t.2.2.1, t.2.2.2]

/-- Row statistics at close from the tiles' records in tile-index order: M, S, A, Q (R133). -/
def closeStats (ts : List (W32 × W32 × W32 × W32)) : W32 × W32 × W32 × W32 :=
  let m := ts.foldl (fun a t => fMax a t.1) negInf32
  (m, canonSum (ts.map fun t => if t.1 = negInf32 then 0#32 else fMul t.2.1 (fExp (fSub t.1 m))),
    canonSum (ts.map fun t => t.2.2.1), canonSum (ts.map fun t => t.2.2.2))

/-- Byte of the pool where the statistics of tile `t`, row `r` of a chain lie: behind the held tiles, or from the
reservation's start in two-pass mode (log 14). -/
def statKey (cl : Nat) (h : Chain) (t r : Nat) : Nat :=
  let o := h.openCard
  let base := 64 * coBase o + if h.mode = 2 then 0 else coRows o * coTiles o * 256
  poolKey cl (base + (t * coRows o + r) * 16)

/-- Keys of row `r` of the stored FP32 tile `t`: the reservation, or the two-pass region in near memory (log 14). -/
def tileRowKeys (s : State) (cl : Nat) (h : Chain) (t r : Nat) : List Nat :=
  let o := h.openCard
  let off := (t * coRows o + r) * 256
  if h.mode = 2 then
    let (rd, g, a) := nearAddr (clDie cl) (coNm o)
    match regionOf s rd g with
    | some e => (List.range 256).map fun i => nearKey rd e (a + off + i)
    | none => []
  else (List.range 256).map fun i => poolKey cl (64 * coBase o + off + i)

/-- The stored row of a tile. -/
def tileRow (s : State) (cl : Nat) (h : Chain) (t r : Nat) : List W32 :=
  let bs := (tileRowKeys s cl h t r).map (memByte s.mem)
  (List.range 64).map fun j => BitVec.ofNat 32 (leNat ((bs.drop (4 * j)).take 4))

/-- The stored statistics of a tile's row. -/
def tileStat (s : State) (cl : Nat) (h : Chain) (t r : Nat) : W32 × W32 × W32 × W32 :=
  let k := statKey cl h t r
  (memW32 s.mem k, memW32 s.mem (k + 4), memW32 s.mem (k + 8), memW32 s.mem (k + 12))

/-- Row statistics of a chain's row `r`: tiles with no column below NCOLS are absent (R124). -/
def chainStat (s : State) (cl : Nat) (h : Chain) (r : Nat) : W32 × W32 × W32 × W32 :=
  closeStats (((List.range (coTiles h.openCard)).filter fun t =>
    h.tiles.any fun x => decide (x.index = t) && decide (0 < liveCols (epiOf x.card))).map fun t => tileStat s cl h t r)

/-- One finished value of SOFTMAX, RMSNORM or LAYERNORM (R124). -/
def finishValue (op : Nat) (e : Epi) (st : W32 × W32 × W32 × W32) (x g b : W32) : W32 :=
  let (m, sm, a, q) := st
  let n := fOfNat e.ncols
  match op with
  | 1 => if m = negInf32 then nan32 else fMul (fExp (fSub (fMul e.scale x) m)) (fRecip sm)
  | 2 => fMul (fMul x (fRsqrt (fAdd (fDiv q n) e.eps))) g
  | _ =>
    let mu := fDiv a n
    let v := fSub (fDiv q n) (fMul mu mu)
    fFma (fMul (fSub x mu) (fRsqrt (fAdd v e.eps))) g b

/-- Finishes tile `t` of a chain: its rows from the stored tile and the row statistics, narrowed at DST (R132). -/
def finishTile (cl : Nat) (h : Chain) (t : Nat) (s : State) : List (Nat × Byte) × State :=
  match h.tiles.find? fun x => decide (x.index = t) with
  | none => ([], s)
  | some x =>
    let e := epiOf x.card
    let g := fun j => if e.aux = 0 then 0x3F800000#32 else memW32 s.mem (poolKey cl (64 * e.aux + 4 * j))
    let b := fun j => if e.aux2 = 0 then 0#32 else memW32 s.mem (poolKey cl (64 * e.aux2 + 4 * j))
    let rows := (List.range e.rows).map fun r =>
      let st := chainStat s cl h r
      (tileRow s cl h t r).zipIdx.map fun (v, j) => finishValue x.card.opcode e st v (g j) (b j)
    let (ws, _, s1) := emitTile cl x.card e true rows s
    (ws, s1)

/-- A SOFTMAX, RMSNORM or LAYERNORM card stores its tile and the tile's statistics; the card that brings the last
missing tile closes the row statistic (R132). -/
def normWork (cl : Nat) (s : State) (q : QCard) : Work × State :=
  match postedChain s cl q with
  | none => (⟨.chainNotOpen, Flags.none, [], 0⟩, s)
  | some h =>
    let e := epiOf q.card
    let rows := (List.range e.rows).map fun r => epiRow s cl e 0 r
    let stats := rows.map fun r => rowStats e.scale (r.take (liveCols e))
    let ws := rows.zipIdx.flatMap (fun (row, r) => (tileRowKeys s cl h e.tile r).zip (w32Bytes row))
      ++ stats.zipIdx.flatMap (fun (t, r) => bytesAt (statKey cl h e.tile r) (statBytes t))
    let tiles := h.tiles ++ [⟨e.tile, q.card⟩]
    let closes := decide (tiles.length = coTiles h.openCard)
    let h' := { h with tiles := tiles, closing := if closes then some (q.ord.n, 0) else h.closing }
    let s1 := modCl cl (putUse q.card.chain h') s
    let dead := closes && decide (q.card.opcode = 1) && (List.range e.rows).any fun r =>
      decide ((chainStat (putMem (stats.zipIdx.flatMap fun (t, r) => bytesAt (statKey cl h e.tile r) (statBytes t)) s1) cl h' r).1 = negInf32)
    let f := Flags.ofInputs (rows.flatMap fun r => r.take (liveCols e))
    (⟨.ok, { f with nanGen := f.nanGen || dead }, ws, epiLength q.card.opcode h.mode e⟩, s1)

/-- STAT: the tile's partial statistics, row r at DST + r × DSTRIDE (R124). -/
def statWork (cl : Nat) (s : State) (q : QCard) : Work × State :=
  let e := epiOf q.card
  let rows := (List.range e.rows).map fun r => (epiRow s cl e 0 r).take (liveCols e)
  let ws := rows.zipIdx.flatMap fun (row, r) =>
    bytesAt (poolKey cl (64 * (e.dst + r * e.ds))) (statBytes (rowStats e.scale row))
  let outs := rows.flatMap fun row =>
    let t := rowStats e.scale row
    [(e.scale :: row, t.1), (e.scale :: row, t.2.1), (row, t.2.2.1), (row, t.2.2.2)]
  (⟨.ok, if liveCols e = 0 then Flags.none else Flags.each outs, ws, epiLength 0 0 e⟩, s)

/-- ACT: f(x + bias) (R124, R125). -/
def actWork (cl : Nat) (s : State) (q : QCard) : Work × State :=
  let e := epiOf q.card
  let bias := if e.aux = 0 then [] else poolW32 s cl e.aux 64
  let rows := (List.range e.rows).map fun r => (epiRow s cl e 0 r).zipIdx.map fun (x, j) =>
    if e.aux = 0 then ([x], tableEval s cl e.table x)
    else ([x, bias.getD j 0#32], tableEval s cl e.table (fAdd x (bias.getD j 0#32)))
  directTile cl q.card rows [] s

/-- DERIV: g_out × f′(x_saved), the saved tile at AUX with the input's row stride (R124, R270). -/
def derivWork (cl : Nat) (s : State) (q : QCard) : Work × State :=
  let e := epiOf q.card
  let ins := (List.range e.rows).map fun r => epiRow s cl e 0 r
  let saved := (List.range e.rows).map fun r => poolW32 s cl (e.aux + r * e.ss) 64
  let rows := List.zipWith (fun g x => List.zipWith (fun a b => ([a, b], fMul a (tableEval s cl e.table b))) g x) ins saved
  directTile cl q.card rows [] s

/-- MERGE of PARTS partials (R223). -/
def mergeWork (cl : Nat) (s : State) (q : QCard) : Work × State :=
  let e := epiOf q.card
  let stat := fun (i r k : Nat) => memW32 s.mem (poolKey cl (64 * (e.aux + i * e.ps) + 8 * r + 4 * k))
  let one := fun (r : Nat) =>
    let ms := (List.range e.parts).map fun i => stat i r 0
    let mx := ms.foldl fMax negInf32
    let ws := ms.map fun m => if m = negInf32 then none else some (fExp (fSub m mx))
    let term := fun (w : Option W32) (v : W32) => match w with
      | some y => fMul v y
      | none => 0#32
    let ls := (List.range e.parts).map fun i => stat i r 1
    let l := canonSum (List.zipWith term ws ls)
    let parts := (List.range e.parts).map fun i => epiRow s cl e i r
    let row := (List.range 64).map fun j =>
      let vs := parts.map fun p => p.getD j 0#32
      (vs ++ ls ++ ms.filter (· ≠ negInf32),
        if l.toNat % 2 ^ 31 = 0 then 0#32 else fMul (canonSum (List.zipWith term ws vs)) (fRecip l))
    (mx, l, row)
  let all := (List.range e.rows).map one
  let extra := if e.aux2 = 0 then [] else
    all.zipIdx.flatMap fun (x, r) => bytesAt (poolKey cl (64 * e.aux2 + 8 * r)) (w32Bytes [x.1, x.2.1])
  directTile cl q.card (all.map fun x => x.2.2) extra s

/-- REDUCE: canonical_sum of PARTS tiles over the part index (R124). -/
def reduceWork (cl : Nat) (s : State) (q : QCard) : Work × State :=
  let e := epiOf q.card
  let tiles := (List.range e.parts).map fun i => (List.range e.rows).map fun r => epiRow s cl e i r
  let rows := (List.range e.rows).map fun r => (List.range 64).map fun j =>
    let vs := tiles.map fun t => (t.getD r []).getD j 0#32
    (vs, canonSum vs)
  directTile cl q.card rows [] s

/-- ROUND: narrows an FP32 tile (R124). -/
def roundWork (cl : Nat) (s : State) (q : QCard) : Work × State :=
  let e := epiOf q.card
  let rows := (List.range e.rows).map fun r => (epiRow s cl e 0 r).map fun x => ([x], x)
  directTile cl q.card rows [] s

/-- CHECK: the row check of R80 on the tile's rows against the FP32 comparison row at AUX, with the tolerance of R83 for
63 roundings and the exponents of the tile and the trees (log 15); a failure ends CK_UNRECOVERED. -/
def checkWork (cl : Nat) (s : State) (q : QCard) : Work × State :=
  let e := epiOf q.card
  let rows := (List.range e.rows).map fun r => (epiRow s cl e 0 r).take (liveCols e)
  let cmp := (poolW32 s cl e.aux 64).take (liveCols e)
  let col := fun j => rows.map fun r => r.getD j 0#32
  let ea := (rows.flatMap id).foldl (fun p w => max p (val32 w).peakExp) (-126)
  let et := (List.range (liveCols e)).foldl (fun p j => max p (treePeak 10 (col j)))
    (cmp.foldl (fun p w => max p (val32 w).peakExp) (-126))
  let tau := (Val.fin false (4 * (e.rows * 63)) (ea - 24)).add (.fin false 32 (et - 17))
  let ok := (List.range (liveCols e)).all fun j =>
    let a := val32 (canonSum (col j))
    let b := val32 (cmp.getD j 0#32)
    if a.isNan || b.isNan then a.isNan && b.isNan
    else if !a.isFin || !b.isFin then decide (a = b)
    else (a.add b.neg).abs.le tau
  (⟨if ok then .ok else .ckUnrecovered, Flags.ofInputs (rows.flatMap id ++ cmp), [], epiLength 8 0 e⟩, s)

/-- One row of QUANT: element codes of the live columns and the scale codes of the blocks that hold any (R126). -/
def quantRow (e : Epi) (rnd : Nat → Rnd) (row : List W32) : List Nat × List Nat :=
  let live := row.take (liveCols e)
  let blocks := [live.take 32, live.drop 32].filter fun b => !b.isEmpty
  match e.outf with
  | 0 =>
    let scales := blocks.map bf4Scale
    (live.zipIdx.map fun (w, j) => bf4Elem (rnd j) (scales.getD (j / 32) 0) w, scales)
  | 1 =>
    let scales := blocks.map bi4Scale
    (live.zipIdx.map fun (w, j) => bi4Elem (rnd j) (scales.getD (j / 32) 0) w, scales)
  | _ => (live.zipIdx.map fun (w, j) => int8Elem (rnd j) e.scale w, [])

/-- QUANT (R126): elements at DST, block scales at AUX, both with stride DSTRIDE. -/
def quantWork (cl : Nat) (s : State) (q : QCard) : Work × State :=
  let e := epiOf q.card
  let n := liveCols e
  let rows := (List.range e.rows).map fun r => epiRow s cl e 0 r
  let (cols, s1) := if e.round = 1 then epiWords cl q.card e.tile e.rows n s else ([], s)
  let outs := rows.zipIdx.map fun (row, i) =>
    quantRow e (fun j => if e.round = 1 then .full ((cols.getD j []).getD i 0#32) else .rne) row
  let ws := outs.zipIdx.flatMap fun (o, r) =>
    bytesAt (poolKey cl (64 * (e.dst + r * e.ds))) (packRow (fmtWidth e.outf) o.1)
      ++ bytesAt (poolKey cl (64 * (e.aux + r * e.ds))) (packRow (if e.outf = 0 then 8 else 16) o.2)
  (⟨.ok, ⟨(rows.any fun r => (r.take n).any fNan), false, false⟩, ws, epiLength 10 0 e⟩, s1)

/-! ## Finish cards (R132, R135) -/

/-- Rows of a two-pass chain's tiles `t` to `t + n − 1` as the tier port stages them: through the 16 KiB behind the chain's
statistics, 64 rows at a time (R135, log 96). -/
def stageTiles (cl : Nat) (h : Chain) (t n : Nat) (s : State) : List (Nat × Byte) :=
  let o := h.openCard
  let base := poolKey cl (64 * coBase o + coRows o * coTiles o * 16)
  (List.range (n * coRows o)).flatMap fun i =>
    bytesAt (base + i % 64 * 256) (w32Bytes (tileRow s cl h (t + i / coRows o) (i % coRows o)))

/-- FINISH_CARD: at most ⌊7,512 / ROWS⌋ tiles; it takes no credit and goes ahead of the queue. The tiles of a two-pass chain are
staged first (R132, R135). -/
def issueFinish (cl : Nat) (s : State) : State :=
  match finishing s cl with
  | none => s
  | some (ch, h, ord, done) =>
    if !engineFree s cl 11 || !cardWindow s cl h.openCard then s
    else
      let rows := coRows h.openCard
      let n := min (7512 / rows) (coTiles h.openCard - done)
      let t := 8 + rows * n
      if !canPay s (clOwnerPart s cl) (1500 * t) then markCapped cl s
      else
        let s0 := if h.mode = 2 then (let d := drainBuffer cl s; putMem (stageTiles cl h done n d) d) else s
        let (ws, s1) := (List.range n).foldl (fun (acc : List (Nat × Byte) × State) i =>
          let (w, t) := finishTile cl h (done + i) acc.2
          (acc.1 ++ w, t)) ([], pay (clOwnerPart s cl) (1500 * t) s0)
        let card := match h.tiles.getLast? with
          | some x => x.card
          | none => h.openCard
        putRun cl 11 { runOf ⟨card, ⟨h.use, ord⟩⟩ with writes := ws, cycles := t, mode := ch, finish := some (done + n) } s1

/-- A SOFTMAX, RMSNORM or LAYERNORM card retires: what it writes to near memory is in the write buffer (R135). -/
def retireTile (cl : Nat) (r : Run) (s : State) : State :=
  let near := fun (w : Nat × Byte) => decide (chanKey 0 0 ≤ w.1)
  retireEngine cl 11 { r with writes := r.writes.filter fun w => !near w }
    (modCl cl (fun c => { c with writeBuf := c.writeBuf ++ r.writes.filter near }) s)

/-- A finish card retires: its tiles are written; after the last one the prefix passes the closing card and the chain
closes where CHAIN_LAST has retired (R112, R132). -/
def retireFinish (cl : Nat) (r : Run) (d : Nat) (s : State) : State :=
  let s1 := putMem r.writes (modCl cl (fun c => { c with runs := tabDel 11 c.runs }) s)
  match useChain (getCl s1 cl) r.mode r.ord.use with
  | none => s1
  | some h =>
    if h.closing.isNone then s1
    else
      let h' := if coTiles h.openCard ≤ d then ({ h with closing := none } : Chain).retire 0
        else { h with closing := some (r.ord.n, d) }
      closeIfDone cl r.mode (modCl cl (putUse r.mode h') s1)

/-- A finish card that meets an uncorrectable word of a held tile ends POOL_UNCORRECTABLE in the closing card's record; the
chain aborts (R136). -/
def failFinish (cl : Nat) (r : Run) (s : State) : State :=
  let s1 := modCl cl (fun c => { c with runs := tabDel 11 c.runs }) s
  match useChain (getCl s1 cl) r.mode r.ord.use with
  | none => s1
  | some h =>
    if h.closing.isNone then s1
    else
      let s2 := complete cl r.card { Report.of .poolUncorrectable r.card.unit with cycles := r.cycles } s1
      let h' := ({ h with closing := none } : Chain).retire 0
      abortUse cl r.mode r.ord.use .failed (modCl cl (putUse r.mode { h' with closing := none }) s2)

/-! ## The commands -/

/-- STAT (R124). -/
def execStat (cl : Nat) (s : State) : Host.Outcome State Fault Refusal := running s (issueEpi 0 cl (statWork cl))

/-- SOFTMAX (R124). -/
def execSoftmax (cl : Nat) (s : State) : Host.Outcome State Fault Refusal := running s (issueEpi 1 cl (normWork cl))

/-- RMSNORM (R124). -/
def execRmsnorm (cl : Nat) (s : State) : Host.Outcome State Fault Refusal := running s (issueEpi 2 cl (normWork cl))

/-- LAYERNORM (R124). -/
def execLayernorm (cl : Nat) (s : State) : Host.Outcome State Fault Refusal := running s (issueEpi 3 cl (normWork cl))

/-- ACT (R124, R125). -/
def execAct (cl : Nat) (s : State) : Host.Outcome State Fault Refusal := running s (issueEpi 4 cl (actWork cl))

/-- DERIV (R124). -/
def execDeriv (cl : Nat) (s : State) : Host.Outcome State Fault Refusal := running s (issueEpi 5 cl (derivWork cl))

/-- MERGE (R223). -/
def execMerge (cl : Nat) (s : State) : Host.Outcome State Fault Refusal := running s (issueEpi 6 cl (mergeWork cl))

/-- REDUCE (R124). -/
def execReduce (cl : Nat) (s : State) : Host.Outcome State Fault Refusal := running s (issueEpi 7 cl (reduceWork cl))

/-- CHECK (R124, R80). -/
def execCheck (cl : Nat) (s : State) : Host.Outcome State Fault Refusal := running s (issueEpi 8 cl (checkWork cl))

/-- ROUND (R124). -/
def execRound (cl : Nat) (s : State) : Host.Outcome State Fault Refusal := running s (issueEpi 9 cl (roundWork cl))

/-- QUANT (R126). -/
def execQuant (cl : Nat) (s : State) : Host.Outcome State Fault Refusal := running s (issueEpi 10 cl (quantWork cl))

/-- FINISH_CARD (R132). -/
def execFinishCard (cl : Nat) (s : State) : Host.Outcome State Fault Refusal := running s (issueFinish cl)

end Sys2Proof.Machine
end

