-- ==== Sys2Proof/Machine/Control.lean ====
section
/-!
DEFINITION. The cluster control core's own cards (R106, R108, R112, R115, R116): RUN_LIST, CHAIN_OPEN, CHAIN_ABORT, and
how an engine-9 card executes at its place in the list.
-/

namespace Sys2Proof.Machine

/-- The engine-9 card of opcode `op` that is to execute next, when it may: its window is open, its job issues, the
cluster is awake and its waits are met (R106, R107, R113). -/
def ready9 (s : State) (cl op : Nat) : Option QCard :=
  match (getCl s cl).exec9, (getCl s cl).owner with
  | some q, some (_, _, j) =>
    if q.card.opcode = op ∧ cardWindow s cl q.card ∧ jobIssues s j ∧ awake (getCl s cl) ∧ waitsMet (getCl s cl) q then some q
    else none
  | _, _ => none

/-- The control core is free for the next card of its list. -/
def clear9 (cl : Nat) (s : State) : State := modCl cl (fun c => { c with exec9 := none }) s

/-- Status with which a card retires where the chain it was posted in has aborted (R115). -/
def abortedAs (h : Option Chain) (c : Card) : Option Status := (h.bind (·.abort)).map fun a => abortStatus a c.last

/-- Executes an engine-9 card of opcode `op` at its place in the list; a card of an aborted chain retires without acting
(R115), and one whose epoch has passed retires unexecuted (R111). -/
def exec9 (cl op : Nat) (f : QCard → State → State) (s : State) : State :=
  match ready9 s cl op with
  | none => s
  | some q =>
    match abortedAs (useChain (getCl s cl) q.card.chain q.ord.use) q.card with
    | some st => retireUnrun cl q st (clear9 cl s)
    | none =>
      if q.card.epoch ≠ (getCl s cl).epoch then settle cl q (Report.of .cardEpochMismatch 0) (clear9 cl s)
      else f q (clear9 cl s)

/-- Retires an engine-9 card after `t` cycles with a status. -/
def retire9 (cl : Nat) (q : QCard) (st : Status) (t : Nat) (s : State) : State :=
  settle cl q { Report.of st 0 with cycles := t } s

/-- Checks of a CHAIN_OPEN card's body at post (R110, R116). -/
def chainOpenCheck (c : Card) : Chk :=
  firstBad [
    (if coLines c = 0 then none else poolRange (coBase c) (coLines c)),
    badField (decide (256 < coRows c)) 2 32,
    badField (if coRows c = 0 then decide (coTiles c ≠ 0) else decide (coTiles c = 0) || decide (4096 < coTiles c)) 2 48,
    badField (decide (coNm c % 4096 ≠ 0)) 3 0,
    badField (decide (coMode c = 3)) 4 32]

/-- The mode of a chain's row statistic (R132): 0 none, 1 held-tile, 2 two-pass; `none` for CHAIN_NO_SPACE. -/
def chainMode (c : Card) : Option Nat :=
  if coRows c = 0 then some 0
  else
    let held := decide (coRows c * coTiles c * 272 ≤ coLines c * 64)
    let two := decide (coNm c ≠ 0) && decide (coRows c * coTiles c * 256 ≤ coNmBytes c)
      && decide (coRows c * coTiles c * 16 + 16384 ≤ coLines c * 64)
    if coMode c = 2 then (if held then some 1 else none)
    else if coMode c = 1 ∨ held = false then (if two then some 2 else none)
    else some 1

/-- CHAIN_OPEN (R112, R116, R132). A two-pass region must be one the cluster's die may write (R164). -/
def doChainOpen (cl : Nat) (q : QCard) (s : State) : State :=
  let c := q.card
  match chainMode c with
  | none => retire9 cl q .chainNoSpace 8 s
  | some m =>
    let (rd, h, off) := nearAddr (clDie cl) (coNm c)
    match (if m = 2 then access s c.part c.job c.cls cl rd h off (coRows c * coTiles c * 256) .wr else .ok ⟨0, 0, 0⟩) with
    | .error st => retire9 cl q st 8 s
    | .ok _ =>
      let use := (getCl s cl).uses + 1
      let ch : Chain := { use := use, posted := 0, done := 0, ahead := [], lastDone := false, abort := none, heavy := false, openCard := c,
                          mode := m, tiles := [], closing := none, slots := [] }
      settle cl { q with ord := ⟨use, 0⟩ } { Report.of .ok 0 with cycles := 8, mode := m }
        (modCl cl (fun x => { x with uses := use, chains := tabIns c.chain ch x.chains }) s)

/-- CHAIN_ABORT (R115, R136): a target that is not open ends CHAIN_NOT_OPEN. -/
def doChainAbort (cl : Nat) (q : QCard) (s : State) : State :=
  let t := fld q.card.w2 5 0
  if (tabFind t (getCl s cl).chains).isNone then retire9 cl q .chainNotOpen 8 s
  else retire9 cl q .ok 8 (abortChain cl t .failed s)

/-- LIST_ADDR of a RUN_LIST. -/
def rlAddr (c : Card) : Nat := fld c.w2 47 0

/-- COUNT of a RUN_LIST. -/
def rlCount (c : Card) : Nat := fld c.w2 63 48

/-- What becomes of the card at the head of the control core's own queue: any but RUN_LIST is rejected (R106), one posted before a
change of contents retires unexecuted (R111), and a list must lie where the job may read (R116). -/
def runListStatus (s : State) (cl cls p j : Nat) (c : Card) : Status :=
  if c.engine ≠ 9 ∨ c.opcode ≠ 1 then .cardOpcodeInvalid
  else if c.epoch ≠ (getCl s cl).epoch then .cardEpochMismatch
  else if rlAddr c % 64 ≠ 0 then .mtAddrInvalid
  else
    let (rd, h, off) := nearAddr (clDie cl) (rlAddr c)
    match access s p j cls cl rd h off (64 * rlCount c) .rd with
    | .error e => e
    | .ok _ => .ok

/-- RUN_LIST (R108, R116, R175): the control core takes the card at the head of its own queue once the list before it is
at its end and every prefetch entry due has landed. -/
def doRunList (cl : Nat) (s : State) : State :=
  let x := getCl s cl
  match (getQ x 17).cards, x.owner with
  | q :: _, some (cls, p, j) =>
    if x.list.isSome ∨ x.exec9.isSome ∨ x.coreDown ∨ !awake x ∨ !listWindow s cl ∨ !jobIssues s j
        ∨ x.prefetch.any (fun e => decide (e.due ≤ s.tk.tick)) then s
    else
      let st := runListStatus s cl cls p j q.card
      let s1 := modCl cl (fun c => creditQ 17 (popQ 17 c)) s
      let s2 := if st = .ok then modCl cl (fun c => { c with list := some ⟨rlAddr q.card, rlCount q.card⟩ }) s1 else s1
      complete cl q.card { Report.of st 0 with cycles := if st = .cardOpcodeInvalid ∨ st = .cardEpochMismatch then 0 else 8 } s2
  | _, _ => s

/-- RUN_LIST (R108). -/
def execRunList (cl : Nat) (s : State) : Host.Outcome State Fault Refusal := running s (doRunList cl)

/-- CHAIN_OPEN (R132). -/
def execChainOpen (cl : Nat) (s : State) : Host.Outcome State Fault Refusal := running s (exec9 cl 0 (doChainOpen cl))

/-- CHAIN_ABORT (R115). -/
def execChainAbort (cl : Nat) (s : State) : Host.Outcome State Fault Refusal := running s (exec9 cl 2 (doChainAbort cl))

end Sys2Proof.Machine
end

