-- ==== Sys2Proof/Machine/Drift.lean ====
section
/-!
DEFINITION. The blocks of an Afterglow slot (R342, R343), the drift map and copy-before-write (R346, R347).
-/

namespace Sys2Proof.Machine

/-- What a block of the slot layout holds (R343). -/
inductive BlockSrc where
  | header (i : Nat)
  | dir (i : Nat)
  | lane (cl u l : Nat)
  | sums (cl u i : Nat)
  | moment (rd h i : Nat)
  | stratus (rd h i : Nat)
deriving DecidableEq, Repr

/-- Clusters of a job and class on a die, ascending. -/
def dieClusters (s : State) (j die cls : Nat) : List Nat :=
  match getJob s j with
  | some x => ((x.clusters.filter fun c => decide (c.2 = cls) && decide (clDie c.1 = die)).map (·.1)).foldl (fun l c => setIns c l) []
  | none => []

/-- LEARN units of a die in slot order: cluster and logical unit (R343). -/
def learnUnits (s : State) (j die : Nat) : List (Nat × Nat) :=
  (dieClusters s j die 1).flatMap fun cl => (List.range (enabledCount s cl)).map fun u => (cl, u)

/-- Moment regions of a die's owner clusters, in ascending cluster (R343). -/
def dieMoments (s : State) (j die : Nat) : List (Nat × Nat) :=
  match (getJob s j).bind (·.upd) with
  | some u => (dieClusters s j die 1).flatMap fun cl => (u.moment.filter fun m => decide (m.1 = cl)).map fun m => (m.2.1, m.2.2)
  | none => []

/-- Stratus region of a die: rim die and handle (R262). -/
def dieStratus (s : State) (j die : Nat) : Option (Nat × Nat) :=
  match (getJob s j).bind (·.learn) with
  | some l => (l.stratus.find? fun x => decide (x.1 = die)).map fun x => (homeRd die, x.2.1)
  | none => none

/-- Blocks of a region. -/
def regionBlocks (s : State) (r : Nat × Nat) : Nat := (((regionOf s r.1 r.2).map Region.len).getD 0 + 65535) / 65536

/-- The blocks of a die's slot, in order (R343). -/
def slotBlocks (s : State) (j die : Nat) : List BlockSrc :=
  [.header 0, .header 1, .dir 0, .dir 1, .dir 2, .dir 3]
    ++ ((learnUnits s j die).flatMap fun c =>
        ((List.range 64).map fun l => BlockSrc.lane c.1 c.2 l) ++ (List.range 8).map fun i => BlockSrc.sums c.1 c.2 i)
    ++ ((dieMoments s j die).flatMap fun r => (List.range (regionBlocks s r)).map fun i => BlockSrc.moment r.1 r.2 i)
    ++ (match dieStratus s j die with
        | some r => (List.range (regionBlocks s r)).map fun i => BlockSrc.stratus r.1 r.2 i
        | none => [])

/-- One entry of the Stratus directory (R272). -/
def frameBytes (cl slot : Nat) (f : FrameEnt) : List Byte :=
  let b := fun (x : Bool) (n : Nat) => if x then 2 ^ n else 0
  leBytes 8 (f.layer + f.tag * 2 ^ 16 + f.kind * 2 ^ 32 + slot * 2 ^ 36 + cl % 32 * 2 ^ 42 + b f.popped 47 + b f.pin 48)
    ++ leBytes 8 (f.baseLine + f.lines * 2 ^ 34)

/-- The Stratus directory of a die, entries in the order of its stacks (log 27), without its unused entries. -/
def dirBytes (s : State) (die : Nat) : List Byte :=
  (s.lrn.stratus.filter fun e => decide (e.1 / 64 / 32 = die)).flatMap fun e => e.2.flatMap (frameBytes (e.1 / 64) (e.1 % 64))

/-- The 65,536 bytes that a block holds, as its source stands now (R342, R343); the header is written at the cut. -/
def blockBytes (s : State) (die : Nat) : BlockSrc → List Byte
  | .header _ => []
  | .dir i => sliceZ (dirBytes s die) (65536 * i) 65536
  | .lane cl u l =>
    let k := (physOf s cl u).getD (8 * cl + u)
    memBytes s.mem (laneKey k (physLane (getUnit s k) l) 0) 65536
  | .sums cl u i =>
    let k := (physOf s cl u).getD (8 * cl + u)
    memBytes s.mem (laneKey k 64 (65536 * i)) 65536
  | .moment rd h i => match regionOf s rd h with
    | some e => sliceZ (regionBytes s rd e (65536 * i) (min 65536 (e.len - 65536 * i))) 0 65536
    | none => []
  | .stratus rd h i => match regionOf s rd h with
    | some e => sliceZ (regionBytes s rd e (65536 * i) (min 65536 (e.len - 65536 * i))) 0 65536
    | none => []

/-- The Afterglow context of a job. -/
def agOf (s : State) (j : Nat) : Option (Nat × AgCtx) :=
  (getJob s j).bind (·.ag) |>.bind fun n => (tabFind n s.lrn.ags).map fun a => (n, a)

/-- Changes the Afterglow context of a job. -/
def modJobAg (j : Nat) (f : AgCtx → AgCtx) (s : State) : State :=
  match agOf s j with
  | some (n, _) => modAg n f s
  | none => s

/-- Changes a die of the context. -/
def modAgDie (j die : Nat) (f : AgDie → AgDie) (s : State) : State :=
  modJobAg j (fun a => { a with dies := a.dies.map fun d => if d.die = die then f d else d }) s

/-- A die of a job's context. -/
def agDie (s : State) (j die : Nat) : Option AgDie := (agOf s j).bind fun a => a.2.dies.find? fun d => decide (d.die = die)

/-- The OPEN slot of a die that its copy fills. -/
def openSlot (d : AgDie) : Option SlotSt :=
  if d.slotA.state = .opened ∧ (d.slotB.state ≠ .opened ∨ d.slotB.cut < d.slotA.cut) then some d.slotA
  else if d.slotB.state = .opened then some d.slotB
  else none

/-- Copies blocks of a die into its open slot; their drift bits become 1 (R346). -/
def copyBlocks (j die : Nat) (blocks : List Nat) (s : State) : State :=
  match agDie s j die with
  | none => s
  | some d => match openSlot d with
    | none => s
    | some sl =>
      let all := slotBlocks s j die
      let s1 := forEach blocks (fun b t => match all[b]? with
        | some x => writePlace sl.rd sl.region (65536 * b) (blockBytes s die x) t
        | none => t) s
      modAgDie j die (fun y => { y with drift := blocks.foldl (fun l b => setIns b l) y.drift }) s1

/-- The blocks among those given whose drift bit is 0 while the die's copy is to be made (R347). -/
def undrifted (s : State) (j die : Nat) (want : BlockSrc → Bool) : List Nat :=
  match agDie s j die with
  | none => []
  | some d =>
    if !d.copying then []
    else ((slotBlocks s j die).zipIdx.filter fun b => want b.1 && !d.drift.contains b.2).map (·.2)

/-- A card that would write source blocks whose bit is 0 waits (R347): the wait is counted and the awaited blocks are
copied next. `none` when it need not wait. -/
def stallOn (j die : Nat) (want : BlockSrc → Bool) (s : State) : Option State :=
  let l := undrifted s j die want
  if l = [] then none else some (bump .agStalls (jobPart j) (copyBlocks j die l s))

/-- Blocks that a write of `n` bytes from `off` on into a region touches. -/
def touches (rd h off n : Nat) : BlockSrc → Bool
  | .moment r k i => decide (r = rd) && decide (k = h) && decide (65536 * i < off + n) && decide (off < 65536 * (i + 1))
  | .stratus r k i => decide (r = rd) && decide (k = h) && decide (65536 * i < off + n) && decide (off < 65536 * (i + 1))
  | _ => false

end Sys2Proof.Machine
end

