-- ==== Sys2Proof/Machine/Tier.lean ====
section
/-!
DEFINITION. The memory tiers at work (R169 to R182): MOVE, ACCUM, prefetch landings, remote timeouts, errors, refresh
and the zeroing of freed ranges.
-/

namespace Sys2Proof.Machine

/-- Whether a live job holds a channel. -/
def chanHeld (s : State) (ch : Nat) : Bool :=
  s.mt.regions.any fun r => decide (16 * (r.1 / 256) ≤ ch) && decide (ch < 16 * (r.1 / 256) + 16)
    && (maskChans r.2.chmask).contains (ch % 16) && (getJob s r.2.job).isSome

/-- Maintenance requests queued in a share (R98): 0–15 a partition, 16 package rights. -/
def shareUsed (s : State) (sh : Nat) : Nat := (s.maint.filter fun m => decide (m.share = sh)).length

/-- Whether a request of a kind for a target is queued. -/
def maintQueued (s : State) (kind target : Nat) : Bool := s.maint.any fun m => decide (m.kind = kind) && decide (m.target = target)

/-- The power-management core requests RETRAIN of a channel, through R98 (R181). -/
def queueRetrain (ch : Nat) (s : State) : State :=
  if maintQueued s 2 ch ∨ 64 ≤ shareUsed s 16 ∨ (getChan s ch).state = .failed ∨ (s.tk.cfg.maintUs = 0 ∧ chanHeld s ch) then s
  else { s with maint := s.maint ++ [⟨2, ch, 16, false, 0⟩] }

/-- Counts EDC retries of a channel; more than 64 in a tick ask for RETRAIN (R179, R181). -/
def edcRetry (ch n : Nat) (s : State) : State :=
  if n = 0 then s
  else
    let s1 := bumpBy .mtEdcRetry ch n (modChan ch (fun c => { c with retries := c.retries + n }) s)
    if 64 < (getChan s1 ch).retries then queueRetrain ch s1 else s1

/-- Records an error in MT_ERR_LAST, counts it and raises MT_ERROR (R179). The symbol of an error that names none is a
free value (log 16). -/
def memError (line kind : Nat) (two : Bool) (s : State) : State :=
  let ch := line * 64 / 0x400000000 % 128
  let ln := (line * 64 - chanKey ch 0) / 64
  let (v, s1) := if two then (0xFFFF#64, s) else takeFree s
  raise .mtError 0xFF 0
    (bump .mtUncorr ch { s1 with mt := { s1.mt with errLast := (ch, kind, s1.tk.tick % 2 ^ 32, v.toNat % 2 ^ 16, ln) } })

/-- Poisons a line (R178). -/
def poisonLine (line : Nat) (s : State) : State := { s with mt := { s.mt with poison := setIns line s.mt.poison } }

/-- MEM, LINE and LINES of a MOVE or ACCUM. -/
def mvMem (c : Card) : W64 := c.w2

/-- LINE. -/
def mvLine (c : Card) : Nat := fld c.w3 15 0

/-- LINES. -/
def mvLines (c : Card) : Nat := fld c.w3 31 16

/-- DIR of a MOVE; INIT of an ACCUM. -/
def mvBit (c : Card) : Bool := flag c.w3 32

/-- SRCFMT of an ACCUM. -/
def acFmt (c : Card) : Nat := fld c.w3 36 33

/-- An operation in flight on a channel that fails ends with MT_CHANNEL_FAILED; what it reads is not written (R180, R184). -/
def Run.endOn (ch : Nat) (r : Run) : Run :=
  let writes := fun (w : Nat × Byte) => decide (chanKey ch 0 ≤ w.1) && decide (w.1 < chanKey (ch + 1) 0)
  if (r.chans.contains ch || r.writes.any writes) && benign r.status then { r with status := .mtChannelFailed, writes := [] } else r

/-- The operations of the cluster in flight on a channel end: those of its tier port, and of its engines. -/
def endOnChannel (ch cl : Nat) (s : State) : State :=
  modCl cl (fun c => { c with tier := c.tier.map (Run.endOn ch), runs := tabMap (fun _ r => r.endOn ch) c.runs }) s

/-- A channel whose EDC retries are exhausted 16 times in one tick becomes FAILED: what is in flight on it ends, and every job
that holds it falls (R180). -/
def failChannel (ch : Nat) (s : State) : State :=
  let s1 := forEach (s.clusters.map (·.1)) (endOnChannel ch) (modChan ch (fun c => { c with state := .failed }) s)
  let held := s1.jobs.filter fun j => s1.mt.regions.any fun r =>
    decide (r.2.job = j.1) && decide (16 * (r.1 / 256) ≤ ch) && decide (ch < 16 * (r.1 / 256) + 16)
      && (maskChans r.2.chmask).contains (ch % 16)
  forEach held (fun j t => faultJob j.1 .mtChannelFailed t) (raise .mtChannelFailed 0xFF ch s1)

/-- A burst that has exhausted its retries (R179, R180). -/
def exhaustBurst (ch : Nat) (s : State) : State :=
  let s1 := modChan ch (fun c => { c with exhausted := c.exhausted + 1 }) s
  let s2 := queueRetrain ch s1
  if 16 ≤ (getChan s2 ch).exhausted ∧ (getChan s2 ch).state ≠ .failed then failChannel ch s2 else s2

/-- Package channel of a line key. -/
def lineChan (line : Nat) : Nat := line * 64 / 0x400000000 % 128

/-- The first line of an access that ends it: a POISON line that is read, or the line that the upset names. -/
def badIndex (s : State) (lines : List Nat) (reads : Bool) (up : MemUpset) : Option Nat :=
  let p := if reads then lines.findIdx? s.mt.poison.contains else none
  let b := if reads || up.edc then up.badLine.bind fun i => if i < lines.length then some i else none else none
  match p, b with
  | some i, some j => some (min i j)
  | some i, none => some i
  | none, j => j

/-- EDC retries of line `i` of an access: at most three of a burst, and all three of one that is exhausted (R179). -/
def lineRetries (bad : Option Nat) (up : MemUpset) (i : Nat) : Nat :=
  if up.edc ∧ bad = some i then 3 else min 3 (up.retries.count i)

/-- A line of a read is returned corrected: it is counted, and rewritten in the channel's next refresh slot (R179). -/
def correctLine (l : Nat) (s : State) : State :=
  bump .mtCorr (lineChan l) (modChan (lineChan l) (fun c => { c with rewrite := setIns l c.rewrite }) s)

/-- What an access that met errors leaves: counts on each line's channel, poison, MT_ERR_LAST, events (R179). Only an access that
reads corrects. -/
def noteErrors (lines : List Nat) (reads : Bool) (up : MemUpset) (s : State) : State :=
  let b := badIndex s lines reads up
  let poisoned := reads && b.any fun i => s.mt.poison.contains (lines.getD i 0)
  let s1 := forEach lines.zipIdx (fun x t => edcRetry (lineChan x.1) (lineRetries (if poisoned then none else b) up x.2) t) s
  let fixed := lines.zipIdx.filter fun x => reads && up.corrected.contains x.2 && decide (b ≠ some x.2) && !s.mt.poison.contains x.1
  let s2 := forEach fixed (fun x t => correctLine x.1 t) s1
  match b with
  | none => s2
  | some i =>
    let l := lines.getD i 0
    if poisoned then memError l 1 false s2
    else if up.edc then exhaustBurst (lineChan l) (memError l 2 false (poisonLine l s2))
    else memError l 0 true (poisonLine l s2)

/-- Which lines of an access take effect: all, or with a bad line those before it for a write (`wr`), and others as the upset says
(R179); a line whose read is poisoned never does. -/
def landedLines (s : State) (lines : List Nat) (wr reads : Bool) (bad : Option Nat) (up : MemUpset) : List Nat :=
  match bad with
  | none => List.range lines.length
  | some b => (List.range lines.length).filter fun i =>
      decide (i ≠ b) && !(reads && s.mt.poison.contains (lines.getD i 0)) && ((wr && decide (i < b)) || up.landed.contains i)

/-- A read by firmware or an engine that met a POISON line is counted, recorded and reported (R179). -/
def noteRead (p : Place) (n : Nat) (s : State) : State :=
  match regionOf s p.rd p.region with
  | none => s
  | some e =>
    let o := p.off - p.off % 64
    let lines := (p.off % 64 + n + 63) / 64
    if anyFailed s (regionChans p.rd e o lines) then s
    else match (regionLines p.rd e o lines).find? s.mt.poison.contains with
      | some l => memError l 1 false s
      | none => s

/-- The same for a near address of a cluster. -/
def noteNear (cl a n : Nat) (s : State) : State :=
  let (rd, h, off) := nearAddr (clDie cl) a
  noteRead ⟨rd, h, off⟩ n s

/-! ## MOVE and ACCUM (R169 to R171) -/

/-- Checks at post of a MOVE or ACCUM (R169). -/
def moveCheck (s : State) (cl : Nat) (c : Card) : Chk :=
  firstBad [
    poolRange (mvLine c) (mvLines c),
    badField (decide (mvLines c = 0) || decide (4096 < mvLines c)) 3 16,
    (if c.opcode = 4 then badField (decide (acFmt c ≠ 7) && decide (acFmt c ≠ 5)) 3 33 else none),
    bad (decide ((mvMem c).toNat % 64 ≠ 0) || (tierAddr s (clDie cl) (mvMem c)).isNone
      || (decide (c.opcode = 4) && decide (fld (mvMem c) 63 61 ≠ 2))) .mtAddrInvalid,
    tooLong (8 + mvLines c)]

/-- Hands an operation to the cluster's tier port; at most 32 are outstanding (R105). -/
def putTier (cl : Nat) (r : Run) (s : State) : State := modCl cl (fun c => { c with tier := c.tier ++ [r] }) s

/-- Whether the tier port takes another operation and the budget pays it (R169, R442, R443). -/
def tierFree (s : State) (cl : Nat) : Bool :=
  decide (((getCl s cl).tier.filter fun r => decide (r.host ≠ 2)).length < 32)

/-- A run of a tier operation that has ended with a status. -/
def tierRun (q : QCard) (st : Status) (ws : List (Nat × Byte)) (s : State) : Run :=
  { runOf q with status := st, writes := ws, issueTick := s.tk.tick }

/-- Words of the destination of an ACCUM source line range, widened to FP32 (R171). -/
def accumSource (s : State) (cl : Nat) (c : Card) : List W32 :=
  if acFmt c = 7 then poolW32 s cl (mvLine c) (16 * mvLines c) else poolRow32 s cl (mvLine c) 5 (32 * mvLines c)

/-- An access whose own errors have made a channel of it FAILED ends with MT_CHANNEL_FAILED (R180). -/
def endFailed (chs : List Nat) (w : Run × State) : Run × State :=
  (if anyFailed w.2 chs then { w.1 with status := .mtChannelFailed, writes := [] } else w.1, w.2)

/-- Reads lines of a region into the pool: the run, with its writes for the lines that land. -/
def readLines (cl : Nat) (q : QCard) (rd : Nat) (e : Region) (off line n : Nat) (up : MemUpset) (s : State) : Run × State :=
  let lines := regionLines rd e off n
  let b := badIndex s lines true up
  let ws := (landedLines s lines false true b up).flatMap fun i =>
    bytesAt (poolKey cl (64 * (line + i))) (regionBytes s rd e (off + 64 * i) 64)
  let chs := regionChans rd e off n
  endFailed chs ({ tierRun q (if b.isSome then .mtUncorrectable else .ok) ws s with chans := chs }, noteErrors lines true up s)

/-- Writes lines into a region; a full-line write clears POISON (R179). `reads` for an ACCUM that adds. -/
def writeLines (q : QCard) (rd : Nat) (e : Region) (h off : Nat) (data : List Byte) (reads : Bool) (up : MemUpset) (s : State) :
    Run × State :=
  let n := data.length / 64
  let lines := regionLines rd e off n
  let b := badIndex s lines reads up
  let s1 := forEach (landedLines s lines true reads b up)
    (fun i t => writePlace rd h (off + 64 * i) ((data.drop (64 * i)).take 64) t) s
  let chs := regionChans rd e off n
  endFailed chs ({ tierRun q (if b.isSome then .mtUncorrectable else .ok) [] s with chans := chs }, noteErrors lines reads up s1)

/-- The pool line at which a write to near memory stops: the first with an uncorrectable word, where the upset names one of
the operation's (R102). -/
def poolStop (up : MemUpset) (n : Nat) : Option Nat := up.pool.bind fun i => if i < n then some i else none

/-- A write whose pool lines are whole only up to line `p`: the lines before it are written, and the operation ends with the
status of a bad near-memory line among them, else POOL_UNCORRECTABLE (R102, R179). -/
def stopAtPool (w : Run × State) : Run × State :=
  (if w.1.status = .ok then { w.1 with status := .poolUncorrectable } else w.1, w.2)

/-- Performs a MOVE or ACCUM on this package's memory (R164, R169 to R172, R179, R180). -/
def moveHere (cl : Nat) (q : QCard) (rd h off : Nat) (up : MemUpset) (s : State) : Run × State :=
  let c := q.card
  let acc := decide (c.opcode = 4)
  let wr := acc || mvBit c
  let n := if acc && decide (acFmt c = 5) then 2 * mvLines c else mvLines c
  match access s c.part c.job c.cls cl rd h off (64 * n) (if acc then .add else if wr then .wr else .rd), regionOf s rd h with
  | .ok _, some e =>
    if anyFailed s (regionChans rd e off n) then (tierRun q .mtChannelFailed [] s, s)
    else if acc then
      let xs := accumSource s cl c
      let ds := (List.range xs.length).map fun i => BitVec.ofNat 32 (leNat (regionBytes s rd e (off + 4 * i) 4))
      let data := w32Bytes (if mvBit c then xs else List.zipWith fAdd ds xs)
      match poolStop up (mvLines c) with
      | some p => stopAtPool (writeLines q rd e h off (data.take (64 * (p * (n / mvLines c)))) (!mvBit c) up s)
      | none => writeLines q rd e h off data (!mvBit c) up s
    else if wr then
      let data := memBytes s.mem (poolKey cl (64 * mvLine c)) (64 * n)
      match poolStop up n with
      | some p => stopAtPool (writeLines q rd e h off (data.take (64 * p)) false up s)
      | none => writeLines q rd e h off data false up s
    else readLines cl q rd e off (mvLine c) n up s
  | .error st, _ => (tierRun q st [] s, s)
  | _, none => (tierRun q .mtAddrInvalid [] s, s)

/-- MOVE and ACCUM: the control core hands the operation to the tier port and goes on with its list. A remote read asks
the other package for its lines (R170). A remote write is never allowed: the requester refuses it itself, whatever the other
package's region table holds (R164; DESIGN CHOICE, log 100). -/
def doMove (cl : Nat) (up : MemUpset) (q : QCard) (s : State) : State :=
  let c := q.card
  match tierAddr s (clDie cl) (mvMem c) with
  | none => retire9 cl q .mtAddrInvalid 8 s
  | some (.here rd h off) =>
    let (r, s1) := moveHere cl q rd h off up s
    putTier cl r s1
  | some (.remote pkg rd _ _) =>
    if c.opcode = 4 ∨ mvBit c then putTier cl (tierRun q .mtReadOnly [] s) s
    else
      sendMsg pkg 3 c.cls (clDie cl) (56 + rd) ⟨c.job, 0, 0, clDie cl, cl % 32, 0, 0, 0, mvLines c, mvLine c, 0, true⟩
        (w64Bytes [mvMem c, BitVec.ofNat 64 (mvLines c)]) (putTier cl { tierRun q .ok [] s with host := 1 } s)

/-- Runs an engine-9 card that goes to the tier port: there is room, and the budget pays T × 120 pJ (R442). -/
def execTier (cl op t : Nat) (f : QCard → State → State) (s : State) : State :=
  if !tierFree s cl then s
  else if (ready9 s cl op).isSome && !canPay s (clOwnerPart s cl) (1200 * t) then markCapped cl s
  else exec9 cl op (fun q u => f q (pay (clOwnerPart u cl) (1200 * t) u)) s

/-- Length of the tier card that executes next. -/
def tierLength (s : State) (cl : Nat) : Nat :=
  match (getCl s cl).exec9 with
  | some q => 8 + mvLines q.card
  | none => 8

/-- Removes an element of a list. -/
def dropAt {α : Type} (k : Nat) (l : List α) : List α := l.take k ++ l.drop (k + 1)

/-- Whether a tier operation may retire: a remote read only when every line has landed or it has ended. -/
def tierDone (r : Run) : Bool :=
  decide (r.host ≠ 1) || decide (r.status ≠ .ok) || decide (r.landed.length = mvLines r.card)

/-- A tier operation retires: its lines are in the pool. CYCLES of a memory access is a free value, since the spec bounds
it only (log 17). -/
def retireTier (cl k : Nat) (s : State) : State :=
  match (getCl s cl).tier[k]? with
  | none => s
  | some r =>
    if !tierDone r then s
    else
      let (v, s1) := takeFree s
      settle cl ⟨r.card, r.ord⟩ { r.report r.status 0 with cycles := v.toNat % 2 ^ 32 }
        (putMem r.writes (modCl cl (fun c => { c with tier := dropAt k c.tier }) s1))

/-- MT_REMOTE_TIMEOUT (R170): a remote read that is not whole 4 ticks after its issue ends. -/
def remoteTimeout (cl k : Nat) (s : State) : State :=
  match (getCl s cl).tier[k]? with
  | none => s
  | some r =>
    if r.host = 1 ∧ r.status = .ok ∧ r.landed.length < mvLines r.card ∧ r.issueTick + 4 ≤ s.tk.tick then
      modCl cl (fun c => { c with tier := c.tier.set k { r with status := .mtRemoteTimeout } }) s
    else s

/-- MEM_DATA (R170): lines of a remote read land, from line `first` on, or the refusal it ends with. -/
def memDataIn (cl k first : Nat) (data : List Byte) (refused : Option Status) (s : State) : State :=
  match (getCl s cl).tier[k]? with
  | none => s
  | some r =>
    if r.host ≠ 1 ∨ r.status ≠ .ok then s
    else
      let more := fun (l : List (Nat × Byte)) => if r.discard then [] else r.writes ++ l
      let r' := match refused with
        | some st => { r with status := st }
        | none =>
          let n := data.length / 64
          let ls := (List.range n).map (first + ·) |>.filter fun i => decide (i < mvLines r.card) && !r.landed.contains i
          { r with landed := r.landed ++ ls,
                   writes := more (ls.flatMap fun i =>
                     bytesAt (poolKey cl (64 * (mvLine r.card + i))) ((data.drop (64 * (i - first))).take 64)) }
      modCl cl (fun c => { c with tier := c.tier.set k r' }) s

/-! ## Prefetch (R174, R175) -/

/-- An entry lands in the pool; one whose read is uncorrectable writes nothing and the job falls (R175). The lines of an entry
of TIER 4 come with the landing, all of them, or the status with which the other package refuses them (R170, log 7). -/
def landPrefetch (cl i : Nat) (up : MemUpset) (data : List Byte) (refused : Option Status) (s : State) : State :=
  match (getCl s cl).prefetch[i]?, (getCl s cl).owner with
  | some e, some (_, p, j) =>
    if !listWindow s cl then s
    else
      let s1 := modCl cl (fun c => { c with prefetch := dropAt i c.prefetch }) s
      match tierAddr s (clDie cl) (BitVec.ofNat 64 e.src) with
      | some (.here rd h off) =>
        match access s p j e.cls cl rd h off (64 * e.lines) .rd, regionOf s rd h with
        | .ok _, some g =>
          let lines := regionLines rd g off e.lines
          let s2 := noteErrors lines true up s1
          if anyFailed s (regionChans rd g off e.lines) then faultJob j .mtChannelFailed s1
          else if (badIndex s lines true up).isSome then faultJob j .mtUncorrectable s2
          else putMem (bytesAt (poolKey cl (64 * e.dst)) (regionBytes s rd g off (64 * e.lines))) s2
        | _, _ => s1
      | some (.remote _ _ _ _) => match refused with
        | some st => if st = .mtUncorrectable ∨ st = .mtChannelFailed then faultJob j st s1 else s1
        | none => if data.length ≠ 64 * e.lines then s else putMem (bytesAt (poolKey cl (64 * e.dst)) data) s1
      | none => s1
  | _, _ => s

/-! ## Refresh and zeroing (R167, R182) -/

/-- Whether a channel carries the package region (R161). -/
def packageChan (ch : Nat) : Bool := decide (ch = 15) || decide (ch = 47)

/-- A channel is powered: it has an owner or carries the package region (R37), or bytes of it still wait to be zeroed (R167,
log 91). -/
def chanPowered (s : State) (ch : Nat) : Bool :=
  (chanOwner s.pt.chans ch).isSome || packageChan ch || !(getChan s ch).zeroing.isEmpty

/-- A channel goes DOWN with its owner and comes up with one; a FAILED channel stays so (R37, R180, R183). -/
def powerChan (ch : Nat) (s : State) : State :=
  let st := (getChan s ch).state
  if chanPowered s ch then (if st = .down then modChan ch (fun c => { c with state := .active }) s else s)
  else if st = .active ∨ st = .retrain then modChan ch (fun c => { c with state := .down }) s
  else s

/-- Every channel after the partition table has changed. -/
def powerChans (s : State) : State := forEach (List.range 128) powerChan s

/-- Lines of a channel (R161). -/
def chanLines : Nat := 250000000

/-- Whether a line is one of the 64 that the next refresh slot scrubs (R182). -/
def scrubbed (c : Chan) (l : Nat) : Bool := decide (l < chanLines) && decide ((l + chanLines - c.scrub) % chanLines < 64)

/-- A refresh slot: pending rewrites are done and 64 lines are scrubbed, of which those named prove corrected or poisoned
(R179, R182). An unowned channel is held powered down unless it carries the package region. -/
def refreshSlot (ch : Nat) (corrected poisoned : List Nat) (s : State) : State :=
  if (chanOwner s.pt.chans ch).isNone && !packageChan ch then s
  else if (getChan s ch).state = .failed then s
  else
    let here := fun (ls : List Nat) => (ls.filter (scrubbed (getChan s ch))).eraseDups
    let bad := here poisoned
    let fixed := (here corrected).filter fun l => !bad.contains l
    let s1 := modChan ch (fun c => { c with rewrite := [], scrub := (c.scrub + 64) % chanLines }) s
    let s2 := if fixed = [] then s1 else bumpBy .mtCorr ch fixed.length s1
    forEach bad (fun l t => memError (chanKey ch 0 / 64 + l) 3 true (poisonLine (chanKey ch 0 / 64 + l) t)) s2

/-- The freed ranges of a channel are zeroed and may be reserved again (R167). -/
def zeroChannel (ch : Nat) (s : State) : State :=
  let s1 := forEach (getChan s ch).zeroing (fun r t => zeroMem (chanKey ch r.1) r.2 t) s
  let lo := fun (r : Nat × Nat) (k : Nat) => decide (chanKey ch r.1 ≤ k * 64) && decide (k * 64 < chanKey ch r.1 + r.2)
  let rs := (getChan s ch).zeroing
  powerChan ch (modChan ch (fun c => { c with zeroing := [] })
    { s1 with mt := { s1.mt with poison := s1.mt.poison.filter fun k => !(rs.any fun r => lo r k) } })

/-! ## The commands -/

/-- A MOVE or ACCUM at its place in the list: one that would write a block not yet copied waits (R347). -/
def runMove (cl op : Nat) (up : MemUpset) (s : State) : State :=
  let wait : Option State := match ready9 s cl op with
    | none => none
    | some q => match tierAddr s (clDie cl) (mvMem q.card) with
      | some (.here rd h off) =>
        let n := if op = 4 ∧ acFmt q.card = 5 then 2 * mvLines q.card else mvLines q.card
        if op = 4 ∨ mvBit q.card then stallOn q.card.job (clDie cl) (touches rd h off (64 * n)) s else none
      | _ => none
  match wait with
  | some t => t
  | none => execTier cl op (tierLength s cl) (doMove cl up) s

/-- MOVE (R169). -/
def execMove (cl : Nat) (up : MemUpset) (s : State) : Host.Outcome State Fault Refusal := running s (runMove cl 3 up)

/-- ACCUM (R171). -/
def execAccum (cl : Nat) (up : MemUpset) (s : State) : Host.Outcome State Fault Refusal := running s (runMove cl 4 up)

/-- MT_REMOTE_TIMEOUT (R170). -/
def execMtRemoteTimeout (cl k : Nat) (s : State) : Host.Outcome State Fault Refusal := running s (remoteTimeout cl k)

/-- MEM_DATA (R170). -/
def execMemData (cl k first : Nat) (data : List Byte) (refused : Option Status) (s : State) :
    Host.Outcome State Fault Refusal := running s (memDataIn cl k first data refused)

/-- PREFETCH_LAND (R175). -/
def execPrefetchLand (cl i : Nat) (up : MemUpset) (data : List Byte) (refused : Option Status) (s : State) :
    Host.Outcome State Fault Refusal := running s (landPrefetch cl i up data refused)

/-- REFRESH_SLOT (R182). -/
def execRefreshSlot (ch : Nat) (corrected poisoned : List Nat) (s : State) : Host.Outcome State Fault Refusal :=
  running s (refreshSlot ch corrected poisoned)

/-- REGION_ZERO (R167). -/
def execRegionZero (ch : Nat) (s : State) : Host.Outcome State Fault Refusal := running s (zeroChannel ch)

end Sys2Proof.Machine
end

