-- ==== Sys2Proof/Machine/Gen.lean ====
section
/-!
DEFINITION. Generation (R186 to R204, R213 to R221): request records, identifiers, output rings, admission, tenant budgets,
steps, cancels, KV pages and the prefix tree.
-/

namespace Sys2Proof.Machine

/-! ## Request records (R187) -/

/-- KIND. -/
def rqKind (c : Card) : Nat := fld c.w0 1 0

/-- JOB. -/
def rqJob (c : Card) : Nat := fld c.w0 31 16

/-- TENANT. -/
def rqTenant (c : Card) : Nat := fld c.w0 43 32

/-- GRAMMAR. -/
def rqGrammar (c : Card) : Nat := fld c.w0 47 44

/-- ALLOW. -/
def rqAllow (c : Card) : Nat := fld c.w0 51 48

/-- PIN_PREFIX. -/
def rqPin (c : Card) : Bool := flag c.w0 52

/-- STOP_EOS. -/
def rqStopEos (c : Card) : Bool := flag c.w0 53

/-- CLIENT_TAG. -/
def rqTag (c : Card) : W64 := c.w1

/-- PROMPT as a handle and an offset. -/
def rqPrompt (c : Card) : Nat × Nat := (fld c.w2 47 40, fld c.w2 39 0)

/-- PROMPT_RD. -/
def rqRd (c : Card) : Nat := fld c.w2 50 48

/-- PROMPT_LEN. -/
def rqLen (c : Card) : Nat := fld c.w3 18 0

/-- MAX_TOKENS. -/
def rqMax (c : Card) : Nat := fld c.w3 37 19

/-- TEMPERATURE. -/
def rqTemp (c : Card) : W32 := c.w4.truncate 32

/-- TOP_K. -/
def rqTopK (c : Card) : Nat := fld c.w4 42 32

/-- TOP_P. -/
def rqTopP (c : Card) : W32 := c.w5.truncate 32

/-- TTFT_TARGET. -/
def rqTtft (c : Card) : Nat := fld c.w5 47 32

/-- TBT_TARGET. -/
def rqTbt (c : Card) : Nat := fld c.w5 63 48

/-- SAMPLE_SEED. -/
def rqSeed (c : Card) : W64 := c.w6

/-- REQ_ID of a CANCEL. -/
def rqId (c : Card) : Nat := fld c.w7 31 0

/-- A reserved field of a SUBMIT is not zero; its REQ_ID must be 0 (R187). -/
def rqReserved (c : Card) : Bool :=
  decide (fld c.w0 15 2 ≠ 0) || decide (fld c.w0 63 54 ≠ 0) || decide (fld c.w2 63 51 ≠ 0) || decide (fld c.w3 63 38 ≠ 0)
    || decide (fld c.w4 63 43 ≠ 0) || decide (c.w7 ≠ 0#64)

/-- A reserved field of a CANCEL is not zero (R187). -/
def rqCancelReserved (c : Card) : Bool :=
  decide (fld c.w0 15 2 ≠ 0) || decide (fld c.w0 63 54 ≠ 0) || decide (c.w2 ≠ 0#64) || decide (c.w3 ≠ 0#64)
    || decide (c.w4 ≠ 0#64) || decide (c.w5 ≠ 0#64) || decide (c.w6 ≠ 0#64) || decide (fld c.w7 63 32 ≠ 0)

/-! ## The generator side of a job -/

/-- The GEN section of a live job. -/
def genOf (s : State) (j : Nat) : Option GenSt := (getJob s j).bind (·.gen)

/-- Changes it. -/
def modGen (j : Nat) (f : GenSt → GenSt) (s : State) : State := modJob j (fun x => { x with gen := x.gen.map f }) s

/-- An admitted GEN job of the partition whose end is not decided. -/
def genAdmitted (s : State) (p j : Nat) : Option GenSt :=
  match getJob s j with
  | some x => if x.part = p ∧ x.ending.isNone then x.gen else none
  | none => none

/-- Tenant `t` (R195). -/
def getTenant (s : State) (t : Nat) : Tenant :=
  tabGet ⟨0, false, 0, 0, 0, 0, (0, 0, 0, 0), (0, 0, 0, 0)⟩ s.gen.tenants t

/-- Changes a tenant. -/
def modTenant (t : Nat) (f : Tenant → Tenant) (s : State) : State :=
  { s with gen := { s.gen with tenants := tabIns t (f (getTenant s t)) s.gen.tenants } }

/-- A live request by partition and identifier. -/
def findReq (s : State) (p id : Nat) : Option Req := s.gen.reqs.find? fun r => decide (r.part = p) && decide (r.id = id)

/-- The request that holds a sequence slot of a job. -/
def slotReq (s : State) (j slot : Nat) : Option Req :=
  s.gen.reqs.find? fun r => decide (r.job = j) && decide (r.slot = some slot)

/-- The request whose slot steps in this tick and has not retired its STEP_DONE (R204, R218); a late step goes on
stepping. -/
def stepping (s : State) (j slot : Nat) : Option Req :=
  match slotReq s j slot with
  | some r => if r.step.isSome ∧ r.stepDone = false ∧ (r.state = .prefill ∨ r.state = .decode) then some r else none
  | none => none

/-- The policy epoch in force for a job (R220, R231): its context's active epoch, 0 without a context. -/
def epochInForce (s : State) (j : Nat) : Nat :=
  match jobCtx s j with
  | some c => c.epochActive
  | none => 0

/-! ## The output ring (R201 to R203) -/

/-- Kind codes of an END record. -/
def endCode : EndKind → Nat
  | .complete => 0
  | .cancelled => 1
  | .refused => 2
  | .failed => 3

/-- ACK record. -/
def ackRec (id : Nat) (st : Status) (tag : W64) (ends : Option Nat) : RingRec :=
  ⟨BitVec.ofNat 64 id, BitVec.ofNat 64 (statusCode st).toNat, 0#64, tag, ends⟩

/-- END record (R199, R203). -/
def endRec (r : Req) (k : EndKind) (reason : Nat) (st : Status) : RingRec :=
  ⟨BitVec.ofNat 64 (r.id + 2 * 2 ^ 32 + min r.tokens (2 ^ 18 - 1) * 2 ^ 34),
   BitVec.ofNat 64 ((statusCode st).toNat + endCode k * 2 ^ 16 + reason * 2 ^ 19 + (if r.tbtMissOvf then 2 ^ 20 else 0)
     + r.tbtMiss * 2 ^ 32),
   BitVec.ofNat 64 ((if r.tokens = 0 then 0xFFFFFFFF else min r.ttftUs 0xFFFFFFFF) + min r.tbtMaxUs 0xFFFFFFFF * 2 ^ 32),
   rqTag r.card, some r.id⟩

/-- TOKEN record (R203). -/
def tokenRec (r : Req) (t : TokRes) (position tick : Nat) (late ttft tbt : Bool) : RingRec :=
  let b := fun (x : Bool) (n : Nat) => if x then 2 ^ n else 0
  ⟨BitVec.ofNat 64 (r.id + 2 ^ 32 + position * 2 ^ 34),
   BitVec.ofNat 64 (r.stepEpoch % 2 ^ 16 + t.token * 2 ^ 16 + b late 34 + b ttft 35 + b tbt 36 + b t.trunc 37
     + b t.greedy 38),
   BitVec.ofNat 64 (t.lpFull.toNat + t.lpSampled.toNat * 2 ^ 32), BitVec.ofNat 64 tick, none⟩

/-- Whether the ring has room (R201). -/
def ringRoom (g : GenSt) : Bool := decide (ago64 g.write g.read < g.ringRecords)

/-- Drops a request whose END or refusing ACK has been written and whose slot is free (R189). -/
def sweepReqs (s : State) : State :=
  { s with gen := { s.gen with reqs := s.gen.reqs.filter fun r => !(r.endWritten && r.slot.isNone) } }

/-- Writes a record at WRITE_INDEX and advances it (R201); an identifier stops being live with its last record (R189). -/
def ringPut (p j : Nat) (r : RingRec) (s : State) : State :=
  match genOf s j with
  | none => s
  | some g =>
    let s1 := writePlace g.ringRd g.ringRegion (64 + 32 * (g.write % g.ringRecords)) (w64Bytes [r.w0, r.w1, r.w2, r.w3]) s
    let s2 := writePlace g.ringRd g.ringRegion 0 (leBytes 8 (next64 g.write)) s1
    let s3 := modGen j (fun x => { x with write := next64 x.write }) s2
    match r.ends with
    | some id => sweepReqs (modReq p id (fun q => { q with endWritten := true }) s3)
    | none => s3

/-- A request whose token waits for room in its ring (R202): its step has ended and it has not been cancelled. -/
def tokenWaits (s : State) (p id : Nat) : Option Req :=
  match findReq s p id with
  | some r => if r.step.isSome ∧ r.stepDone ∧ r.ready.isSome then some r else none
  | none => none

/-- Writes waiting records in order while they fit (R202): `deliver` makes a waiting token visible, at a commit point; without it
a waiting token holds back what follows. A token that has been cancelled is passed over. -/
def flushN (deliver : Option (Req → State → State)) : Nat → Nat → Nat → State → State
  | 0, _, _, s => s
  | k + 1, p, j, s =>
    match genOf s j with
    | some g =>
      let rest := modGen j (fun x => { x with wait := x.wait.drop 1 }) s
      match g.wait with
      | .record r :: _ => if ringRoom g then flushN deliver k p j (ringPut p j r rest) else s
      | .token id :: _ =>
        match tokenWaits s p id with
        | none => flushN deliver k p j rest
        | some r => match deliver with
          | some f => if ringRoom g then flushN deliver k p j (f r rest) else s
          | none => s
      | [] => s
    | none => s

/-- Writes the job's waiting records while they fit. -/
def flushRing (deliver : Option (Req → State → State)) (j : Nat) (s : State) : State :=
  match getJob s j with
  | some x => match x.gen with
    | some g => flushN deliver g.wait.length x.part j s
    | none => s
  | none => s

/-- Records join those that wait. -/
def waitRecs (j : Nat) (l : List RingRec) (s : State) : State := modGen j (fun g => { g with wait := g.wait ++ l.map .record }) s

/-! ## Experience rings (R286 to R288) -/

/-- The LEARN section of a live job. -/
def learnOf (s : State) (j : Nat) : Option LearnSt := (getJob s j).bind (·.learn)

/-- Changes it. -/
def modLearn (j : Nat) (f : LearnSt → LearnSt) (s : State) : State := modJob j (fun x => { x with learn := x.learn.map f }) s

/-- The number that stands for ring `i` of a job where its consumer is on another package (log 26). -/
def awayRing (j i : Nat) : Nat := 256 + 64 * j + i

/-- The ring that a sequence slot of a job feeds: its place among the job's slots modulo EXP_RINGS (R286, log 26). -/
def slotRing (s : State) (j slot : Nat) : Option Nat :=
  match learnOf s j, genOf s j with
  | some l, some g => if l.rings = [] then none else l.rings[(g.slots.findIdx (· == slot)) % l.rings.length]?
  | _, _ => none

/-- PROMPT records of a request (R288). -/
def promptRecords (c : Card) : Nat := (rqLen c + 13) / 14

/-- Records of a step that samples a token (R288); its END is held already. -/
def stepRecords (topk : Nat) (r : Req) : Nat := (if r.tokens = 0 then promptRecords r.card else 0) + 1 + (topk + 6) / 7

/-- The step that a request has begun samples a token. -/
def samplesNow (r : Req) : Bool := match r.step with
  | some (a, n) => decide (r.state = .decode) || decide (a + n = rqLen r.card)
  | none => false

/-- The step that a request would begin samples a token. -/
def samplesNext (s : State) (r : Req) : Bool := match genOf s r.job with
  | some g => decide (r.state = .decode) || decide (rqLen r.card - r.pos ≤ g.prefillChunk)
  | none => false

/-- TOPK of a job. -/
def jobTopk (s : State) (j : Nat) : Nat := ((learnOf s j).map (·.topk)).getD 0

/-- Records of a ring that are held: for ENDs to come, and for the sampling steps under way. -/
def expHeld (s : State) (k : Nat) : Nat :=
  ((s.gen.reqs.filter fun r => decide (r.ring = some k) && r.ended.isNone).length)
    + ((s.jobs.map fun j => match j.2.learn with
        | some l => (l.expEnds.filter fun e => decide (e.1 = k)).length
        | none => 0).sum)
    + ((s.gen.reqs.filter fun r => decide (r.ring = some k) && samplesNow r).map fun r => stepRecords (jobTopk s r.job) r).sum

/-- Records of a ring that are free; the package does not see the room of a ring on another package (log 26). -/
def expRoom (s : State) (k : Nat) : Nat := match tabFind k s.lrn.rings with
  | some r => 2 ^ r.log2 - ago64 r.write r.consume - expHeld s k
  | none => if k < 256 then 0 else 2 ^ 64

/-- END record of an experience ring (R287). -/
def expEndRec (r : Req) (k : EndKind) (reason : Nat) (st : Status) : Card :=
  ⟨BitVec.ofNat 64 (r.id + 3 * 2 ^ 32), BitVec.ofNat 64 ((statusCode st).toNat + endCode k * 2 ^ 16 + reason * 2 ^ 19),
   BitVec.ofNat 64 (min r.tokens (2 ^ 18 - 1)), 0#64, rqTag r.card, BitVec.ofNat 64 (rqTenant r.card), 0#64, 0#64⟩

/-! ## Ends (R189, R191) -/

/-- Remembers an ended identifier among the partition's last 4,096 (R189). -/
def rememberEnd (p id : Nat) (k : EndKind) (s : State) : State :=
  modPart p (fun x =>
    let l := x.ended.filter (fun e => decide (e.1 ≠ id)) ++ [(id, k)]
    { x with ended := l.drop (l.length - 4096) }) s

/-- Decides the end of a live request (R191); its END record waits for the next commit point when `record`. -/
def endReq (p id : Nat) (k : EndKind) (reason : Nat) (st : Status) (record : Bool) (s : State) : State :=
  match findReq s p id with
  | none => s
  | some r =>
    if r.ended.isSome then s
    else
      let s1 := modReq p id (fun q => { q with ended := some (k, reason, st), state := .ending, step := none, ready := none,
                                               waiting := false }) s
      let s0 := rememberEnd p id k s1
      let s2 := match r.ring with
        | some n => modLearn r.job (fun l => { l with expEnds := l.expEnds ++ [(n, r.stepEpoch, expEndRec r k reason st)] }) s0
        | none => s0
      if record then modGen r.job (fun g => { g with ends := g.ends ++ [endRec r k reason st] }) s2 else s2

/-- A sampler, mask or KV card that names a slot fails: the sequence ends FAILED (R191, R227). -/
def failSlot (j slot : Nat) (st : Status) (s : State) : State :=
  match slotReq s j slot with
  | some r => endReq r.part r.id .failed 0 st true s
  | none => s

/-! ## Identifiers and the latch (R188, R189) -/

/-- The first identifier from `i` on, wrapping from 2^32 − 1 to 1, that is not live. -/
def freeId (s : State) (p : Nat) : Nat → Nat → Nat
  | 0, i => i
  | k + 1, i => if (findReq s p i).isSome then freeId s p k (i % (2 ^ 32 - 1) + 1) else i

/-- Identifiers of a partition that are live. -/
def liveIds (s : State) (p : Nat) : Nat := (s.gen.reqs.filter fun r => decide (r.part = p)).length

/-- Rim dies of the application cores of a partition. -/
def coreDies (s : State) (p : Nat) : List Nat := (ptCores (ptEntry s p)).map (· / 16)

/-- R188's check of the prompt's region. -/
def promptCheck (s : State) (p : Nat) (c : Card) : Option Status :=
  let (h, off) := rqPrompt c
  match regionOf s (rqRd c) h with
  | none => some .mtAddrInvalid
  | some e =>
    if e.len < off + 4 * rqLen c then some .mtAddrInvalid
    else if e.job = rqJob c ∧ e.cls = 0 ∧ 56 ≤ e.owner ∧ (coreDies s p).contains (e.owner - 56) then none
    else some .mtNotOwner

/-- TEMPERATURE, TOP_K and TOP_P as R187 wants them. -/
def samplingOk (c : Card) : Bool :=
  fFin (rqTemp c) && !(fLt (rqTemp c) 0#32) && decide (rqTopK c ≤ 1024) && fLt 0#32 (rqTopP c)
    && fLe (rqTopP c) 0x3F800000#32

/-- Whether a grammar or allow-list handle is loaded for the job on one of its clusters (R209). -/
def handleLoaded (s : State) (j : Nat) (h : Nat) (tab : Cluster → Tab Nat) : Bool :=
  match getJob s j with
  | some x => x.clusters.any fun c => (tabFind h (tab (getCl s c.1))).isSome
  | none => false

/-- R188's checks of a SUBMIT, in order. -/
def submitCheck (s : State) (p : Nat) (c : Card) : Option Status :=
  if 1 < rqKind c then some .reqKindInvalid
  else if rqReserved c then some .reservedNonzero
  else match genAdmitted s p (rqJob c) with
    | none => some .reqJobInvalid
    | some g =>
      let t := getTenant s (rqTenant c)
      if t.valid = false ∨ t.part ≠ p then some .reqTenantInvalid
      else if rqLen c = 0 ∨ rqMax c = 0 ∨ 262143 < rqLen c ∨ 262143 < rqMax c ∨ g.maxLen < rqLen c + rqMax c then
        some .reqLengthInvalid
      else match promptCheck s p c with
        | some st => some st
        | none =>
          if samplingOk c = false then some .reqSamplingInvalid
          else if (rqGrammar c ≠ 0 ∧ handleLoaded s (rqJob c) (rqGrammar c) (·.grammars) = false)
              ∨ (rqAllow c ≠ 0 ∧ handleLoaded s (rqJob c) (rqAllow c) (·.allows) = false) then some .reqHandleInvalid
          else if 4096 ≤ (s.gen.reqs.filter fun r => decide (r.job = rqJob c) && decide (r.state = .queued)).length then
            some .reqQueueFull
          else none

/-- A request as latched. -/
def newReq (p id : Nat) (c : Card) (ns tick : Nat) : Req :=
  { id := id, card := c, part := p, job := rqJob c, state := .queued, arrivalNs := ns, latchTick := tick, slot := none,
    pages := [], reused := 0, pos := 0, step := none, lateStep := false, stepEpoch := 0, lastToken := 0, stepDone := false,
    ready := none, tokens := 0, lastTick := 0, lastNs := 0, ttftUs := 0, tbtMaxUs := 0, tbtMiss := 0, tbtMissOvf := false,
    ended := none, endWritten := false, pageWait := 0, waiting := false, toIndex := false, ring := none }

/-- The output ring of a job of a partition, admitted or ending (R201). -/
def ringOf (s : State) (p j : Nat) : Option GenSt := match getJob s j with
  | some x => if x.part = p then x.gen else none
  | none => none

/-- An ACK record for the next intake edge (R202); without a ring it leaves as it is (log 103). -/
def putAck (p j id : Nat) (st : Status) (tag : W64) (ends : Option Nat) (s : State) : State :=
  if (ringOf s p j).isSome then modGen j (fun g => { g with acks := g.acks ++ [ackRec id st tag ends] }) s
  else emit (.requestAck p id st tag) s

/-- Latches one record of a partition's intake FIFO (R186, R188, R189). -/
def latchOne (p : Nat) (x : Card × Nat × Bool) (s : State) : State :=
  let c := x.1
  let gone := x.2.2
  let id := freeId s p (liveIds s p + 1) (getPart s p).nextReq
  let st := if gone then none else submitCheck s p c
  let s1 := modPart p (fun y => { y with nextReq := id % (2 ^ 32 - 1) + 1 }) s
  let s2 := { s1 with gen := { s1.gen with reqs := s1.gen.reqs ++ [newReq p id c x.2.1 s.tk.tick] } }
  let ring := (ringOf s p (rqJob c)).isSome
  let swept := fun (t : State) => if ring then t else sweepReqs (modReq p id (fun q => { q with endWritten := true }) t)
  if gone then swept (endReq p id .cancelled 0 .cancelled true (putAck p (rqJob c) id .ok (rqTag c) none s2))
  else match st with
    | some e => swept (putAck p (rqJob c) id e (rqTag c) (some id) (endReq p id .refused 0 e false s2))
    | none => putAck p (rqJob c) id .ok (rqTag c) none s2

/-- Latches a partition's records while it holds fewer than 2^24 live identifiers (R189). -/
def latchN : Nat → Nat → State → State
  | 0, _, s => s
  | k + 1, p, s =>
    match (getPart s p).intake with
    | x :: rest =>
      if liveIds s p < 2 ^ 24 then latchN k p (latchOne p x (modPart p (fun y => { y with intake := rest, intakeCredits := y.intakeCredits + 1 }) s)) else s
    | [] => s

/-- Step 1 of R193. -/
def latchAll (s : State) : State := forEach (List.range 16) (fun p t => latchN (getPart t p).intake.length p t) s

/-! ## KV pages (R215 to R217) -/

/-- A page's descriptor; FREE pages have none (R216). -/
def getPage (s : State) (p : Nat) : Option Page := tabFind p s.gen.pages

/-- Puts a page's descriptor. -/
def setPage (p : Nat) (x : Page) (s : State) : State := { s with gen := { s.gen with pages := tabIns p x s.gen.pages } }

/-- FREE pages of a job, ascending. -/
def freePages (s : State) (g : GenSt) : List Nat :=
  ((List.range g.pages).map (g.pageBase + ·)).filter fun p => (getPage s p).isNone

/-- Drops one reference of a page; a page without references is FREE. -/
def unrefPage (p : Nat) (s : State) : State :=
  match getPage s p with
  | none => s
  | some x =>
    if x.refs ≤ 1 then { s with gen := { s.gen with pages := tabDel p s.gen.pages } }
    else setPage p { x with refs := x.refs - 1 } s

/-- The token identifiers at a page. -/
def pageTokens (x : Page) : List (Option Nat) := (List.range 64).map fun i => tabFind i x.tokens

/-- The KV region of a die of a job (R215): the job's first GEN region, in the order of its manifest, that the die owns and
that holds the job's pages (log 19). -/
def kvRegion (s : State) (j die : Nat) : Option (Nat × Nat) :=
  match getJob s j, genOf s j with
  | some x, some g => x.regions.find? fun r => match regionOf s r.1 r.2 with
    | some e => decide (e.cls = 0) && decide (e.owner = die) && decide (g.pages * 4096 * g.posLines ≤ e.len)
    | none => false
  | _, _ => none

/-- The token-list region of a job (R215): its first WRITABLE GEN region, in the order of its manifest, that a die owns, that
holds 256 bytes a page and that is no KV region (log 19). -/
def tokenRegion (s : State) (j : Nat) : Option (Nat × Nat) :=
  match getJob s j, genOf s j with
  | some x, some g => x.regions.find? fun r => match regionOf s r.1 r.2 with
    | some e => decide (e.cls = 0) && decide (e.owner < 56) && !e.sealed && decide (g.pages * 256 ≤ e.len)
        && decide (kvRegion s j e.owner ≠ some r)
    | none => false
  | _, _ => none

/-- Puts the token identifier of a position of a page at its place in the token-list region (R215). -/
def listToken (j page pos tok : Nat) (s : State) : State :=
  match tokenRegion s j, genOf s j with
  | some (rd, h), some g => writePlace rd h ((page - g.pageBase) * 256 + 4 * (pos % 64)) (leBytes 4 tok) s
  | _, _ => s

/-- Records the token of a position at its page, with the epoch of the step that computes it (R215, R219). -/
def putToken (r : Req) (epoch pos tok : Nat) (s : State) : State :=
  match r.pages[pos / 64]? with
  | none => s
  | some p => match getPage s p with
    | none => s
    | some x =>
      if x.shared then s
      else listToken r.job p pos tok (setPage p { x with tokens := tabIns (pos % 64) tok x.tokens, epoch := epoch } s)

/-! ## The prefix tree (R219 to R221) -/

/-- The root's node number. -/
def rootNode : Nat := 0x400000

/-- fingerprint of R220. -/
def fingerprint (scope epoch parent : Nat) (toks : List Nat) : W64 :=
  toks.foldl (fun f t => mix64 (f ^^^ BitVec.ofNat 64 t))
    (mix64 (mix64 (BitVec.ofNat 64 (epoch * 2 ^ 16) ^^^ BitVec.ofNat 64 scope) ^^^ BitVec.ofNat 64 parent))

/-- The node of epoch `e` that matches 64 tokens under a parent (R220). -/
def matchNode (s : State) (j e parent : Nat) (toks : List Nat) : Option (Nat × Node) :=
  s.gen.nodes.find? fun n =>
    decide (n.2.scope = j) && decide (n.2.parent.getD rootNode = parent)
      && decide (n.2.fingerprint = fingerprint j e parent toks) && decide (n.2.epoch = e)
      && decide ((getPage s n.2.page).map pageTokens = some (toks.map some))

/-- Walks the tree from a node through prompt pages: the nodes matched, in order. -/
def walkTree (s : State) (j : Nat) : Nat → Nat → List Nat → List (Nat × Node)
  | 0, _, _ => []
  | k + 1, parent, toks =>
    match matchNode s j (epochInForce s j) parent (toks.take 64) with
    | some n => n :: walkTree s j k n.1 (toks.drop 64)
    | none => []

/-- Changes a node. -/
def modNode (n : Nat) (f : Node → Node) (s : State) : State :=
  match tabFind n s.gen.nodes with
  | some x => { s with gen := { s.gen with nodes := tabIns n (f x) s.gen.nodes } }
  | none => s

/-- Whether a leaf may be evicted (R221). -/
def evictable (s : State) (n : Node) : Bool :=
  decide (n.children = 0) && !n.pin && decide ((getPage s n.page).map (·.refs) = some 1)

/-- Whether leaf `a` is evicted before leaf `b` (R221): epoch not in force, then the oldest use, then the lower number. -/
def evictBefore (s : State) (a b : Nat × Node) : Bool :=
  let dead := fun (n : Node) => decide (n.epoch ≠ epochInForce s n.scope)
  let age := fun (n : Node) => (s.tk.tick + 2 ^ 40 - n.lastUse) % 2 ^ 40
  if dead a.2 ≠ dead b.2 then dead a.2
  else if age a.2 ≠ age b.2 then decide (age b.2 < age a.2)
  else decide (a.1 < b.1)

/-- The leaf to evict among those that satisfy `ok`. -/
def chooseLeaf (s : State) (ok : Nat × Node → Bool) : Option (Nat × Node) :=
  (s.gen.nodes.filter fun n => ok n && evictable s n.2).foldl (fun b n =>
    match b with
    | some x => if evictBefore s n x then some n else b
    | none => some n) none

/-- NODES, the partition's share of nodes (R386). -/
def nodeShare (s : State) (p : Nat) : Nat := ptFld (ptEntry s p) 7 62 40

/-- The bucket of a fingerprint, one head per node of the partition's share (R219): FINGERPRINT modulo the share (DESIGN CHOICE,
log 104). -/
def bucketKey (s : State) (p : Nat) (f : W64) : Nat := 2 ^ 23 * p + f.toNat % max 1 (nodeShare s p)

/-- Puts a node in use, at the head of its bucket chain (R219). -/
def linkNode (no : Nat) (x : Node) (s : State) : State :=
  let b := bucketKey s (x.scope / 4096) x.fingerprint
  { s with gen := { s.gen with nodes := tabIns no { x with hnext := tabFind b s.gen.buckets } s.gen.nodes,
                               buckets := tabIns b no s.gen.buckets } }

/-- Takes a node out of use and out of its bucket chain (R219). -/
def unlinkNode (n : Nat × Node) (s : State) : State :=
  let b := bucketKey s (n.2.scope / 4096) n.2.fingerprint
  let heads := if tabFind b s.gen.buckets = some n.1 then match n.2.hnext with
      | some k => tabIns b k s.gen.buckets
      | none => tabDel b s.gen.buckets
    else s.gen.buckets
  { s with gen := { s.gen with buckets := heads,
                               nodes := tabMap (fun _ y => if y.hnext = some n.1 then { y with hnext := n.2.hnext } else y)
                                 (tabDel n.1 s.gen.nodes) } }

/-- Evicts a leaf: its parent's CHILDREN falls and its page is freed (R221). -/
def evictLeaf (n : Nat × Node) (s : State) : State :=
  let s1 := unlinkNode n s
  let s2 := match n.2.parent with
    | some p => modNode p (fun x => { x with children := x.children - 1 }) s1
    | none => s1
  bump .kvEvict (n.2.scope / 4096) (unrefPage n.2.page s2)

/-- Nodes of a partition. -/
def partNodes (s : State) (p : Nat) : List (Nat × Node) := s.gen.nodes.filter fun n => decide (n.2.scope / 4096 = p)

/-- SLOTS share of a partition. -/
def slotShare (s : State) (p : Nat) : Nat := ptFld (ptEntry s p) 7 16 0

/-- PAGES share of a partition. -/
def pageShare (s : State) (p : Nat) : Nat := ptFld (ptEntry s p) 7 39 17

/-- The lowest node number that is not in use. -/
def freeNode (t : Tab Node) : Nat := t.foldl (fun k n => if n.1 = k then k + 1 else k) 0

/-- A node for an insert: a free one within the partition's share, else that of an evicted leaf (R221). -/
def takeNode (p keep : Nat) (s : State) : Option (Nat × State) :=
  if (partNodes s p).length < nodeShare s p then some (freeNode s.gen.nodes, s)
  else match chooseLeaf s fun n => decide (n.2.scope / 4096 = p) && decide (n.1 ≠ keep) with
    | some n => some (n.1, evictLeaf n s)
    | none => none

/-- Inserts the full prompt pages of a request from page `i` on, under a parent, each with the epoch whose weights produced it
(R219, R220). -/
def insertPages (r : Req) : Nat → Nat → Nat → State → State
  | 0, _, _, s => s
  | k + 1, i, parent, s =>
    match r.pages[i]?.bind fun pg => (getPage s pg).map fun x => (pg, x) with
    | none => s
    | some (pg, x) =>
      let toks := (pageTokens x).map (·.getD 0)
      match matchNode s r.job x.epoch parent toks with
      | some n => insertPages r k (i + 1) n.1 s
      | none =>
        if x.shared then s
        else match takeNode r.part parent s with
          | none => bumpBy .kvPrefixSkip r.part (k + 1) s
          | some (no, s1) =>
            let node : Node := { parent := if parent = rootNode then none else some parent, page := pg, pin := rqPin r.card,
                                 fingerprint := fingerprint r.job x.epoch parent toks, lastUse := s1.tk.tick % 2 ^ 40,
                                 children := 0, hnext := none, scope := r.job, epoch := x.epoch }
            let s2 := modNode parent (fun y => { y with children := y.children + 1 }) (linkNode no node s1)
            insertPages r k (i + 1) no (setPage pg { x with shared := true, refs := x.refs + 1 } s2)

/-! ## Admission and charges (R193 to R197) -/

/-- Prompt tokens of a request from position `a` on, `n` of them, as they stand in its region. -/
def promptTokens (s : State) (c : Card) (a n : Nat) : Except Status (List Nat) :=
  let (h, off) := rqPrompt c
  match readPlace s ⟨rqRd c, h, off + 4 * a⟩ (4 * n) with
  | .error e => .error e
  | .ok bs => .ok ((List.range n).map fun i => leNat ((bs.drop (4 * i)).take 4))

/-- A POISON line that a read of them met is counted (R179). -/
def notePrompt (c : Card) (a n : Nat) (s : State) : State :=
  let (h, off) := rqPrompt c
  noteRead ⟨rqRd c, h, off + 4 * a⟩ (4 * n) s

/-- Slots in use by a job. -/
def slotsUsed (s : State) (j : Nat) : List Nat := s.gen.reqs.filterMap fun r => if r.job = j then r.slot else none

/-- What holds later requests back at an intake edge (R194): the job, and tenants. -/
structure Held where
  job : Bool
  tenants : List Nat

/-- Admits a QUEUED request if it can reserve everything (R193, R194, R220). -/
def admitReq (j : Nat) (id : Nat) (acc : Held × State) : Held × State :=
  let (h, s) := acc
  match getJob s j, genOf s j with
  | some x, some g =>
    match findReq s x.part id with
    | none => acc
    | some r =>
      if r.state ≠ .queued ∨ h.job ∨ h.tenants.contains (rqTenant r.card) then acc
      else
        let len := rqLen r.card
        match promptTokens s r.card 0 len with
        | .error e => (h, endReq r.part id .failed 0 e true (notePrompt r.card 0 len s))
        | .ok toks =>
          let found := walkTree s j ((len - 1) / 64) rootNode toks
          let hp := found.length
          let need := len - 64 * hp
          let t := getTenant s (rqTenant r.card)
          if t.cap < need then (h, endReq r.part id .refused 0 .reqBudgetExceedsCap true s)
          else
            let newPages := (len + 1 + 63) / 64 - hp
            let free := freePages s g
            match g.slots.find? fun k => !(slotsUsed s j).contains k with
            | none => ({ h with job := true }, s)
            | some slot =>
              let ring := slotRing s j slot
              let noRoom := match ring with
                | some k => decide (expRoom s k = 0)
                | none => false
              if decide (free.length < newPages) || noRoom then ({ h with job := true }, s)
              else if t.balance < 256 * need then ({ h with tenants := rqTenant r.card :: h.tenants }, s)
              else
                let taken := free.take newPages
                let s1 := modTenant (rqTenant r.card) (fun y => { y with balance := y.balance - 256 * need }) s
                let s2 := forEach found (fun n u =>
                  let u1 := modNode n.1 (fun y => { y with lastUse := s.tk.tick % 2 ^ 40 }) u
                  match getPage u1 n.2.page with
                  | some y => setPage n.2.page { y with refs := y.refs + 1 } u1
                  | none => u1) s1
                let s3 := forEach taken (fun p u => setPage p ⟨false, 0, j, 1, epochInForce s j, []⟩ u) s2
                let s4 := if hp = 0 then s3 else bumpBy .kvPrefixHit r.part hp s3
                (h, modReq r.part id (fun q => { q with state := .prefill, slot := some slot,
                                                        pages := found.map (·.2.page) ++ taken, reused := 64 * hp,
                                                        pos := 64 * hp, stepEpoch := epochInForce s j, ring := ring }) s4)
  | _, _ => acc

/-- Admits a job's QUEUED requests in latch order. -/
def admitJob (j : Nat) (s : State) : State :=
  ((s.gen.reqs.filter fun r => decide (r.job = j)).foldl (fun acc r => admitReq j r.id acc) (⟨false, []⟩, s)).2

/-- A DECODE sequence that is to step if its tenant pays: it is not ending, not late, and does not wait for a page. -/
def wantsStep (r : Req) : Bool :=
  decide (r.state = .decode) && r.ended.isNone && r.step.isNone && !r.waiting

/-- Insertion by ascending slot. -/
def slotIns (r : Req) : List Req → List Req
  | [] => [r]
  | x :: t => if r.slot.getD 0 ≤ x.slot.getD 0 then r :: x :: t else x :: slotIns r t

/-- Requests in ascending slot order. -/
def bySlot (l : List Req) : List Req := l.foldr slotIns []

/-- The order of R197: ascending slots, starting after the slot charged last in the previous short tick. `lastShort` is that
slot plus one, 0 when there is none. -/
def chargeOrder (lastShort : Nat) (l : List Req) : List Req :=
  let a := bySlot l
  (a.filter fun r => decide (lastShort ≤ r.slot.getD 0)) ++ a.filter fun r => decide (r.slot.getD 0 < lastShort)

/-- Starts a step of a request for positions `first` … (R193, R204): prompt tokens are checked as prefill reads them (R188),
and the tokens of the positions are recorded at their pages. -/
def beginStep (p id : Nat) (s : State) : State :=
  match findReq s p id with
  | none => s
  | some r =>
    match genOf s r.job with
    | none => s
    | some g =>
      let start := fun (n : Nat) (t : State) => modReq p id (fun q =>
        { q with step := some (q.pos, n), stepDone := false, lateStep := false, ready := none,
                 stepEpoch := epochInForce s r.job }) t
      if r.state = .prefill then
        let n := min g.prefillChunk (rqLen r.card - r.pos)
        match promptTokens s r.card r.pos n with
        | .error e => endReq p id .failed 0 e true (notePrompt r.card r.pos n s)
        | .ok toks =>
          if toks.any fun t => decide (g.vocab ≤ t) then endReq p id .failed 0 .reqTokenInvalid true s
          else forEach toks.zipIdx (fun x t => putToken r (epochInForce s r.job) (r.pos + x.2) x.1 t) (start n s)
      else putToken r (epochInForce s r.job) r.pos r.lastToken (start 1 s)

/-- The job of a request runs: its end is not decided and it is not held. -/
def jobSteps (s : State) (r : Req) : Bool := (genAdmitted s r.part r.job).isSome && jobIssues s r.job

/-- A PREFILL sequence that is to step. -/
def prefillStep (s : State) (r : Req) : Bool :=
  decide (r.state = .prefill) && r.step.isNone && r.ended.isNone && jobSteps s r

/-- The sequences that their rings refuse room for the step of this tick, in ascending slot order (R288): `acc` holds the
records granted so far, by ring. -/
def expRefuse (s : State) : List Req → List (Nat × Nat) → List (Nat × Nat)
  | [], _ => []
  | r :: t, acc =>
    match r.ring with
    | none => expRefuse s t acc
    | some k =>
      let n := stepRecords (jobTopk s r.job) r
      let used := ((acc.filter fun x => decide (x.1 = k)).map (·.2)).sum
      if expRoom s k < used + n then (r.part, r.id) :: expRefuse s t acc else expRefuse s t ((k, n) :: acc)

/-- Charges the DECODE sequences of one tenant and starts their steps (R197); those that `no` names have no ring room. -/
def chargeTenant (no : List (Nat × Nat)) (t : Nat) (s : State) : State :=
  let l := chargeOrder (getTenant s t).lastShort (s.gen.reqs.filter fun r => wantsStep r && decide (rqTenant r.card = t)
    && jobSteps s r && !no.contains (r.part, r.id))
  let n := (getTenant s t).balance / 256
  let paid := l.take n
  let s1 := modTenant t (fun y => { y with balance := y.balance - 256 * paid.length,
                                           lastShort := if paid.length < l.length then
                                             match paid.getLast? with
                                             | some r => r.slot.getD 0 + 1
                                             | none => y.lastShort
                                           else y.lastShort }) s
  forEach paid (fun r u => beginStep r.part r.id u) s1

/-- A sequence's ring refuses it room in this tick (R288). -/
def expWait (r : Nat × Nat) (s : State) : State := bump .ctExpWait r.1 s

/-- Starts the step of a PREFILL sequence admitted at this edge, where its ring has room (R288). -/
def beginFresh (r : Req) (s : State) : State :=
  match r.ring with
  | some k => if samplesNext s r ∧ expRoom s k < stepRecords (jobTopk s r.job) r then expWait (r.part, r.id) s
    else beginStep r.part r.id s
  | none => beginStep r.part r.id s

/-- The work of R193 at an intake edge, and the ACK records of R202. -/
def genIntake (s : State) : State :=
  let s1 := latchAll s
  let due := bySlot (s1.gen.reqs.filter fun r => (wantsStep r && jobSteps s1 r) || prefillStep s1 r)
  let no := expRefuse s1 (due.filter (samplesNext s1)) []
  let s2 := forEach no expWait s1
  let tenants := (s2.gen.reqs.map fun r => rqTenant r.card).foldl (fun l t => setIns t l) []
  let s3 := forEach tenants (chargeTenant no) s2
  let jobs := (s3.jobs.filter fun j => j.2.gen.isSome && j.2.ending.isNone && !j.2.held).map (·.1)
  let old := due.filter (prefillStep s3)
  let s4 := forEach jobs admitJob s3
  let s5 := forEach (old.filter fun r => !no.contains (r.part, r.id)) (fun r t => beginStep r.part r.id t) s4
  let fresh := bySlot (s5.gen.reqs.filter fun r => prefillStep s5 r && !(old.any fun o => decide (o.part = r.part) && decide (o.id = r.id)))
  let s6 := forEach fresh beginFresh s5
  forEach ((s6.jobs.filter fun j => j.2.gen.isSome).map (·.1))
    (fun j t => flushRing none j (modGen j (fun g => { g with acks := [] }) (waitRecs j (((genOf t j).map (·.acks)).getD []) t))) s6

/-! ## Boundary work (R195, R196, R217, R220, R227) -/

/-- Applies tenant writes (R195), then refills every VALID tenant (R196). -/
def tenantBoundary (s : State) : State :=
  let s1 := forEach s.gen.tenantDue (fun w t => modTenant w.1 (fun y =>
    let v := w.2.toNat
    let cap := v / 2 ^ 40 % 2 ^ 32
    let valid := v / 2 ^ 4 % 2 == 1
    { y with part := v % 16, valid := valid, rate := v / 2 ^ 8 % 2 ^ 32, cap := cap,
             balance := if valid && !y.valid then 256 * cap else y.balance }) t) s
  { s1 with gen := { s1.gen with tenantDue := [],
                                 tenants := tabMap (fun _ y => if y.valid then
                                   { y with balance := min (256 * y.cap) (y.balance + y.rate) } else y) s1.gen.tenants } }

/-- Frees the slots of ended sequences and releases their page references (R191). -/
def freeEnded (s : State) : State :=
  let gone := s.gen.reqs.filter fun r => decide (r.state = .ending) && r.slot.isSome
  sweepReqs (forEach gone (fun r t => modReq r.part r.id (fun q => { q with slot := none, pages := [] })
    (forEach r.pages unrefPage t)) s)

/-- Reserves a page for a DECODE sequence whose next position is a multiple of 64 (R217). -/
def reservePage (r : Req) (s : State) : State :=
  match genOf s r.job with
  | none => s
  | some g =>
    let s1 := match (freePages s g).head? with
      | some _ => s
      | none => match chooseLeaf s fun n => decide (n.2.scope = r.job) with
        | some n => evictLeaf n s
        | none => s
    match (freePages s1 g).head? with
    | some p =>
      modReq r.part r.id (fun q => { q with pages := q.pages ++ [p], waiting := false, pageWait := 0 })
        (setPage p ⟨false, 0, r.job, 1, epochInForce s r.job, []⟩ s1)
    | none =>
      let s2 := modReq r.part r.id (fun q => { q with waiting := true, pageWait := q.pageWait + 1 }) s1
      if r.pageWait < g.pageWaitLimit then bump .kvPageWait r.part s2 else s2

/-- Page reservations in ascending slot order (R217). -/
def reservePages (s : State) : State :=
  forEach (bySlot (s.gen.reqs.filter fun r => decide (r.state = .decode) && r.ended.isNone && r.step.isNone
    && decide (r.pages.length ≤ r.pos / 64))) reservePage s

/-- Indexes the prompt pages of the requests whose prefill has ended (R220). -/
def indexPrompts (s : State) : State :=
  forEach (bySlot (s.gen.reqs.filter fun r => r.toIndex)) (fun r t =>
    insertPages r (rqLen r.card / 64) 0 rootNode (modReq r.part r.id (fun q => { q with toIndex := false }) t)) s

/-! ## The work of a step that is given up (R213) -/

/-- Retires the unchained queued cards that name a slot. -/
def dropUnchained (cl slot : Nat) (st : Status) (s : State) : State :=
  let names := fun (q : QCard) => decide (q.card.chain = 0) && decide (cardSlot q.card = some slot)
  let gone := (getCl s cl).queues.flatMap fun q => q.2.cards.filter names
  let s1 := modCl cl (fun c => { c with queues := tabMap (fun _ q =>
    let keep := q.cards.filter fun x => !names x
    { q with cards := keep, credits := q.credits + (q.cards.length - keep.length) }) c.queues }) s
  forEach gone (fun q t => retireUnrun cl q st t) s1

/-- The running cards of a step of a cluster go on, and their results are discarded (R213). -/
def discardRuns (cl slot : Nat) (uses : List (Nat × Nat)) (s : State) : State :=
  let d := fun (r : Run) => if uses.contains (r.card.chain, r.ord.use) ∨ cardSlot r.card = some slot then
    { r with discard := true, writes := [] } else r
  modCl cl (fun c => { c with runs := tabMap (fun _ r => d r) c.runs, tier := c.tier.map d }) s

/-- The cards of a step that have not issued retire without acting, and their chains abort; after a cancel the results of those
that run are discarded (R213, R136). A step's chains are those whose posted cards named its slot (DESIGN CHOICE, log 94). -/
def dropStep (r : Req) (cause : AbortCause) (s : State) : State :=
  match r.slot, getJob s r.job with
  | some slot, some x =>
    let st := abortStatus cause false
    forEach x.clusters (fun c t =>
      let serves := fun (h : Nat × Chain) => h.2.slots.contains slot
      let uses := ((getCl t c.1).chains.filter serves).map (fun h => (h.1, h.2.use))
        ++ ((getCl t c.1).past.filter serves).map fun h => (h.2.openCard.chain, h.1)
      let t0 := if cause = .cancelled then discardRuns c.1 slot uses t else t
      let t1 := forEach uses (fun u v => abortUse c.1 u.1 u.2 cause v) t0
      let t2 := dropUnchained c.1 slot st t1
      match (getCl t2 c.1).exec9 with
      | some q => if cardSlot q.card = some slot then
          retireUnrun c.1 q st (modCl c.1 (fun y => { y with exec9 := none }) t2) else t2
      | none => t2) s
  | _, _ => s

/-- Discards every late step of a job at a bank switch; the step runs again from its start (R32, R136, R260). -/
def discardLate (j : Nat) (s : State) : State :=
  forEach (s.gen.reqs.filter fun r => decide (r.job = j) && r.step.isSome) (fun r t =>
    modReq r.part r.id (fun q => { q with step := none, ready := none, stepDone := false, lateStep := false })
      (dropStep r .failed t)) s

/-! ## STEP_DONE (R204) -/

/-- Checks of a STEP_DONE card at post. -/
def stepDoneCheck (s : State) (c : Card) : Chk :=
  firstBad [
    (if flag c.w2 32 then none else poolRange (fld c.w2 31 16) 1),
    bad (stepping s c.job (fld c.w2 15 0)).isNone .kvSlotInvalid]

/-- STEP_DONE at its place in the list: the control core passes the token result (R207) to the scheduler core. -/
def doStepDone (cl : Nat) (poolBad : Bool) (q : QCard) (s : State) : State :=
  match stepping s q.card.job (fld q.card.w2 15 0) with
  | none => retire9 cl q .kvSlotInvalid 8 s
  | some r =>
    if poolBad && !flag q.card.w2 32 then retire9 cl q .poolUncorrectable 8 s
    else
    let k := poolKey cl (64 * fld q.card.w2 31 16)
    let w0 := memW64 s.mem k
    let w1 := memW64 s.mem (k + 8)
    let res : TokRes := ⟨fld w0 17 0, flag w0 18, flag w0 19, w1.truncate 32, (w1 >>> 32).truncate 32⟩
    retire9 cl q .ok 8 (modReq r.part r.id (fun x =>
      { x with stepDone := true, ready := if flag q.card.w2 32 then none else some res }) s)

/-! ## Time limits, rings and register writes -/

/-- REQ_ADMIT_TIMEOUT (R191): a request has stayed QUEUED for ADMIT_TIMEOUT ticks. -/
def admitTimeout (p id : Nat) (s : State) : State :=
  match findReq s p id with
  | none => s
  | some r => match genOf s r.job with
    | none => s
    | some g =>
      if r.state = .queued ∧ g.admitTimeout ≠ 0 ∧ r.latchTick + g.admitTimeout ≤ s.tk.tick then
        endReq p id .refused 0 .reqAdmitTimeout true s
      else s

/-- KV_PAGE_WAIT_LIMIT (R217): a sequence that has waited PAGE_WAIT_LIMIT consecutive ticks for a page ends FAILED. -/
def pageWaitLimit (slot : Nat) (s : State) : State :=
  match s.gen.reqs.find? fun r => decide (r.slot = some slot) with
  | none => s
  | some r => match genOf s r.job with
    | none => s
    | some g => if r.waiting ∧ g.pageWaitLimit < r.pageWait then endReq r.part r.id .failed 0 .kvNoPage true s else s

/-- RING_READ_INDEX (R201): the application cores write READ_INDEX; an index below its previous value or above WRITE_INDEX is
ignored. -/
def ringRead (j : Nat) (v : W64) (s : State) : State :=
  match getJob s j, genOf s j with
  | some x, some g =>
    if ago64 g.write g.read < ago64 v.toNat g.read then raise .smRingInvalid x.part j s
    else modGen j (fun y => { y with read := v.toNat }) (writePlace g.ringRd g.ringRegion 8 (leBytes 8 v.toNat) s)
  | _, _ => s

/-- A write of SM_TENANT[t] (R195). -/
def tenantWrite (who : Who) (t : Nat) (v : BitVec 128) (s : State) : Wr :=
  let cur := match s.gen.tenantDue.reverse.find? fun w => decide (w.1 = t) with
    | some w => (w.2.toNat % 16, w.2.toNat / 16 % 2 == 1)
    | none => ((getTenant s t).part, (getTenant s t).valid)
  let part := v.toNat % 16
  let valid := v.toNat / 16 % 2 == 1
  let own := match who with
    | .cores _ => false
    | .session _ => packageRights s who || (decide (viewOf s who = cur.1) && decide (part = cur.1))
  if !own then Wr.no .smTenantDenied s
  else if (decide (part ≠ cur.1) || (cur.2 && !valid)) && s.gen.reqs.any (fun r => decide (rqTenant r.card = t) && decide (r.part = cur.1)) then
    Wr.no .smTenantBusy s
  else Wr.ok { s with gen := { s.gen with tenantDue := s.gen.tenantDue ++ [(t, v)] } }

/-- A write of SM_LAT_WINDOW (R200). -/
def latWindowWrite (who : Who) (v : W64) (s : State) : Wr :=
  if !packageRights s who then Wr.drops 0 s
  else if fld v 15 0 = 0 then Wr.no .smConfigInvalid s
  else Wr.part (decide (fld v 63 16 ≠ 0)) 1 (Wr.ok { s with gen := { s.gen with latWindow := fld v 15 0 } })

/-- SM_LAT_WINDOW_END (R200): at the end of a window every SM_LAT[t] takes the window's values. -/
def latWindowEnd (s : State) : State :=
  if s.tk.phase = .boundary ∧ s.gen.latDone = false ∧ s.gen.latWindow ≠ 0 ∧ (s.tk.tick + 1) % s.gen.latWindow = 0 then
    { s with gen := { s.gen with latDone := true,
                                 tenants := tabMap (fun _ y => { y with lat := y.win, win := (0, 0, 0, 0) }) s.gen.tenants } }
  else s

/-! ## The commands -/

/-- REQ_ADMIT_TIMEOUT (R191). -/
def execReqAdmitTimeout (p id : Nat) (s : State) : Host.Outcome State Fault Refusal := running s (admitTimeout p id)

/-- KV_PAGE_WAIT_LIMIT (R217). -/
def execKvPageWaitLimit (slot : Nat) (s : State) : Host.Outcome State Fault Refusal := running s (pageWaitLimit slot)

/-- RING_READ_INDEX (R201). -/
def execRingReadIndex (j : Nat) (v : W64) (s : State) : Host.Outcome State Fault Refusal := running s (ringRead j v)

/-- SM_LAT_WINDOW_END (R200). -/
def execSmLatWindowEnd (s : State) : Host.Outcome State Fault Refusal := running s latWindowEnd

/-- STEP_DONE (R204). -/
def execStepDone (cl : Nat) (poolBad : Bool) (s : State) : Host.Outcome State Fault Refusal :=
  running s (exec9 cl 5 (doStepDone cl poolBad))

end Sys2Proof.Machine
end

