-- ==== Sys2Proof/Machine/Alloc.lean ====
section
/-!
DEFINITION. Reservations of near memory (R167, R168): region-table entries, the placement of a region on channels, and
freeing with its zeroing.
-/

namespace Sys2Proof.Machine

/-- The `n`-element sublists of a list, in ascending order compared element by element (R167). -/
def combos : Nat → List Nat → List (List Nat)
  | 0, _ => [[]]
  | _ + 1, [] => []
  | n + 1, a :: t => (combos n t).map (a :: ·) ++ combos (n + 1) t

/-- Channels of a partition and class on a rim die on which the scheduler core may reserve (R167, R180). -/
def classChans (s : State) (p cls rd : Nat) : List Nat :=
  (List.range 16).filter fun c =>
    decide (chanOwner s.pt.chans (16 * rd + c) = some (p, cls)) && decide ((getChan s (16 * rd + c)).state ≠ .failed)

/-- Bytes of a channel in which regions are placed (R161). -/
def chanTop (rd c : Nat) : Nat := if c = 15 ∧ (rd = 0 ∨ rd = 2) then 14926258176 else 16000000000

/-- Byte ranges of a channel that are not free: those of regions, those of a partition's generation tables (R216, R219), and those
still to be zeroed (R167). -/
def usedRanges (s : State) (rd c : Nat) : List (Nat × Nat) :=
  (s.mt.regions.filterMap fun r =>
    if r.1 / 256 = rd ∧ (maskChans r.2.chmask).contains c then
      some (r.2.base, r.2.len / (maskChans r.2.chmask).length) else none)
    ++ (s.gen.tables.filterMap fun t => if t.2.1 = 16 * rd + c then some t.2.2 else none)
    ++ (getChan s (16 * rd + c)).zeroing

/-- Whether bytes [base, base + n) of a channel are free. -/
def rangeFree (s : State) (rd c base n : Nat) : Bool :=
  decide (base + n ≤ chanTop rd c) && (usedRanges s rd c).all fun r => decide (base + n ≤ r.1) || decide (r.1 + r.2 ≤ base)

/-- The lowest 4 KiB-aligned BASE at which `n` bytes are free on every channel of a set. -/
def lowestBase (s : State) (rd : Nat) (cs : List Nat) (n : Nat) : Option Nat :=
  let ends := cs.flatMap fun c => (usedRanges s rd c).map fun r => (r.1 + r.2 + 4095) / 4096 * 4096
  leastOf ((0 :: ends).filter fun b => cs.all fun c => rangeFree s rd c b n)

/-- Bytes of a partition's generation tables: descriptors, page maps, nodes and bucket heads, by its shares (R216, R219). -/
def tableBytes (s : State) (p : Nat) : Nat := 8 * pageShare s p + 16384 * slotShare s p + 68 * nodeShare s p

/-- The scheduler core places a new partition's generation tables in its own GEN channels (R216, R219): an equal part at the top of
each (DESIGN CHOICE, log 102). -/
def placeTables (p : Nat) (s : State) : State :=
  let cs := (List.range 128).filter fun ch => decide (chanOwner s.pt.chans ch = some (p, 0))
  let n := (tableBytes s p + 4096 * cs.length - 1) / (4096 * cs.length) * 4096
  if n = 0 then s
  else forEach cs (fun ch t =>
    let top := (chanTop (ch / 16) (ch % 16) - n) / 4096 * 4096
    let base := if rangeFree t (ch / 16) (ch % 16) top n then some top else lowestBase t (ch / 16) [ch % 16] n
    match base with
    | some b => { t with gen := { t.gen with tables := t.gen.tables ++ [(p, ch, b, n)] } }
    | none => t) s

/-- The first set of channels with room, and its BASE. -/
def firstPlace (s : State) (rd n : Nat) : List (List Nat) → Option (List Nat × Nat)
  | [] => none
  | cs :: t => match lowestBase s rd cs n with
    | some b => some (cs, b)
    | none => firstPlace s rd n t

/-- The lowest region-table entry of a rim die that is not in use. -/
def freeEntry (s : State) (rd : Nat) : Option Nat := (List.range 256).find? fun i => (regionOf s rd i).isNone

/-- Region-table entries of a partition on a rim die; the first region of its application cores is not counted (log 37). -/
def entriesHeld (s : State) (p rd : Nat) : Nat :=
  (s.mt.regions.filter fun r => decide (r.1 / 256 = rd) && decide (r.2.part = p)
    && !(decide (r.2.job = 0) && !r.2.sealed)).length

/-- What a region is reserved for. -/
structure Want where
  rd : Nat
  part : Nat
  cls : Nat
  bytes : Nat
  chans : Nat
  sealed : Bool
  owner : Nat
  accum : Nat
  job : Nat
deriving DecidableEq, Repr

/-- Reserves a region (R167): its handle, or the refusal. -/
def reserveRegion (w : Want) (s : State) : Except Status (Nat × State) :=
  match freeEntry s w.rd with
  | none => .error .mtRegionTableFull
  | some i =>
    if ptFld (ptEntry s w.part) 9 44 36 ≤ entriesHeld s w.part w.rd then .error .mtRegionTableFull
    else
      let n := max 1 w.chans
      let len := (w.bytes + 4096 * n - 1) / (4096 * n) * (4096 * n)
      match firstPlace s w.rd (len / n) (combos n (classChans s w.part w.cls w.rd)) with
      | none => .error .mtNoSpace
      | some (cs, base) =>
        let e : Region := { chmask := (cs.map (2 ^ ·)).sum, part := w.part, cls := w.cls, owner := w.owner,
                            sealed := w.sealed, accumCluster := w.accum, grant := 0#16, base := base, len := len,
                            job := w.job }
        .ok (i, { s with mt := { s.mt with regions := tabIns (256 * w.rd + i) e s.mt.regions } })

/-- Frees a region: its bytes are zeroed before they are reserved again (R167), and GRANTs of it that are open end with it (R393). -/
def freeRegion (rd h : Nat) (s : State) : State :=
  match regionOf s rd h with
  | none => s
  | some e =>
    let cs := maskChans e.chmask
    forEach cs (fun c t => modChan (16 * rd + c) (fun x => { x with zeroing := x.zeroing ++ [(e.base, e.len / cs.length)] }) t)
      { s with mt := { s.mt with regions := tabDel (256 * rd + h) s.mt.regions },
               pt := { s.pt with open_ := s.pt.open_.filter fun g => !(decide (g.1 = rd) && decide (g.2.1 = h)) } }

end Sys2Proof.Machine
end

