-- ==== Sys2Proof/Machine/LaneRow.lean ====
section
/-!
DEFINITION. Lane rows (R46 to R77) and their checks (R79 to R87): the arithmetic of MV, MM-n, RV and OP cards, permits,
issue, re-execution, relief and writeback.
-/

namespace Sys2Proof.Machine

/-! ## Fields (R118) -/

/-- SHAPE. -/
def lrShape (c : Card) : Nat := fld c.w2 3 0

/-- LFMT. -/
def lrL (c : Card) : Nat := fld c.w2 7 4

/-- BFMT. -/
def lrB (c : Card) : Nat := fld c.w2 11 8

/-- OUTFMT. -/
def lrOut (c : Card) : Nat := fld c.w2 15 12

/-- ROUND. -/
def lrRound (c : Card) : Nat := fld c.w2 17 16

/-- ACC. -/
def lrAcc (c : Card) : Nat := fld c.w2 19 18

/-- NO_PERMIT. -/
def lrNoPermit (c : Card) : Bool := flag c.w2 20

/-- ROWCHK. -/
def lrRowchk (c : Card) : Bool := flag c.w2 21

/-- ACC_TAG. -/
def lrTag (c : Card) : Nat := fld c.w2 31 24

/-- ROWS. -/
def lrRows (c : Card) : Nat := fld c.w2 40 32

/-- DEPTH. -/
def lrDepth (c : Card) : Nat := fld c.w3 19 0

/-- WBASE. -/
def lrWbase (c : Card) : Nat := fld c.w3 29 20

/-- XADDR. -/
def lrX (c : Card) : Nat := fld c.w4 15 0

/-- XSTRIDE. -/
def lrXs (c : Card) : Nat := fld c.w4 31 16

/-- YADDR. -/
def lrY (c : Card) : Nat := fld c.w4 47 32

/-- YSTRIDE. -/
def lrYs (c : Card) : Nat := fld c.w4 63 48

/-- XSCALE. -/
def lrScale (c : Card) : Nat := fld c.w5 15 0

/-- GADDR. -/
def lrG (c : Card) : Nat := fld c.w5 31 16

/-- GSTRIDE. -/
def lrGs (c : Card) : Nat := fld c.w5 47 32

/-- COLGROUP. -/
def lrCol (c : Card) : Nat := fld c.w6 31 0

/-- KSEG. -/
def lrKseg (c : Card) : Nat := fld c.w6 63 32

/-- Elements per chunk of a legal format pair, lane side first (R48, R53). -/
def pairChunk (l b : Nat) : Option Nat :=
  if l < 2 ∧ l = b then some 16
  else if (l = 0 ∧ b = 2) ∨ (l = 1 ∧ b = 4) then some 8
  else if (l = 2 ∨ l = 3) ∧ (b = 2 ∨ b = 3) then some 8
  else if l = 4 ∧ b = 4 then some 8
  else if l = 5 ∧ (b = 5 ∨ b = 3) then some 4
  else if l = 6 ∧ b = 6 then some 4
  else if l = 7 ∧ b = 7 then some 1
  else none

/-- Elements per chunk of a card. -/
def lrChunk (c : Card) : Nat := (pairChunk (lrL c) (lrB c)).getD 1

/-- Elements of a weight block B = 512 / w (R65). -/
def blockLen (fmt : Nat) : Nat := 512 / fmtWidth fmt

/-- Whether the card closes its accumulation (R71). -/
def lrCloses (c : Card) : Bool := decide (lrAcc c = 0) || decide (lrAcc c = 3)

/-- Most rows of a shape (R72, R63). -/
def maxRows (c : Card) : Nat :=
  match lrShape c with
  | 0 => 4
  | 1 => 2
  | 2 => 4
  | 3 => 16
  | 4 => 64
  | 5 => 256
  | 6 => 64
  | _ => 1024 / fmtWidth (lrL c)

/-- Data rows that a card writes back. -/
def outRows (c : Card) : Nat :=
  match lrShape c with
  | 6 => lrRows c - 1
  | 7 => 64
  | _ => lrRows c

/-- Elements of an output row. -/
def outCols (c : Card) : Nat := if lrShape c = 6 then lrDepth c else 64

/-- Random tiles that the writeback touches (R74, R145). -/
def outTiles (c : Card) : Nat :=
  let rows := (outRows c + 63) / 64
  if lrShape c = 6 then rows * ((lrKseg c + lrDepth c - 1) / 64 - lrKseg c / 64 + 1) else rows

/-- Length T of a lane-row card (R74), an OP card's the same under every ACC; `main` for an MV card that runs on the main path (R69). -/
def lrLength (c : Card) (main : Bool) : Nat :=
  let m := lrRows c
  let k := lrDepth c
  let ch := lrChunk c
  let b := blockLen (lrL c)
  let nb := k / b
  let wbk := if lrCloses c then m + 4 else 0
  let t := match lrShape c with
    | 0 => if main then 32 + nb * max 32 (m * (b / ch)) + 5 + wbk else 2 + m * (k / ch) + 5 + wbk
    | 6 => max 32 ((m * fmtWidth (lrB c) + 15) / 16) + nb * max 32 (m * (b / min ch 8)) + 8 + 2 + 4
    | 7 => (m * fmtWidth (lrL c) + 15) / 16 + (m + ch - 1) / ch * 64 + 5 + 64 + 4
    | _ => 32 + nb * max 32 (m * (b / ch)) + 5 + wbk
  t + if lrCloses c && drawsWords c (lrOut c) (lrRound c) && flag c.w7 0 then 31 * outTiles c else 0

/-! ## Accumulations (R71) -/

/-- The open accumulation that a card leaves behind on a unit whose open accumulation was `a`. -/
def accAfter (c : Card) (a : Option OpenAcc) : Option OpenAcc :=
  match lrAcc c with
  | 1 => some ⟨lrShape c, lrRows c, lrL c, lrB c, lrTag c, 0, -126⟩
  | 2 => a
  | _ => none

/-- Whether a continuing card matches the open accumulation. -/
def accMatches (c : Card) (a : OpenAcc) : Bool :=
  decide (a.shape = lrShape c) && decide (a.rows = lrRows c) && decide (a.lfmt = lrL c) && decide (a.bfmt = lrB c)
    && decide (a.tag = lrTag c)

/-- R71's check of ACC against the open accumulation. -/
def accCheck (c : Card) (a : Option OpenAcc) : Chk :=
  if lrAcc c < 2 then bad a.isSome .lwAccOpen
  else match a with
    | some x => bad (!accMatches c x) .lwAccEmpty
    | none => bad true .lwAccEmpty

/-- The accumulation that the cards posted so far to a unit will leave open. -/
def postedAcc (s : State) (cl u : Nat) : Option OpenAcc :=
  let c := getCl s cl
  let now := match physOf s cl u with
    | some k => (getUnit s k).acc
    | none => none
  let run := match tabFind u c.runs with
    | some r => if r.card.opcode = 0 then accAfter r.card now else now
    | none => now
  (getQ c u).cards.foldl (fun a q => if q.card.opcode = 0 then accAfter q.card a else a) run

/-! ## Checks at post (R72) -/

/-- Lines that the block scales of a row of `n` elements take (log 53). -/
def scaleLines (fmt n : Nat) : Nat := (n / 32 * (if fmt = 0 then 1 else 2) + 63) / 64

/-- The lane-row card's checks in the order of R72, after those of R110's header. -/
def laneCheck (s : State) (cl : Nat) (c : Card) : Chk :=
  let m := lrRows c
  let k := lrDepth c
  let sh := lrShape c
  let b := blockLen (lrL c)
  let scaledB := scaled (lrB c)
  firstBad [
    rowsRange (lrX c) (lrXs c) m (if sh = 7 then rowLines (lrL c) 64 else if sh = 6 then rowLines (lrB c) 64 else rowLines (lrB c) k),
    (if sh = 6 then poolRange (lrX c + (m - 1) * lrXs c) 4 else none),
    (if sh = 7 then rowsRange (lrG c) (lrGs c) m (rowLines (lrB c) 64) else none),
    (if scaledB then (if sh = 7 then poolRange (lrScale c) 1
      else rowsRange (lrScale c) (lrXs c) (if sh = 6 then m - 1 else m) (scaleLines (lrB c) (if sh = 6 then 64 else k))) else none),
    (if lrCloses c then rowsRange (lrY c) (lrYs c) (outRows c) (rowLines (outFormat c (lrOut c)) (outCols c)) else none),
    bad (decide (enabledCount s cl ≤ c.unit)) .lwUnitAbsent,
    bad (decide (7 < sh)) .lwShapeInvalid,
    bad (decide (7 < lrL c) || decide (7 < lrB c)) .lwFormatInvalid,
    bad (pairChunk (lrL c) (lrB c)).isNone .lwPairInvalid,
    bad (decide (m = 0) || decide (maxRows c < m)) .lwRowsInvalid,
    (if sh = 7 then bad (decide (k ≠ 0) || decide (lrWbase c ≠ 0)) .lwDepthInvalid
     else bad ((decide (k = 0) && decide (lrAcc c ≠ 3)) || decide (k % b ≠ 0)
       || decide (bankLimit s cl < 64 * lrWbase c + k * fmtWidth (lrL c) / 8)) .lwDepthInvalid),
    bad (!([7, 5, 6, 2, 3].contains (lrOut c))) .lwOutfmtInvalid,
    bad (decide (1 < lrRound c)) .lwRoundInvalid,
    badField (decide (sh ≠ 7) && decide (lrG c ≠ 0)) 5 16,
    badField (decide (sh ≠ 7) && decide (lrGs c ≠ 0)) 5 32,
    badField (!scaledB && decide (lrScale c ≠ 0)) 5 0,
    badField (decide (c.chain ≠ 0) && !c.last && lrCloses c && decide (lrOut c ≠ 7)) 2 12,
    (rselCheck c.w7 (stochastic c (lrRound c)) ((outRows c + 63) / 64)).map fun st => (st, 0, 0),
    badField (decide (sh = 6) && decide (lrAcc c ≠ 0)) 2 18,
    accCheck c (postedAcc s cl c.unit),
    bad (if sh = 6 then !lrRowchk c || decide (m < 2) else lrRowchk c) .ckRowchkInvalid,
    tooLong (lrLength c false)]

/-! ## Arithmetic (R54 to R57, R62, R63) -/

/-- An accumulator on its way: its value and what it has met. `gen`: a chunk of non-NaN inputs made it NaN (R60). -/
structure AccVal where
  a : W32
  nan : Bool
  gen : Bool
  ovf : Bool
  peak : Int
deriving DecidableEq, Repr

/-- An exact product; a zero product of integers is +0 (R54). -/
def elemProd (ints : Bool) (w x : Elem) : Val :=
  match w.v.mul x.v with
  | .fin s m e => if ints && decide (m = 0) then .fin false 0 0 else .fin s m e
  | v => v

/-- A ← round_FP32(A + Σ products) for each chunk in ascending order (R54, R56). -/
def accChunks (ints : Bool) (c : Nat) : Nat → List Elem → List Elem → AccVal → AccVal
  | 0, _, _, r => r
  | n + 1, ws, xs, r =>
    let (a, o) := round32 ((List.zipWith (elemProd ints) (ws.take c) (xs.take c)).foldl Val.add (val32 r.a))
    let bad := (ws.take c).any Elem.nan || (xs.take c).any Elem.nan
    accChunks ints c n (ws.drop c) (xs.drop c)
      { a := a, nan := r.nan || bad, gen := r.gen || (!bad && !(fNan r.a) && fNan a), ovf := r.ovf || o,
        peak := max r.peak (val32 a).peakExp }

/-- The entry that nothing has reached. -/
def AccVal.zero : AccVal := ⟨0#32, false, false, false, -126⟩

/-- A finished computation of a lane-row card. -/
structure LaneOut where
  /-- Accumulator entries, key 66 × entry + physical lane. -/
  file : Tab W32
  /-- Values to write back, output row by output row. -/
  result : List W32
  pairs : List (W32 × W32)
  flags : Flags
  chunks : Nat
  peakA : Int
  peakT : Int
deriving DecidableEq, Repr

/-- Integer formats, whose sums of products are exact integers. -/
def intPair (c : Card) : Bool := decide (lrL c = 1) || decide (lrL c = 4)

/-- Entry (row, lane) of an accumulator file. -/
def fileAt (f : Tab W32) (entry lane : Nat) : W32 := tabGet 0#32 f (66 * entry + lane)

/-- The elements of an output in writeback order: forward rows hold one accumulator entry across the lanes; the rows of
an outer card's tile are its lanes, row k of the dW tile being logical lane k and column j its entry j (R61, R145;
log 52). -/
def layRows {α : Type} (c : Card) (entries : Nat) (f : Nat → Nat → α) : List α :=
  if lrShape c = 7 then (List.range 64).flatMap fun l => (List.range entries).map fun e => f e l
  else (List.range entries).flatMap fun e => (List.range 64).map fun l => f e l

/-- Runs a forward or outer card: for every lane 0–64 and every entry, `n` chunks of lane operand against broadcast
operand. A NEW card clears the entries that it uses, a continuing card goes on from those of `f0` (R71). Lanes are logical; 64 is
the checksum lane. E_a is that of the data lanes' entries; the checksum side of E_t is lane 64's closing value (R83, log 84). -/
def runColumns (c : Card) (u : UnitSt) (f0 : Tab W32) (prev : Option OpenAcc) (entries n : Nat)
    (lane : Nat → List Elem) (bc : Nat → List Elem) : LaneOut :=
  let cont := decide (2 ≤ lrAcc c)
  let ch := lrChunk c
  let bcs := (List.range entries).map bc
  let cols := (List.range 65).map fun l =>
    let ws := lane l
    let pl := if l = 64 then 64 else physLane u l
    (List.range entries).map fun e =>
      accChunks (intPair c && decide (l ≠ 64)) ch n ws (bcs.getD e [])
        { AccVal.zero with a := if cont then fileAt f0 e pl else 0#32 }
  let data := cols.take 64
  let file := (List.range 65).foldl (fun f l =>
    let pl := if l = 64 then 64 else physLane u l
    (List.range entries).foldl (fun f e => tabSet 0#32 f (66 * e + pl)
      ((cols.getD l []).getD e .zero).a) f) f0
  let row := fun e => data.map fun col => (col.getD e .zero).a
  let sum := fun e => ((cols.getD 64 []).getD e .zero).a
  let all := data.flatMap id
  let old := prev.getD ⟨0, 0, 0, 0, 0, 0, -126⟩
  { file := file
    result := layRows c entries fun e l => ((cols.getD l []).getD e .zero).a
    pairs := (List.range entries).map fun e => (canonSum (row e), sum e)
    flags := ⟨all.any AccVal.nan, all.any AccVal.gen, all.any AccVal.ovf⟩
    chunks := (if cont then old.chunks else 0) + n
    peakA := all.foldl (fun p x => max p x.peak) (if cont then old.peak else -126)
    peakT := (List.range entries).foldl (fun p e => max (max p (treePeak 8 (row e))) (val32 (sum e)).peakExp) (-126) }

/-- A forward card (MV, MM-n): lane j holds column j, entry m takes activation row m (R61). The block scales of row m start at the
line XSCALE + m × XSTRIDE (log 53). -/
def runForward (s : State) (cl store : Nat) (u : UnitSt) (f0 : Tab W32) (c : Card) : LaneOut :=
  let k := lrDepth c
  let st := getUnit s store
  let off := bankBase s cl + 64 * lrWbase c
  runColumns c u f0 u.acc (lrRows c) (k / lrChunk c)
    (fun l => if l = 64 then laneSums s store (sumBase s cl) (64 * lrWbase c * 8 / fmtWidth (lrL c)) k
      else laneWeights s store (physLane st l) off (lrL c) k)
    (fun m => bcastRow s cl (lrX c + m * lrXs c) (lrB c) (lrScale c + m * lrXs c) k)

/-- Byte of the job area of a pool that holds the scale of a block of 32 rows of an OP operand's column: a free value (log 12). -/
def opScaleKey (cl line stride m j : Nat) : Nat :=
  poolKey cl (64 * 4096 + Config.opScaleByte line stride (m / 32) j % (64 * 61440 - 1))

/-- Code of element (row m, column j) of an OP operand whose rows start at `line`. -/
def opCode (s : State) (cl line stride fmt m j : Nat) : Nat := elemAt s.mem (poolKey cl (64 * (line + m * stride))) fmt j

/-- Element (row m, column j) of an OP operand, with the scale of its block along m. -/
def opElem (s : State) (cl line stride fmt sline m j : Nat) : Elem :=
  let c := opCode s cl line stride fmt m j
  if scaled fmt then scaledElem fmt c (memNat s.mem (opScaleKey cl sline stride m j) 2) else plainElem fmt c

/-- The value of an element as an FP32 number. -/
def Elem.w32 (e : Elem) : W32 := to32 e.v

/-- Pads a partial last chunk with zeros to `n` elements (R63). -/
def padRows (n : Nat) (l : List Elem) : List Elem := l ++ List.replicate (n - l.length) ⟨.fin false 0 0, false⟩

/-- Row m of an OP card's checksum lane: Σᵢ X[m, kᵢ] in FP32 by canonical_sum (R80). -/
def opSum (s : State) (cl : Nat) (c : Card) (m : Nat) : W32 :=
  canonSum ((List.range 64).map fun l => (opElem s cl (lrX c) (lrXs c) (lrL c) (lrX c) m l).w32)

/-- An outer card: lane i holds X[m, kᵢ] over the rows m, entry j takes gradient column j (R61, R63). -/
def runOuter (s : State) (cl : Nat) (u : UnitSt) (f0 : Tab W32) (c : Card) : LaneOut :=
  let m := lrRows c
  let ch := lrChunk c
  let n := (m + ch - 1) / ch
  let x := fun l => (List.range m).map fun r =>
    opElem s cl (lrX c) (lrXs c) (lrL c) (lrX c) r l
  let sum := (List.range m).map fun r =>
    let v := val32 (opSum s cl c r)
    (⟨v, v.isNan⟩ : Elem)
  runColumns c u f0 u.acc 64 n (fun l => padRows (n * ch) (if l = 64 then sum else x l))
    (fun j => padRows (n * ch) ((List.range m).map fun r => opElem s cl (lrG c) (lrGs c) (lrB c) (lrScale c) r j))

/-- The row scalars of row r of an RV card, one a lane (R61, R118); the last row is the FP32 checksum row (R80). -/
def rvRow (s : State) (cl : Nat) (c : Card) (r : Nat) : List Elem :=
  if r + 1 = lrRows c then (poolW32 s cl (lrX c + r * lrXs c) 64).map fun w => (⟨val32 w, fNan w⟩ : Elem)
  else bcastRow s cl (lrX c + r * lrXs c) (lrB c) (lrScale c + r * lrXs c) 64

/-- A reverse card: for every row m and position k, canonical_sum over the lanes of weight × row scalar (R62). It uses no
accumulator entry. -/
def runReverse (s : State) (cl store : Nat) (f0 : Tab W32) (c : Card) : LaneOut :=
  let k := lrDepth c
  let m := lrRows c
  let st := getUnit s store
  let off := bankBase s cl + 64 * lrWbase c
  let ws := (List.range 64).map fun l => laneWeights s store (physLane st l) off (lrL c) k
  let row := rvRow s cl c
  let leaves := fun (r j : Nat) => List.zipWith (fun (w : List Elem) (d : Elem) =>
    round32 (elemProd (intPair c && decide (r + 1 ≠ m)) (w.getD j ⟨.fin false 0 0, false⟩) d)) ws (row r)
  let full := (List.range m).map fun r => (List.range k).map fun j => leaves r j
  let grid := full.map fun g => g.map fun l => l.map (·.1)
  let dx := grid.map fun g => g.map canonSum
  let data := dx.take (m - 1)
  let chk := dx.getD (m - 1) []
  let nanAt := fun (r j : Nat) => ws.any (fun w => (w.getD j ⟨.fin false 0 0, false⟩).nan) || (row r).any Elem.nan
  let cells := (List.range (m - 1)).flatMap fun r => (List.range k).map fun j => (r, j)
  let col := fun j => data.map fun d => d.getD j 0#32
  { file := f0
    result := data.flatMap id
    pairs := (List.range k).map fun j => (canonSum (col j), chk.getD j 0#32)
    flags := ⟨ws.any (fun w => w.any Elem.nan) || (List.range m).any (fun r => (row r).any Elem.nan),
              cells.any fun x => !(nanAt x.1 x.2) && fNan ((data.getD x.1 []).getD x.2 0#32),
              (full.take (m - 1)).any fun g => g.any fun l => l.any (·.2) || treeOvf 8 (l.map (·.1))⟩
    chunks := 63
    peakA := (grid.take (m - 1)).foldl (fun p g => g.foldl (fun p l => max p (treePeak 8 l)) p) (-126)
    peakT := max ((List.range k).foldl (fun p j => max p (treePeak 8 (col j))) (-126))
      ((grid.drop (m - 1)).foldl (fun p g => g.foldl (fun p l => max p (treePeak 8 l)) p) (-126)) }

/-- Runs a lane-row card whose weights lie in the store of unit `store` and whose accumulation is that of unit `own`. -/
def runLane (s : State) (cl store own : Nat) (c : Card) : LaneOut :=
  let u := getUnit s own
  match lrShape c with
  | 6 => runReverse s cl store u.file c
  | 7 => runOuter s cl u u.file c
  | _ => runForward s cl store u u.file c

/-! ### Operand registers and row scalars (R46, R61 to R65) -/

/-- Puts words of 32 bits into a lane of a register file whose keys are 66 × word + lane, from word `w` on. -/
def regPut (lane w : Nat) (ws : List W32) (t : Tab W32) : Tab W32 :=
  ws.zipIdx.foldl (fun t x => tabSet 0#32 t (66 * (w + x.2) + lane) x.1) t

/-- Codes of a width packed into words of 32 bits. -/
def regWords (width : Nat) (codes : List Nat) : List W32 :=
  let bs := packRow width codes
  (List.range ((bs.length + 3) / 4)).map fun i => BitVec.ofNat 32 (leNat ((bs.drop (4 * i)).take 4))

/-- The operand registers after a card of weight blocks: each half holds the last block that it took, even blocks the first half
and odd blocks the second (R65, log 85); lane 64 holds the column checksums of the same elements. -/
def loadBlocks (s : State) (cl store host : Nat) (c : Card) (t : Tab W32) : Tab W32 :=
  let b := blockLen (lrL c)
  let nb := lrDepth c / b
  let off := bankBase s cl + 64 * lrWbase c
  let lane := fun (i l : Nat) => (List.range b).map fun e =>
    elemAt s.mem (laneKey store (physLane (getUnit s store) l) off) (lrL c) (i * b + e)
  let sums := fun (i : Nat) => (List.range b).map fun e =>
    memW32 s.mem (laneKey store 64 (sumBase s cl + 4 * (64 * lrWbase c * 8 / fmtWidth (lrL c) + i * b + e)))
  (List.range nb).drop (nb - 2) |>.foldl (fun t i =>
    regPut 64 (i % 2 * 128) (sums i)
      ((List.range 64).foldl (fun t l => regPut (physLane (getUnit s host) l) (i % 2 * 16) (regWords (fmtWidth (lrL c)) (lane i l)) t) t)) t

/-- The operand registers after an OP card: lane i holds X[m, kᵢ] for its rows m in order, lane 64 their sums in FP32 (R63, R80). -/
def loadOuter (s : State) (cl host : Nat) (c : Card) (t : Tab W32) : Tab W32 :=
  let m := lrRows c
  regPut 64 0 ((List.range m).map (opSum s cl c))
    ((List.range 64).foldl (fun t l => regPut (physLane (getUnit s host) l) 0
      (regWords (fmtWidth (lrL c)) ((List.range m).map fun r => opCode s cl (lrX c) (lrXs c) (lrL c) r l)) t) t)

/-- The row-scalar files after an RV card: entry m of lane j holds dY[m, j] as FP32 (R61, R62). -/
def loadScalars (s : State) (cl host : Nat) (c : Card) (t : Tab W32) : Tab W32 :=
  (List.range (lrRows c)).foldl (fun t r => (rvRow s cl c r).zipIdx.foldl (fun t x =>
    tabSet 0#32 t (66 * r + physLane (getUnit s host) x.2) x.1.w32) t) t

/-- The registers of the unit that runs a card, after it: an MV card on Cirrus takes its weights straight from the port (R66). -/
def loadRegs (s : State) (cl store host : Nat) (c : Card) (main : Bool) (u : UnitSt) : UnitSt :=
  match lrShape c with
  | 0 => if main then { u with operand := loadBlocks s cl store host c u.operand } else u
  | 6 => { u with operand := loadBlocks s cl store host c u.operand, rowScalar := loadScalars s cl host c u.rowScalar }
  | 7 => { u with operand := loadOuter s cl host c u.operand }
  | _ => { u with operand := loadBlocks s cl store host c u.operand }

/-- Largest unbiased exponent among changed entries (R83). -/
def flipPeak (l : List W32) (p : Int) : Int := l.foldl (fun p w => max p (val32 w).peakExp) p

/-- An upset changes accumulator entries, and with them the values to write back and to compare (R84), and the peaks that the
entries and tree nodes then hold (R83): (lane, entry, value) in forward and outer cards, (position, row, value) in a reverse
card. -/
def applyUpset (c : Card) (u : UnitSt) (up : Upset) (o : LaneOut) : LaneOut :=
  if up.flips = [] then o
  else if lrShape c = 6 then
    let k := lrDepth c
    let res := up.flips.foldl (fun (l : List W32) f => if f.2.1 + 1 < lrRows c then l.set (f.2.1 * k + f.1) f.2.2 else l) o.result
    let chk := up.flips.foldl (fun (l : List W32) f => if f.2.1 + 1 = lrRows c then l.set f.1 f.2.2 else l) (o.pairs.map (·.2))
    let col := fun j => (List.range (lrRows c - 1)).map fun r => res.getD (r * k + j) 0#32
    { o with result := res, pairs := (List.range k).map fun j => (canonSum (col j), chk.getD j 0#32),
             peakA := flipPeak ((up.flips.filter fun f => decide (f.2.1 + 1 < lrRows c)).map (·.2.2)) o.peakA,
             peakT := (List.range k).foldl (fun p j => max p (treePeak 8 (col j))) (flipPeak chk o.peakT) }
  else
    let f := up.flips.foldl (fun (f : Tab W32) x =>
      tabSet 0#32 f (66 * x.2.1 + (if x.1 = 64 then 64 else physLane u x.1)) x.2.2) o.file
    let entries := o.pairs.length
    let row := fun e => (List.range 64).map fun l => fileAt f e (physLane u l)
    { o with file := f, result := layRows c entries fun e l => fileAt f e (physLane u l),
             pairs := (List.range entries).map fun e => (canonSum (row e), fileAt f e 64),
             peakA := flipPeak ((up.flips.filter fun x => decide (x.1 ≠ 64)).map (·.2.2)) o.peakA,
             peakT := (List.range entries).foldl (fun p e => max (max p (treePeak 8 (row e))) (val32 (fileAt f e 64)).peakExp) o.peakT }

/-! ## The comparison (R82, R83) -/

/-- F of R83. -/
def fmtFactor (c : Card) : Nat := if lrShape c = 7 then 4 else if lrL c = 2 ∨ lrL c = 4 then 1 else 4

/-- τ of R83 as an exact value. -/
def tolerance (f n r : Nat) (ea et : Int) : Val :=
  (Val.fin false (f * (n * r)) (ea - 24)).add (.fin false (f * 8) (et - 17))

/-- Whether a compared pair passes (R82, R83). -/
def pairPasses (tau : Val) (a b : W32) : Bool :=
  match val32 a, val32 b with
  | .nan, .nan => true
  | .nan, _ => false
  | _, .nan => false
  | .inf s, .inf t => decide (s = t)
  | .inf _, _ => false
  | _, .inf _ => false
  | x, y => (x.add y.neg).abs.le tau

/-- Whether every compared pair of a run passes. -/
def runPasses (r : Run) : Bool :=
  let n := if lrShape r.card = 6 then lrRows r.card - 1 else 64
  let tau := tolerance (fmtFactor r.card) n r.chunks r.peakA r.peakT
  r.pairs.all fun p => pairPasses tau p.1 p.2

/-! ## Writeback (R58, R145, R148) -/

/-- Words for the elements of a writeback, in its order: pinned words by tile, or free draws of the lanes of unit `host` (R144,
R145). A pinned card leaves the free-mode states as they are. In free mode an RV card draws element by element, row after row, an
element from lane (KSEG + k′) mod 64, and lane 64 does not step (log 86). -/
def laneWords (cl host : Nat) (c : Card) (s : State) : List W32 × State :=
  let rows := outRows c
  let cols := outCols c
  let r := rselOf c.w7
  if r.pinned then
    let columns := (List.range cols).map fun j =>
      if lrShape c = 6 then
        pinnedColumn (clSeed s cl) r ((lrKseg c + j) / 64) ((lrKseg c + j) % 64) rows
      else pinnedColumn (clSeed s cl) r (lrCol c) j rows
    (if lrShape c = 7 then columns.flatMap id
     else (List.range rows).flatMap fun i => columns.map fun y => y.getD i 0#32, bumpBy .rgPinnedTiles c.part (outTiles c) s)
  else
    let u := getUnit s host
    if lrShape c = 6 then
      (List.range (rows * cols)).foldl (fun (acc : List W32 × State) i =>
        let (ys, t) := freeDraw cl (host % 8) (physLane u ((lrKseg c + i % cols) % 64)) 1 acc.2
        (acc.1 ++ ys, t)) ([], s)
    else
      let (grid, t) := freeGrid cl (host % 8) ((List.range 64).map (physLane u) ++ [64]) rows s
      (layRows c rows fun e l => (grid.getD l []).getD e 0#32, t)

/-- Writes back the results of a passing attempt (R58): rows packed in the output format at YADDR. -/
def laneWriteback (cl : Nat) (r : Run) (s : State) : Bool × State :=
  let c := r.card
  let draws := drawsWords c (lrOut c) (lrRound c)
  let (ys, s1) := if draws then laneWords cl r.host c s else ([], s)
  let fmt := lrOut c
  let outs := r.result.zipIdx.map fun (w, i) =>
    emitValue c fmt (if draws then .oneBit ((ys.getD i 0#32).toNat / 2 ^ 31 == 1) else .rne) w
  let fmt' := if splitForm c then 7 else fmt
  let cols := outCols c
  let ws := (List.range (outRows c)).flatMap fun m =>
    bytesAt (poolKey cl (64 * (lrY c + m * lrYs c)))
      (packRow (fmtWidth fmt') (((outs.drop (m * cols)).take cols).map (·.1)))
  let ovf := (outs.zip r.result).any fun (o, w) => o.2 && fFin w
  (ovf, putMem ws s1)

/-! ## Suspicion (R87, R88) -/

/-- Marks a unit SUSPECT and requests its ARITH_TEST in the unit's reserved entry (R87, R88). A RETIRED unit stays so (R90); one
under test goes on with it. -/
def markSuspect (k : Nat) (s : State) : State :=
  if unitEnabled (getUnit s k) = false then s
  else
  let s1 := modUnit k (fun u =>
    { u with state := if u.state = .inTest then .inTest else .suspect, marked := true, suspects := min 255 (u.suspects + 1),
             suspectOvf := u.suspectOvf || decide (255 ≤ u.suspects + 1) }) s
  if s1.maint.any (fun m => decide (m.share = 17) && decide (m.target = k)) then s1
  else { s1 with maint := s1.maint ++ [⟨0, k, 17, false, 0⟩] }

/-- The next AVAILABLE logical unit of a cluster after `u`, ascending and wrapping (R85): its physical index. -/
def neighbour (s : State) (cl u : Nat) : Option Nat :=
  let n := enabledCount s cl
  ((List.range n).drop 1).findSome? fun i =>
    match physOf s cl ((u + i) % n) with
    | some k => if (getUnit s k).state = .available then some k else none
    | none => none

/-- Whether no run occupies a physical unit of the cluster: between its attempts a card occupies none. -/
def hostIdle (s : State) (cl k : Nat) : Bool :=
  (getCl s cl).runs.all fun r => !(decide (r.1 < 8)) || decide (r.2.host ≠ k)
    || decide (r.2.attempt = .retryDue) || decide (r.2.attempt = .reliefDue)

/-! ## Permits (R67 to R69) -/

/-- How an MV card runs: on Cirrus (taking a permit where the unit holds none), on the main path, deferred, or
rejected. -/
inductive Permit where
  | cirrus (takes : Bool)
  | main
  | deferred
  | rejected
deriving DecidableEq, Repr

/-- R68 and R69 for an MV card on host unit `host`; a relief card without a permit runs on the main path (R86). -/
def permitOf (s : State) (cl host : Nat) (c : Card) (relief : Bool) : Permit :=
  let x := getCl s cl
  if (getUnit s host).permit then .cirrus false
  else if relief then .main
  else if x.permitsUsed < x.permits then .cirrus true
  else if lrNoPermit c then .main
  else if 0 < x.permits then .deferred
  else .rejected

/-- Takes a permit for a unit. -/
def takePermit (cl host : Nat) (s : State) : State :=
  modPart (clOwnerPart s cl) (fun x => { x with permits := x.permits + 1 })
    (modCl cl (fun x => { x with permitsUsed := x.permitsUsed + 1 }) (modUnit host (fun u => { u with permit := true }) s))

/-! ## Issue -/

/-- Charge rate in tenths of a pJ per cycle (R442). -/
def laneRate (c : Card) (main : Bool) : Nat := if lrShape c = 0 && !main then 9216 else 3072

/-- Charge of an attempt. -/
def laneCharge (c : Card) (main : Bool) : Nat := laneRate c main * lrLength c main

/-- Starts an attempt of a lane-row card: the arithmetic of the card with the upset it meets, on unit `host`, whose registers it
loads. -/
def startAttempt (cl u own host : Nat) (q : QCard) (a : Attempt) (main : Bool) (prev : List W32) (up : Upset) (s : State) :
    State :=
  let o := applyUpset q.card (getUnit s own) up (runLane s cl own own q.card)
  putLaneRun cl u { runOf q with
    status := if up.uncorrectable then .ckStoreUncorrectable else .ok
    nanIn := o.flags.nanIn, nanGen := o.flags.nanGen, ovf := o.flags.ovf, cycles := lrLength q.card main, attempt := a
    host := host, file := o.file, result := o.result, pairs := o.pairs, chunks := o.chunks, peakA := o.peakA
    peakT := o.peakT, prev := prev, onMain := main }
    (modUnit host (loadRegs s cl own host q.card main) (bumpBy .ckEccCorr q.card.part up.corrected s))

/-- Rejects the head of a unit's queue at issue: it leaves the queue and retires with a status. -/
def rejectHead (cl key : Nat) (q : QCard) (st : Status) (s : State) : State :=
  settle cl q (Report.of st q.card.unit) (modCl cl (fun c => creditQ key (popQ key c)) s)

/-- Issues the head of a unit's queue on host unit `host`, in relief or not. -/
def issueLaneOn (cl u own host : Nat) (q : QCard) (relief : Bool) (up : Upset) (s : State) : State :=
  if !hostIdle s cl host then s
  else match accCheck q.card (getUnit s own).acc with
  | some (st, _, _) => rejectHead cl u q st s
  | none =>
    let p := if lrShape q.card = 0 then permitOf s cl host q.card relief else .cirrus false
    let a := if relief then Attempt.standIn host else .first
    let start := fun (main : Bool) (t : State) =>
      if !canPay t q.card.part (laneCharge q.card main) then markCapped cl t
      else
        let t1 := pay q.card.part (laneCharge q.card main) (modCl cl (popQ u) t)
        let t2 := if main then bump .lwCirrusMain q.card.part t1 else t1
        let t3 := if decide (p = .cirrus true) && decide (lrShape q.card = 0) then takePermit cl host t2 else t2
        startAttempt cl u own host q a main [] up t3
    match p with
    | .cirrus _ => start false s
    | .main => start true s
    | .deferred =>
      if (getCl s cl).deferred.contains u then s
      else bump .lwCirrusDefer q.card.part (modCl cl (fun c => { c with deferred := u :: c.deferred }) s)
    | .rejected => rejectHead cl u q .lwCirrusNoPermit s

/-- Whether a unit's cards run on its neighbour now (R87, R90): from the boundary after it was marked, or while it is in test. -/
def inRelief (u : UnitSt) : Bool :=
  decide (u.state ≠ .available) && decide (u.state ≠ .stale) && !u.marked && u.refill.isNone

/-- The card at the head of unit `u`'s queue waits for unit `host` as its stand-in (R87). -/
def headWaits (s : State) (cl u host : Nat) : Bool :=
  match physOf s cl u, (getQ (getCl s cl) u).cards with
  | some own, q :: _ =>
    decide (own ≠ host) && inRelief (getUnit s own) && engineIdle s cl u && waitsMet (getCl s cl) q
      && decide (q.card.epoch = (getCl s cl).epoch) && decide (neighbour s cl u = some host)
  | _, _ => false

/-- A relief card waits for unit `host`: it goes ahead of the unit's own queued cards (R85, R87). -/
def reliefWaits (s : State) (cl host : Nat) : Bool :=
  (getCl s cl).runs.any (fun r => decide (r.1 < 8) && decide (r.2.attempt = .reliefDue) && decide (neighbour s cl r.1 = some host))
    || (List.range 8).any fun u => headWaits s cl u host

/-- Issues the head of unit `u`'s queue when its shape is one of `shapes` (R87, R95, R107, R111). -/
def issueLane (shapes : List Nat) (cl u : Nat) (up : Upset) (s : State) : State :=
  match (getQ (getCl s cl) u).cards, physOf s cl u with
  | q :: _, some own =>
    if q.card.opcode ≠ 0 ∨ !shapes.contains (lrShape q.card) ∨ !engineIdle s cl u ∨ !waitsMet (getCl s cl) q
        ∨ (getCl s cl).deferred.contains u then s
    else if q.card.epoch ≠ (getCl s cl).epoch then rejectHead cl u q .cardEpochMismatch s
    else
      let x := getUnit s own
      match x.state with
      | .available => if reliefWaits s cl own then s else issueLaneOn cl u own own q false up s
      | .stale => if x.refill.isSome then s else rejectHead cl u q .staleEpoch s
      | _ =>
        if !inRelief x then s
        else match neighbour s cl u with
          | some nb => issueLaneOn cl u own nb q true up s
          | none => rejectHead cl u q .ckNoRelief s
  | _, _ => s

/-- The physical unit of a run's own queue. -/
def ownUnit (s : State) (cl u : Nat) : Nat := (physOf s cl u).getD (8 * cl + u)

/-- Ends a lane-row run without a writeback; the unit's accumulation stays as the card found it (R85), and the record has the
flags that the card has met (R60). -/
def endLane (cl u : Nat) (r : Run) (st : Status) (s : State) : State :=
  settle cl ⟨r.card, r.ord⟩ (r.report st (getUnit s r.host).logical)
    (whenB (r.nanIn || r.nanGen || r.ovf) (bump .lwExc r.card.part)
      (modCl cl (fun c => creditQ u { c with runs := tabDel u c.runs }) s))

/-- A run whose operands were not what the stores held: it has met no flag of its own. -/
def Run.unflagged (r : Run) : Run := { r with nanIn := false, nanGen := false, ovf := false }

/-- CK_RETRY: the second attempt (R85), at the head of the unit's queue, inside the class window (R86). On a unit that has been
marked since, it waits for the boundary and then runs on the neighbour (R87, log 87). -/
def retryLane (cl u : Nat) (up : Upset) (s : State) : State :=
  match tabFind u (getCl s cl).runs, (getCl s cl).owner with
  | some r, some (_, _, j) =>
    let own := ownUnit s cl u
    let start := fun (host : Nat) (a : Attempt) (main : Bool) =>
      if !hostIdle s cl host then s
      else if !canPay s r.card.part (laneCharge r.card main) then markCapped cl s
      else startAttempt cl u own host ⟨r.card, r.ord⟩ a main [] up
        (whenB (main && !r.onMain) (bump .lwCirrusMain r.card.part) (pay r.card.part (laneCharge r.card main) s))
    if r.attempt ≠ .retryDue ∨ !cardWindow s cl r.card ∨ !jobIssues s j ∨ !awake (getCl s cl) then s
    else if (getUnit s own).state = .available then start own .second r.onMain
    else if !inRelief (getUnit s own) then s
    else match neighbour s cl u with
      | none => endLane cl u r .ckNoRelief s
      | some nb => start nb (.standIn nb) (decide (lrShape r.card = 0) && decide (permitOf s cl nb r.card true = .main))
  | _, _ => s

/-- CK_RELIEF: the card runs on the neighbour (R85); with none AVAILABLE it ends CK_NO_RELIEF. A card that goes to the main
path counts in LW_CIRRUS_MAIN once (R69, R86). -/
def reliefLane (cl u : Nat) (up : Upset) (s : State) : State :=
  match tabFind u (getCl s cl).runs, (getCl s cl).owner with
  | some r, some (_, _, j) =>
    if r.attempt ≠ .reliefDue then s
    else match neighbour s cl u with
      | none => endLane cl u r .ckNoRelief (markSuspect (ownUnit s cl u) s)
      | some nb =>
        if !cardWindow s cl r.card || !jobIssues s j || !awake (getCl s cl) || !hostIdle s cl nb then s
        else
          let p := if lrShape r.card = 0 then permitOf s cl nb r.card true else .cirrus false
          let main := decide (p = .main)
          if !canPay s r.card.part (laneCharge r.card main) then markCapped cl s
          else
            let s1 := pay r.card.part (laneCharge r.card main) s
            let s2 := whenB (main && !r.onMain) (bump .lwCirrusMain r.card.part) s1
            startAttempt cl u (ownUnit s cl u) nb ⟨r.card, r.ord⟩ (.relief nb) main r.prev up s2
  | _, _ => s

/-! ## Retirement (R84, R85) -/

/-- A passing attempt: results are written back, or the accumulation is held open, unless they are discarded (R213); the card
retires with a status. -/
def finishLane (cl u : Nat) (r : Run) (st : Status) (s : State) : State :=
  let own := ownUnit s cl u
  let drop := fun (t : State) => modCl cl (fun c => creditQ u { c with runs := tabDel u c.runs }) t
  if r.discard then settle cl ⟨r.card, r.ord⟩ (r.report st (getUnit s r.host).logical) (drop s)
  else if lrCloses r.card then
    let (ovf, s1) := laneWriteback cl r s
    let rep := { r.report st (getUnit s r.host).logical with ovf := r.ovf || ovf }
    let s2 := whenB (r.nanIn || r.nanGen || r.ovf || ovf) (bump .lwExc r.card.part) s1
    settle cl ⟨r.card, r.ord⟩ rep (modUnit own (fun x => { x with acc := none, file := r.file }) (drop s2))
  else
    let a : OpenAcc := ⟨lrShape r.card, lrRows r.card, lrL r.card, lrB r.card, lrTag r.card, r.chunks, r.peakA⟩
    let s2 := whenB (r.nanIn || r.nanGen || r.ovf) (bump .lwExc r.card.part) s
    settle cl ⟨r.card, r.ord⟩ (r.report st (getUnit s r.host).logical)
      (modUnit own (fun x => { x with acc := some a, file := r.file }) (drop s2))

/-- An uncorrectable lane-store word ends the card and makes the unit refill from its source; without one the job falls
(R84, R92, R94). The unit's epoch reads 0 until then (log 88); a SUSPECT or RETIRED unit stays what it is (R87, R90). -/
def storeFault (cl u : Nat) (r : Run) (s : State) : State :=
  let own := ownUnit s cl u
  let lost := (getUnit s own).source.none
  endLane cl u r.unflagged (if lost then .ckRefillNoSource else .ckStoreUncorrectable)
    (modUnit own (fun x => { x with state := if x.state = .available then .stale else x.state, epoch := 0, refill := if lost then none else some (.waiting true) }) s)

/-- A lane-row card that has met an uncorrectable pool word ends without a writeback (R102); one whose attempt has failed its
check and waits for the next has read nothing since. -/
def poolFaultLane (cl u : Nat) (s : State) : State :=
  match tabFind u (getCl s cl).runs with
  | none => s
  | some r =>
    if r.status = .ckStoreUncorrectable then storeFault cl u r s
    else match r.attempt with
      | .retryDue => s
      | .reliefDue => s
      | _ => endLane cl u r.unflagged .poolUncorrectable s

/-- The end of an attempt of a lane-row card (R85). A stand-in's attempt that fails has no second attempt to compare with: the card
ends CK_UNRECOVERED, and both units are marked (log 89). -/
def retireLane (cl u : Nat) (s : State) : State :=
  match tabFind u (getCl s cl).runs with
  | none => s
  | some r =>
    if r.status = .ckStoreUncorrectable then storeFault cl u r s
    else
      let pass := !lrCloses r.card || runPasses r
      let own := ownUnit s cl u
      match r.attempt with
      | .first => if pass then finishLane cl u r .ok s else putRun cl u { r with attempt := .retryDue } s
      | .second =>
        if pass then bump .ckRetried r.card.part (finishLane cl u r .ckRetriedOk s)
        else putRun cl u { r with attempt := .reliefDue, prev := r.result } s
      | .relief nb =>
        if pass then bump .ckRelocated r.card.part (finishLane cl u r .ckRelocated (markSuspect own s))
        else if r.result = r.prev then bump .ckTolData r.card.part (finishLane cl u r .ckTolData s)
        else endLane cl u r .ckUnrecovered (markSuspect nb (markSuspect own s))
      | .standIn nb =>
        if pass then finishLane cl u r .ok s
        else endLane cl u r .ckUnrecovered (markSuspect nb (markSuspect own s))
      | _ => s

/-! ## The commands -/

/-- MV (R66). -/
def execMv (cl u : Nat) (up : Upset) (s : State) : Host.Outcome State Fault Refusal := running s (issueLane [0] cl u up)

/-- MM_N (R65). -/
def execMmN (cl u : Nat) (up : Upset) (s : State) : Host.Outcome State Fault Refusal :=
  running s (issueLane [1, 2, 3, 4, 5] cl u up)

/-- RV (R62). -/
def execRv (cl u : Nat) (up : Upset) (s : State) : Host.Outcome State Fault Refusal := running s (issueLane [6] cl u up)

/-- OP (R63). -/
def execOp (cl u : Nat) (up : Upset) (s : State) : Host.Outcome State Fault Refusal := running s (issueLane [7] cl u up)

/-- CK_RETRY (R85). -/
def execCkRetry (cl u : Nat) (up : Upset) (s : State) : Host.Outcome State Fault Refusal := running s (retryLane cl u up)

/-- CK_RELIEF (R85, R87). -/
def execCkRelief (cl u : Nat) (up : Upset) (s : State) : Host.Outcome State Fault Refusal := running s (reliefLane cl u up)

end Sys2Proof.Machine
end

