-- ==== Sys2Proof/Machine/Contrail.lean ====
section
/-!
DEFINITION. Contrail (R229 to R260): publishes, capture and quantisation, sealing, the switch of banks, and the model
library.
-/

namespace Sys2Proof.Machine

/-! ## Publish-map entries (R239) -/

/-- FMT. -/
def MapEntry.fmt (e : MapEntry) : Nat := fld e.w0 19 16

/-- SHIFT, signed. -/
def MapEntry.shift (e : MapEntry) : Int :=
  let v := fld e.w0 24 20
  if 16 ≤ v then (v : Int) - 32 else v

/-- KLEN. -/
def MapEntry.klen (e : MapEntry) : Nat := fld e.w1 51 32

/-- SPKG. -/
def MapEntry.srcPkg (e : MapEntry) : Nat := fld e.w2 9 0

/-- SDIE. -/
def MapEntry.srcDie (e : MapEntry) : Nat := fld e.w2 15 10

/-- Source cluster as 32 × die + 8 × region + cluster. -/
def MapEntry.srcCl (e : MapEntry) : Nat := 32 * fld e.w2 15 10 + 8 * fld e.w2 17 16 + fld e.w2 20 18

/-- SUNIT. -/
def MapEntry.srcUnit (e : MapEntry) : Nat := fld e.w2 23 21

/-- SOFF. -/
def MapEntry.srcOff (e : MapEntry) : Nat := fld e.w2 42 24

/-- DPKG. -/
def MapEntry.dstPkg (e : MapEntry) : Nat := fld e.w3 9 0

/-- DDIE. -/
def MapEntry.dstDie (e : MapEntry) : Nat := fld e.w3 15 10

/-- Destination cluster. -/
def MapEntry.dstCl (e : MapEntry) : Nat := 32 * fld e.w3 15 10 + 8 * fld e.w3 17 16 + fld e.w3 20 18

/-- DUNIT. -/
def MapEntry.dstUnit (e : MapEntry) : Nat := fld e.w3 23 21

/-- DOFF. -/
def MapEntry.dstOff (e : MapEntry) : Nat := fld e.w3 38 24

/-- Element bytes of a lane. -/
def MapEntry.laneBytes (e : MapEntry) : Nat := e.klen * fmtWidth e.fmt / 8

/-- Scale bytes of a lane: BF4 only (R244). -/
def MapEntry.scaleBytes (e : MapEntry) : Nat := if e.fmt = 0 then e.klen / 32 else 0

/-- Bytes of an entry as staged (R244): 38 × KLEN in BF4, 68 × KLEN in E4M3. -/
def MapEntry.bytes (e : MapEntry) : Nat := 64 * (e.laneBytes + e.scaleBytes) + 4 * e.klen

/-- Whether two entries read one source range in one form, so that a message serves both (R245). -/
def MapEntry.sameSource (a b : MapEntry) : Bool :=
  decide (a.w2 = b.w2) && decide (a.fmt = b.fmt) && decide (a.shift = b.shift) && decide (a.klen = b.klen)

/-! ## Contexts -/

/-- A context in use. -/
def getCtx (s : State) (c : Nat) : Option Ctx := tabFind c s.lrn.ctxs

/-- Packages that hold a source of the context. -/
def sourcePkgs (c : Ctx) : List Nat := c.entries.foldl (fun l e => setIns e.srcPkg l) []

/-- Entries whose source is on this package. -/
def localSources (s : State) (c : Ctx) : List MapEntry := c.entries.filter fun e => decide (e.srcPkg = s.wn.pkg)

/-- Entries whose destination is on this package. -/
def localDests (s : State) (c : Ctx) : List MapEntry := c.entries.filter fun e => decide (e.dstPkg = s.wn.pkg)

/-- Every local source cluster has retired its PUBLISH. -/
def allPublished (s : State) (c : Ctx) : Bool := (localSources s c).all fun e => (getCl s e.srcCl).published

/-! ## PUBLISH (R240) -/

/-- Check of a PUBLISH card at post: CTX is the job's context and the cluster is one of its sources (log 23). -/
def publishCheck (s : State) (cl : Nat) (c : Card) : Chk :=
  let n := fld c.w2 7 0
  badField (!(match getJob s c.job, getCtx s n with
    | some x, some k => decide (x.ctx = some n) && (localSources s k).any fun e => decide (e.srcCl = cl)
    | _, _ => false)) 2 0

/-- PUBLISH at its place in the list: the cluster's report reaches the scheduler core (R240). -/
def doPublish (cl : Nat) (q : QCard) (s : State) : State :=
  let n := fld q.card.w2 7 0
  match getCtx s n with
  | none => retire9 cl q .ctPublishBusy 8 s
  | some c =>
    if (getCl s cl).published ∨ (c.phase ≠ .idle ∧ c.phase ≠ .collect) then retire9 cl q .ctPublishBusy 8 s
    else
      let s1 := modCl cl (fun x => { x with published := true })
        (modCtx n (fun x => { x with phase := .collect, pubTick := s.tk.tick }) s)
      let s2 := if allPublished s1 c ∧ leadPkg s1 c.job ≠ s.wn.pkg then
        sendCtrl (leadPkg s1 c.job) (.publishReport c.job s.wn.pkg) s1 else s1
      retire9 cl q .ok 8 s2

/-- An unconsumed record of the job's rings is so old that a publish of epoch `e` is held (R232). -/
def mustHold (s : State) (j e : Nat) : Bool :=
  s.lrn.rings.any fun r => decide (r.2.job = j) && r.2.recs.any fun x => decide (x.2.2.1 + 65536 ≤ e)

/-- Lifts the fences of the context's source units (R241). -/
def liftFences (c : Ctx) (s : State) : State :=
  forEach (localSources s c) (fun e t => match physOf t e.srcCl e.srcUnit with
    | some k => modUnit k (fun u => { u with fenced := false }) t
    | none => t) s

/-- The publish leaves its context at rest. -/
def Ctx.rest (c : Ctx) : Ctx :=
  { c with phase := .idle, epochPending := 0, switchTick := 0, ticks := 0, pubFrom := [], sealFrom := [], startTick := 0,
           entries := c.entries.map fun e => { e with captured := false, resent := false, sealedOk := false } }

/-- A publish fails on this package: the inactive bank is INVALID and the context is IDLE again (R248). -/
def failHere (n : Nat) (st : Status) (s : State) : State :=
  match getCtx s n with
  | none => s
  | some c =>
    bump .ctFailed c.part (modCtx n (fun x => { x.rest with inactiveInvalid := true, lastStatus := st }) (liftFences c s))

/-- A publish fails (R243, R246, R248); the other packages of its job hear of it (log 108). -/
def failPublish (n : Nat) (st : Status) (s : State) : State :=
  match getCtx s n with
  | none => s
  | some c => failHere n st (castCtrl c.job (.publishFailed c.job s.wn.pkg st) s)

/-- The capture of a publish begins (R240, R241): the source units are fenced. -/
def beginCapture (n : Nat) (c : Ctx) (s : State) : State :=
  let s1 := forEach (localSources s c) (fun e t => match physOf t e.srcCl e.srcUnit with
    | some k => modUnit k (fun u => { u with fenced := true }) t
    | none => t) s
  modCtx n (fun x => { x with phase := if (localSources s c).isEmpty then .send else .capture, ticks := 0,
                              capTick := s.tk.tick, inactiveInvalid := true }) s1

/-- A publish is numbered and starts, is held, or is refused (R230, R232, R240). -/
def startPublish (n : Nat) (s : State) : State :=
  match getCtx s n with
  | none => s
  | some c =>
    let e := c.lastEpoch + 1
    let s0 := forEach (localSources s c) (fun x t => modCl x.srcCl (fun y => { y with published := false }) t) s
    let s1 := if leadPkg s c.job = s.wn.pkg then castCtrl c.job (.publishStart c.job s.tk.tick) s0 else s0
    if 2 ^ 48 - 1 < e then
      let s2 := modCtx n (fun x => { x.rest with lastStatus := .ctEpochExhausted, exhausted := true }) s1
      if c.exhausted then s2 else raise .ctEpochExhausted c.part c.job s2
    else
      let s2 := modCtx n (fun x => { x with lastEpoch := e, epochPending := e }) s1
      if mustHold s2 c.job e then bump .ctHeld c.part (modCtx n (fun x => { x with phase := .held }) s2)
      else beginCapture n c s2

/-- CT_PUBLISH_START (R240): at the first intake edge after the last source cluster of the context, on every package, has
retired its PUBLISH; a member other than the lead waits for the lead's start tick. -/
def publishStart (n : Nat) (s : State) : State :=
  match getCtx s n with
  | none => s
  | some c =>
    let lead := decide (leadPkg s c.job = s.wn.pkg)
    let due := if lead then
        (localSources s c).isEmpty = false ∧ allPublished s c ∧ c.phase = .collect
          ∨ ((localSources s c).isEmpty ∧ (c.phase = .collect ∨ c.phase = .idle) ∧ c.pubFrom ≠ [])
      else c.startTick ≠ 0 ∧ c.startTick ≤ s.tk.tick
    let others := !lead || (sourcePkgs c).all fun k => decide (k = s.wn.pkg) || c.pubFrom.contains k
    if s.tk.phase = .step ∧ jobIssues s c.job ∧ due ∧ others ∧ (c.phase = .idle ∨ c.phase = .collect)
        ∧ c.pubTick < s.tk.tick then
      startPublish n s
    else s

/-- Held publishes are examined again at the intake edge (R232). -/
def heldPublishes (s : State) : State :=
  forEach (s.lrn.ctxs.filter fun c => decide (c.2.phase = .held)) (fun c t =>
    if mustHold t c.2.job c.2.epochPending then bump .ctHeld c.2.part t else beginCapture c.1 c.2 t) s

/-! ## Capture and quantisation (R241 to R244) -/

/-- The BF16 source weights of one logical lane, widened (R241, R242). -/
def sourceLane (s : State) (e : MapEntry) (k lane : Nat) : List W32 :=
  (List.range e.klen).map fun i => widen 5 (memNat s.mem (laneKey k (physLane (getUnit s k) lane) (e.srcOff + 2 * i)) 2)

/-- What quantising one lane gives: element codes, scale bytes, the FP32 weights, and the saturations. -/
structure Quant where
  codes : List Nat
  scales : List Nat
  weights : List W32
  sats : Nat

/-- Blocks of 32 elements. -/
def blocks32 {α : Type} (n : Nat) (l : List α) : List (List α) := (List.range n).map fun b => (l.drop (32 * b)).take 32

/-- w × 2^SHIFT as E4M3, saturating (R242). -/
def e4m3Shift (sh : Int) (w : W32) : Nat × Bool :=
  match val32 w with
  | .fin s m e => narrowMag 2 .rne s ⟨m, 1, e + sh⟩
  | _ => (nanCode 2, false)

/-- Quantises one lane (R242). -/
def quantLane (e : MapEntry) (xs : List W32) : Quant :=
  if e.fmt = 0 then
    let bs := (blocks32 (e.klen / 32) xs).map fun b =>
      let sc := bf4Scale b
      (sc, b.map (bf4Elem .rne sc))
    ⟨bs.flatMap (·.2), bs.map (·.1), bs.flatMap fun b => b.2.map fun c => (scaledElem 0 c b.1).w32, 0⟩
  else
    let cs := xs.map (e4m3Shift e.shift)
    ⟨cs.map (·.1), [], cs.map fun c => widen 2 c.1, (cs.filter (·.2)).length⟩

/-- The bytes of an entry as staged (R244): elements by lane, scales by lane, ŝ_k. -/
def stageBytes (e : MapEntry) (qs : List Quant) : List Byte :=
  (qs.flatMap fun q => packRow (fmtWidth e.fmt) q.codes) ++ (qs.flatMap fun q => q.scales.map (BitVec.ofNat 8))
    ++ w32Bytes ((List.range e.klen).map fun i => canonSum (qs.map fun q => q.weights.getD i 0#32))

/-- Whether an Afterglow copy of the job is open (R241). -/
def copyOpen (s : State) (j : Nat) : Bool :=
  match (getJob s j).bind (·.ag) with
  | some n => match tabFind n s.lrn.ags with
    | some a => a.copyOpen || a.dies.any (·.copying)
    | none => false
  | none => false

/-- Replaces entry `i` of a context. -/
def modEntry (n i : Nat) (f : MapEntry → MapEntry) (s : State) : State :=
  modCtx n (fun c => { c with entries := c.entries.set i (f (c.entries.getD i ⟨0#64, 0#64, 0#64, 0#64, false, false, false, 0, 0#32⟩)) }) s

/-- Where an entry is staged: behind the entries of its die that come before it in the map (log 22). -/
def stageOffset (s : State) (c : Ctx) (i : Nat) (e : MapEntry) : Nat :=
  (((c.entries.take i).filter fun x => decide (x.srcPkg = s.wn.pkg) && decide (x.srcDie = e.srcDie)).map MapEntry.bytes).sum

/-- The STAGE region of a learner die, with its table entry (R238). -/
def stageRegion (s : State) (c : Ctx) (die : Nat) : Option (Nat × Nat × Region) :=
  (c.stage.find? fun x => decide (x.1 = die)).bind fun x => (regionOf s x.2.1 x.2.2).map fun g => (x.2.1, x.2.2, g)

/-- The staged bytes of an entry (R244), read from near memory, and the state after the read (R179). -/
def stagedBytes (c : Ctx) (e : MapEntry) (s : State) : Option (List Byte) × State := match stageRegion s c e.srcDie with
  | some (rd, h, _) => match readPlace s ⟨rd, h, e.stageOff⟩ e.bytes with
    | .ok bs => (some bs, s)
    | .error _ => (none, noteRead ⟨rd, h, e.stageOff⟩ e.bytes s)
  | none => (none, s)

/-- Sends a staged entry to another package with the CRC-32C that it was staged under (R244, R245); what cannot be read is not
sent. -/
def sendEntry (c : Ctx) (i pkg : Nat) (e : MapEntry) (s : State) : State :=
  let (bs, s1) := stagedBytes c e s
  match bs with
  | none => s1
  | some bytes =>
    sendMsg pkg 6 3 e.srcDie e.dstDie ⟨c.job, 0, 0, e.dstDie, e.dstCl % 32, 0, i, 0, e.bytes / 64, 0, 0, true⟩
      (bytes ++ leBytes 4 e.crc.toNat) s1

/-- The packages that hold another destination of the source range of entry `i`, for the first entry of the range: it travels
once (R245). -/
def rangeDests (s : State) (c : Ctx) (i : Nat) (e : MapEntry) : List Nat :=
  if (c.entries.take i).any fun x => x.sameSource e then []
  else (c.entries.filter fun x => x.sameSource e && decide (x.dstPkg ≠ s.wn.pkg)).foldl (fun l x => setIns x.dstPkg l) []

/-- The send begins once every entry of this package has been captured: until then nothing is sent, so that a capture that fails
sends nothing (R243, log 107). -/
def beginSend (n : Nat) (s : State) : State :=
  match getCtx s n with
  | none => s
  | some c =>
    forEach (c.entries.zipIdx.filter fun x => decide (x.1.srcPkg = s.wn.pkg)) (fun x t =>
      forEach (rangeDests s c x.2 x.1) (fun p u => sendEntry c x.2 p x.1 u) t)
      (modCtx n (fun x => { x with phase := .send }) s)

/-- CT_CAPTURE (R241 to R244): one entry of a learner die, in ascending entry order. An entry that its STAGE region cannot hold is
not captured, and its publish ends by its timeout (log 22). -/
def capture (n i : Nat) (s : State) : State :=
  match getCtx s n with
  | none => s
  | some c =>
    match c.entries[i]? with
    | none => s
    | some e =>
      let before := (c.entries.take i).all fun x =>
        x.captured || decide (x.srcPkg ≠ s.wn.pkg) || decide (x.srcDie ≠ e.srcDie)
      match stageRegion s c e.srcDie with
      | none => s
      | some (rd, h, g) =>
        let off := stageOffset s c i e
        if c.phase ≠ .capture ∨ e.captured ∨ e.srcPkg ≠ s.wn.pkg ∨ !before ∨ copyOpen s c.job ∨ !windowOpen s 3
            ∨ g.len < off + e.bytes then s
        else
          let k := (physOf s e.srcCl e.srcUnit).getD (8 * e.srcCl + e.srcUnit)
          let src := (List.range 64).map (sourceLane s e k)
          if src.any fun l => l.any fun w => !fFin w then failPublish n .ctNonfinite s
          else
            let qs := src.map (quantLane e)
            let bytes := stageBytes e qs
            let s1 := bumpBy .ctSaturated c.part ((qs.map (·.sats)).sum) s
            let s2 := modEntry n i (fun x => { x with captured := true, stageOff := off, crc := crc32c bytes }) (writePlace rd h off bytes s1)
            let same := fun (x : MapEntry) => decide (x.srcCl = e.srcCl) && decide (x.srcUnit = e.srcUnit)
              && decide (x.srcPkg = s.wn.pkg)
            let s3 := if (c.entries.drop (i + 1)).any same then s2 else modUnit k (fun u => { u with fenced := false }) s2
            let all := match getCtx s3 n with
              | some x => (localSources s3 x).all (·.captured)
              | none => false
            if all then beginSend n s3 else s3

/-! ## Sealing (R233, R236, R246, R247) -/

/-- GEN clusters of a job on a die of this package, ascending (log 22). -/
def genClusters (s : State) (j die : Nat) : List Nat :=
  match getJob s j with
  | some x => ((x.clusters.filter fun c => decide (c.2 = 0) && decide (clDie c.1 = die)).map (·.1)).foldl (fun l c => setIns c l) []
  | none => []

/-- Offset in BANKCOPY of the copy of a bank of a unit (R236): clusters in ascending order of the die's GEN clusters. -/
def copyOffset (s : State) (c : Ctx) (cl u bank : Nat) : Nat :=
  (genClusters s c.job (clDie cl)).findIdx (· == cl) * 1280 * c.bankBytes + bank * 640 * c.bankBytes + u * 80 * c.bankBytes

/-- Writes the bytes of an entry into a bank of its destination unit (R233). -/
def fillBank (c : Ctx) (e : MapEntry) (bank : Nat) (bytes : List Byte) (s : State) : State :=
  let k := (physOf s e.dstCl e.dstUnit).getD (8 * e.dstCl + e.dstUnit)
  let b0 := bank * c.bankBytes + e.dstOff
  let lane := fun (l : Nat) => physLane (getUnit s k) l
  let elems := (List.range 64).flatMap fun l =>
    bytesAt (laneKey k (lane l) b0) ((bytes.drop (l * e.laneBytes)).take e.laneBytes)
  let scales := (List.range 64).flatMap fun l => (List.range e.scaleBytes).map fun b =>
    (scaleKey k (lane l) ((b0 + 16 * b) / 8), bytes.getD (64 * e.laneBytes + l * e.scaleBytes + b) 0#8)
  let sums := bytesAt (laneKey k 64 (bank * 262144 + 4 * (e.dstOff * 8 / fmtWidth e.fmt)))
    (bytes.drop (64 * (e.laneBytes + e.scaleBytes)))
  modUnit k (fun u => { u with wfmt := e.fmt }) (putMem (elems ++ scales ++ sums) s)

/-- Writes the bytes of an entry into the copy of a bank (R236). -/
def fillCopy (c : Ctx) (e : MapEntry) (bank : Nat) (bytes : List Byte) (s : State) : State :=
  match c.copy.find? fun x => decide (x.1 = e.dstDie) with
  | none => s
  | some (_, rd, h) =>
    let o := copyOffset s c e.dstCl e.dstUnit bank
    let s1 := forEach (List.range 64) (fun l t =>
      writePlace rd h (o + l * c.bankBytes + e.dstOff) ((bytes.drop (l * e.laneBytes)).take e.laneBytes) t) s
    let s2 := writePlace rd h (o + 64 * c.bankBytes + 4 * (e.dstOff * 8 / fmtWidth e.fmt))
      (bytes.drop (64 * (e.laneBytes + e.scaleBytes))) s1
    forEach (List.range 64) (fun l t => forEach (List.range e.scaleBytes) (fun b u =>
      writePlace rd h (o + 72 * c.bankBytes + l * (c.bankBytes / 8) + (e.dstOff + 16 * b) / 8)
        [bytes.getD (64 * e.laneBytes + l * e.scaleBytes + b) 0#8] u) t) s2

/-- A cluster at Fog or a deeper state (R247). -/
def deepState (c : Cluster) : Bool := decide (c.pm = .fog) || decide (c.pm = .dusk) || decide (c.pm = .night)

/-- An entry's data comes to its destination with a matching or a wrong CRC (R246). -/
def receiveEntry (n i : Nat) (c : Ctx) (e : MapEntry) (bytes : List Byte) (ok : Bool) (s : State) : State :=
  if ok then
    let bank := 1 - c.activeBank
    let s1 := fillCopy c e bank bytes s
    let s2 := if deepState (getCl s e.dstCl) then s1 else fillBank c e bank bytes s1
    modEntry n i (fun x => { x with sealedOk := true }) s2
  else if e.resent then failPublish n .ctSealFailed s
  else
    let s1 := modEntry n i (fun x => { x with resent := true }) (bump .ctResent c.part s)
    if e.srcPkg = s.wn.pkg then s1
    else sendMsg e.srcPkg 6 3 e.dstDie e.srcDie ⟨c.job, 0, 0, e.srcDie, e.srcCl % 32, 0, i, 0, 0, 0, 0, true⟩ [] s1

/-- CT_ENTRY_RECEIVE (R246): a captured entry of this package comes to its destination on this package; one that cannot be read
from STAGE does not match its CRC. -/
def entryReceive (n i : Nat) (ok : Bool) (s : State) : State :=
  match getCtx s n with
  | none => s
  | some c =>
    match c.entries[i]? with
    | none => s
    | some e =>
      if c.phase ≠ .send ∨ !e.captured ∨ e.sealedOk ∨ e.dstPkg ≠ s.wn.pkg ∨ !windowOpen s 3 then s
      else
        let (bs, s1) := stagedBytes c e s
        receiveEntry n i c e (bs.getD []) (ok && bs.isSome) s1

/-- CONTRAIL_MSG (R245, R246): a source range of another package comes, and the Contrail engine delivers it to its own destinations;
or another package asks for an entry of this one again, without data, and it goes out from STAGE. -/
def contrailIn (j i : Nat) (data : List Byte) (crc : W32) (s : State) : State :=
  match (getJob s j).bind (·.ctx) with
  | none => s
  | some n => match getCtx s n with
    | none => s
    | some c => match c.entries[i]? with
      | none => s
      | some e =>
        let ok := decide (crc32c data = crc) && decide (data.length = e.bytes)
        let hits := (c.entries.zipIdx.filter fun x =>
          x.1.sameSource e && decide (x.1.dstPkg = s.wn.pkg) && !x.1.sealedOk).map (·.2)
        if (c.phase ≠ .capture ∧ c.phase ≠ .send) ∨ !windowOpen s 3 then s
        else if e.srcPkg = s.wn.pkg then
          if data = [] ∧ e.captured ∧ e.dstPkg ≠ s.wn.pkg then sendEntry c i e.dstPkg e s else s
        else forEach hits (fun k t => match getCtx t n with
          | some d => match d.entries[k]? with
            | some x => if d.phase = .capture ∨ d.phase = .send then receiveEntry n k d x data ok t else t
            | none => t
          | none => t) s

/-! ## The switch (R249, R250) -/

/-- Every layer is sealed on every generator die of this package. -/
def allSealed (s : State) (c : Ctx) : Bool := decide (c.phase = .send) && (localDests s c).all (·.sealedOk)

/-- Every generator cluster of the context changes its active bank and the epoch becomes the published one (R249); a late
GEN step is discarded and runs again (R32, R260). -/
def bankSwitch (n : Nat) (s : State) : State :=
  match getCtx s n with
  | none => s
  | some c =>
    discardLate c.job (bump .ctPublishes c.part (modCtx n (fun x =>
      { x.rest with activeBank := 1 - x.activeBank, epochActive := c.epochPending, activeCap := c.capTick, inactiveInvalid := false,
                    lastStatus := .ok }) s))

/-- Arms the switch for tick `t`; a switch of the boundary that is already open takes effect in it. -/
def armSwitch (n t : Nat) (s : State) : State :=
  let s1 := modCtx n (fun x => { x with phase := .armed, switchTick := t }) s
  if s.tk.phase = .boundary ∧ t = s.tk.tick + 1 then bankSwitch n s1 else s1

/-- CT_SWITCH_ARM (R249, R250): every layer is sealed at the boundary that ends the tick. A member reports to the lead; the
lead names S once it holds every report. -/
def switchArm (n : Nat) (s : State) : State :=
  match getCtx s n with
  | none => s
  | some c =>
    if s.tk.phase = .step ∨ s.tk.phase = .late ∨ !compUp s 7 ∨ !allSealed s c ∨ !jobIssues s c.job then s
    else if leadPkg s c.job ≠ s.wn.pkg then
      if c.sealFrom.contains s.wn.pkg then s
      else sendCtrl (leadPkg s c.job) (.sealReport c.job s.wn.pkg) (modCtx n (fun x => { x with sealFrom := [s.wn.pkg] }) s)
    else
      let others := (jobPkgs s c.job).all fun k => decide (k = s.wn.pkg) || c.sealFrom.contains k
      let t := s.tk.tick + 1 + c.switchLead
      if others then castCtrl c.job (.switchAt c.job t) (armSwitch n t s) else s

/-- CT_SWITCH_BROADCAST (R250): the lead's switch tick arrives; one that comes after the boundary of tick S − 1 has begun
tears the job down. -/
def switchBroadcast (n t : Nat) (s : State) : State :=
  match getCtx s n with
  | none => s
  | some c =>
    if !allSealed s c then s
    else if t ≤ s.tk.tick ∨ (t = s.tk.tick + 1 ∧ s.tk.phase = .boundary) then faultJob c.job .ctSwitchLate s
    else modCtx n (fun x => { x with phase := .armed, switchTick := t }) s

/-- The bank switches of a boundary, step 5 of R31. With component 7 down a switch moves to the next boundary, which in a job
across packages is CT_SWITCH_LATE (R436). -/
def bankSwitches (s : State) : State :=
  forEach (s.lrn.ctxs.filter fun c => decide (c.2.phase = .armed) && decide (c.2.switchTick = s.tk.tick + 1))
    (fun c t =>
      if !jobIssues t c.2.job then t
      else if compUp t 7 then bankSwitch c.1 t
      else if jobPkgs t c.2.job = [t.wn.pkg] then modCtx c.1 (fun x => { x with switchTick := x.switchTick + 1 }) t
      else faultJob c.2.job .ctSwitchLate t) s

/-- Ticks of the publishes under way, counted at the boundary (R248). -/
def publishTicks (s : State) : State :=
  { s with lrn := { s.lrn with ctxs := tabMap (fun _ c =>
      if c.phase = .capture ∨ c.phase = .send then { c with ticks := c.ticks + 1 } else c) s.lrn.ctxs } }

/-- CT_PUBLISH_TIMEOUT (R248): a layer of a generator die of this package is still unsealed. -/
def publishTimeout (n : Nat) (s : State) : State :=
  match getCtx s n with
  | none => s
  | some c =>
    if (c.phase = .capture ∨ c.phase = .send) ∧ c.timeout ≤ c.ticks ∧ !allSealed s c then
      failPublish n .ctPublishTimeout s
    else s

/-- A publish in CAPTURE, SEND or ARMED ends with the pre-emption of its job (R260). -/
def abortPublish (j : Nat) (s : State) : State :=
  match (getJob s j).bind (·.ctx) with
  | none => s
  | some n => match getCtx s n with
    | none => s
    | some c =>
      if c.phase = .capture ∨ c.phase = .send ∨ c.phase = .armed then failPublish n .ctPublishAborted s else s

/-! ## Reports of other packages -/

/-- A CTRL-lane message about a publish (R240, R250). -/
def contrailCtrl (m : CtrlMsg) (s : State) : State :=
  let ctx := fun (j : Nat) => (getJob s j).bind (·.ctx)
  match m with
  | .publishReport j pkg => match ctx j with
    | some n => modCtx n (fun c => { c with pubFrom := setIns pkg c.pubFrom, pubTick := s.tk.tick }) s
    | none => s
  | .publishStart j t => match ctx j with
    | some n => modCtx n (fun c => { c with startTick := max 1 t }) s
    | none => s
  | .sealReport j pkg => match ctx j with
    | some n => modCtx n (fun c => { c with sealFrom := setIns pkg c.sealFrom }) s
    | none => s
  | .switchAt j t => match ctx j with
    | some n => switchBroadcast n t s
    | none => s
  | .publishFailed j _ st => match ctx j with
    | some n => if (getCtx s n).any fun c => decide (c.phase ≠ .idle) && decide (c.phase ≠ .collect) then failHere n st s else s
    | none => s
  | _ => s

/-! ## Model images and the library (R251 to R257) -/

/-- RW words of CT_LOAD_REQ. -/
def loadRd (v : W64) : Nat := fld v 2 0

/-- REGION of CT_LOAD_REQ. -/
def loadRegion (v : W64) : Nat := fld v 10 3

/-- RANK of CT_LOAD_REQ. -/
def loadRank (v : W64) : Nat := fld v 20 11

/-- Whether a region may stage an image: a WRITABLE CONTRAIL region of the partition that its application cores own. -/
def stagingOk (s : State) (p : Nat) (rd h : Nat) : Option Status :=
  match regionOf s rd h with
  | none => some .mtAddrInvalid
  | some e =>
    if e.part = p ∧ e.cls = 3 ∧ e.sealed = false ∧ 56 ≤ e.owner ∧ (coreDies s p).contains (e.owner - 56) then none
    else some .mtNotOwner

/-- A write of CT_LOAD_REQ (R254): one load of a partition at a time. -/
def loadReq (who : Who) (v : W64) (s : State) : Wr :=
  let p := viewOf s who
  if 16 ≤ p then Wr.drops 2 s
  else Wr.part (decide (fld v 63 21 ≠ 0)) 1 <|
    if (getPart s p).load.isSome then Wr.no .ctLoadBusy s
    else match stagingOk s p (loadRd v) (loadRegion v) with
      | some st => Wr.no st (modPart p (fun x => { x with loadStatus := st }) s)
      | none => Wr.ok (modPart p (fun x => { x with load := some ⟨loadRd v, loadRegion v, loadRank v⟩ }) s)

/-- Words of an image as staged. -/
def imgWord (bs : List Byte) (off : Nat) : W64 := BitVec.ofNat 64 (leNat ((bs.drop off).take 8))

/-- SIG_OFFSET of an image with a number of layers and shards (R251). -/
def sigOffset (layers shards : Nat) : Nat := (64 + 32 * layers + 64 * shards + 63) / 64 * 64

/-- Header and table checks of R251 (CT_IMAGE_INVALID otherwise). `hd` holds bytes 0 to SIG_OFFSET − 1. -/
def imageOk (hd : List Byte) : Bool :=
  let w := fun i => imgWord hd (8 * i)
  let kind := fld (w 0) 49 48
  let layers := fld (w 1) 15 0
  let shards := fld (w 1) 26 16
  let so := fld (w 5) 47 0
  let layerOk := (List.range layers).all fun i =>
    let b := 64 + 32 * i
    decide (fld (imgWord hd b) 63 25 = 0) && decide (fld (imgWord hd (b + 8)) 63 52 = 0)
      && decide (fld (imgWord hd (b + 16)) 63 20 = 0) && decide (imgWord hd (b + 24) = 0#64)
  let sh := (List.range shards).map fun i =>
    let b := 64 + 32 * layers + 64 * i
    (imgWord hd b, imgWord hd (b + 8))
  let shardOk := sh.all fun x =>
    decide (fld x.1 47 0 % 4096 = 0) && decide (so + 128 ≤ fld x.1 47 0) && decide (fld x.1 63 58 = 0)
      && decide (fld x.2 63 54 = 0) && (decide (kind = 3) || decide (fld x.2 53 48 = 0))
  let apart := sh.zipIdx.all fun x => (sh.drop (x.2 + 1)).all fun y =>
    decide (fld x.1.1 47 0 + fld x.1.2 47 0 ≤ fld y.1 47 0) || decide (fld y.1 47 0 + fld y.2 47 0 ≤ fld x.1.1 47 0)
  decide (fld (w 0) 31 0 = 0x4B504C43) && decide (fld (w 0) 47 32 = 1) && decide (fld (w 0) 63 50 = 0)
    && decide (1 ≤ layers) && decide (1 ≤ shards) && decide (shards ≤ 1024) && decide (fld (w 1) 63 27 = 0)
    && decide (fld (w 2) 63 56 = 0) && decide (so = sigOffset layers shards) && decide (fld (w 5) 63 48 = 0)
    && (decide (kind = 3) || (decide (w 6 = 0#64) && decide (w 7 = 0#64)))
    && layerOk && shardOk && apart

/-- The shards of a rank: BYTES, DIE and digest (R251). A checkpoint has one for each learner die of the rank, and they lie
behind each other (R362, log 41); any other image has one. -/
def shardsOf (hd : List Byte) (rank : Nat) : List (Nat × Nat × List Byte) :=
  let layers := fld (imgWord hd 8) 15 0
  let shards := fld (imgWord hd 8) 26 16
  let mine := ((List.range shards).map fun i => 64 + 32 * layers + 64 * i).filterMap fun b =>
    if fld (imgWord hd b) 57 48 = rank then
      some (fld (imgWord hd (b + 8)) 47 0, fld (imgWord hd (b + 8)) 53 48, (hd.drop (b + 16)).take 48) else none
  if fld (imgWord hd 0) 49 48 = 3 then mine else mine.take 1

/-- Each shard with the bytes that hold it, of a run of shards. -/
def cutShards : List (Nat × Nat × List Byte) → List Byte → List ((Nat × Nat × List Byte) × List Byte)
  | [], _ => []
  | x :: t, bs => (x, bs.take x.1) :: cutShards t (bs.drop x.1)

/-- Library entries of a partition. -/
def libsOf (s : State) (p : Nat) : List (Nat × Lib) := s.lrn.libs.filter fun l => decide (l.1 / 64 = p)

/-- 4 KiB pages that an entry takes: those of its region. -/
def libPages (s : State) (l : Lib) : Nat := ((regionOf s l.rd l.region).map Region.len).getD 0 / 4096

/-- LIB_PAGES share of a partition (R386). -/
def libShare (s : State) (p : Nat) : Nat := ptFld (ptEntry s p) 8 49 10

/-- Whether entry `a` is evicted before entry `b` (R256). -/
def libBefore (a b : Nat × Lib) : Bool :=
  if a.2.uses ≠ b.2.uses then decide (a.2.uses < b.2.uses)
  else if a.2.lastUse ≠ b.2.lastUse then decide (a.2.lastUse < b.2.lastUse)
  else decide (a.1 < b.1)

/-- Places a verified image of `n` bytes on the staging region's rim die, over all CONTRAIL channels of the partition there
(log 24): the library index, rim die and region. -/
def placeLib (p rd n : Nat) (s : State) : Option (Nat × Nat × State) :=
  let pages := ((libsOf s p).map fun l => libPages s l.2).sum
  match (List.range 64).find? fun i => (tabFind (64 * p + i) s.lrn.libs).isNone with
  | none => none
  | some i =>
    let w : Want := { rd := rd, part := p, cls := 3, bytes := n, chans := (classChans s p 3 rd).length, sealed := true,
                      owner := 56 + rd, accum := 0, job := 0 }
    match reserveRegion w s with
    | .error _ => none
    | .ok (h, t) =>
      if pages + ((regionOf t rd h).map Region.len).getD 0 / 4096 ≤ libShare s p then some (i, h, t) else none

/-- Evicts entries with IN_USE 0 in R256's order until the image fits; `none` when it never does. -/
def fitLib : Nat → Nat → Nat → Nat → State → Option (Nat × Nat × State)
  | 0, p, rd, n, s => placeLib p rd n s
  | k + 1, p, rd, n, s =>
    match placeLib p rd n s with
    | some r => some r
    | none =>
      match ((libsOf s p).filter fun l => decide (l.2.inUse = 0)).foldl
          (fun (b : Option (Nat × Lib)) l => match b with
            | some x => if libBefore l x then some l else b
            | none => some l) none with
      | none => none
      | some l =>
        -- space freed by an eviction is reserved again only after its zeroing (R167), so it is cleared at once here
        let s1 := { s with lrn := { s.lrn with libs := tabDel l.1 s.lrn.libs } }
        let s2 := match regionOf s1 l.2.rd l.2.region with
          | some e => forEach (maskChans e.chmask) (fun c t => zeroMem (chanKey (16 * l.2.rd + c) e.base)
              (e.len / (maskChans e.chmask).length) t)
              { s1 with mt := { s1.mt with regions := tabDel (256 * l.2.rd + l.2.region) s1.mt.regions } }
          | none => s1
        fitLib k p rd n s2

/-- Ends a load with a status. -/
def endLoad (p : Nat) (st : Status) (s : State) : State := modPart p (fun x => { x with load := none, loadStatus := st }) s

/-- CT_LOAD_COMPLETE (R254): the checks of a load, in order; after the last the shard is copied into a SEALED library
region. `sigOk` is a fact of the staged bytes. -/
def loadComplete (p : Nat) (sigOk : Bool) (s : State) : State :=
  match (getPart s p).load with
  | none => s
  | some l =>
    match regionOf s l.rd l.region, readPlace s ⟨l.rd, l.region, 0⟩ 64 with
    | some e, .ok h0 =>
      let layers := fld (imgWord h0 8) 15 0
      let shards := fld (imgWord h0 8) 26 16
      let so := sigOffset layers shards
      if e.len < so + 128 then endLoad p .ctImageInvalid s
      else match readPlace s ⟨l.rd, l.region, 0⟩ (so + 128) with
        | .error st => endLoad p st (noteRead ⟨l.rd, l.region, 0⟩ (so + 128) s)
        | .ok hd =>
          let key := fld (imgWord hd 16) 55 48
          if !imageOk (hd.take so) then endLoad p .ctImageInvalid s
          else if (s.wn.bootImage.map fun b => b.publishers.length).getD 0 ≤ key then endLoad p .ctKeyUnknown s
          else if !sigOk then endLoad p .ctSignatureInvalid s
          else match shardsOf hd l.rank with
            | [] => endLoad p .ctShardMissing s
            | x :: rest =>
              let shards := x :: rest
              let n := (shards.map (·.1)).sum
              if e.len < so + 128 + n then endLoad p .mtAddrInvalid s
              else match readPlace s ⟨l.rd, l.region, 0⟩ (so + 128 + n) with
                | .error st => endLoad p st (noteRead ⟨l.rd, l.region, 0⟩ (so + 128 + n) s)
                | .ok bytes =>
                  let mid := leNat ((hd.drop 24).take 16)
                  if (cutShards shards (bytes.drop (so + 128))).any fun y => decide (sha384 y.2 ≠ y.1.2.2) then endLoad p .ctShardHash s
                  else if (libsOf s p).any fun x => decide (x.2.modelId = mid) then endLoad p .ok s
                  else match fitLib 64 p l.rd (so + 128 + n) s with
                    | none => endLoad p .ctLibraryFull s
                    | some (i, h, t) =>
                      let lib : Lib := { modelId := mid, rank := l.rank, bytes := n, kind := fld (imgWord hd 0) 49 48,
                                         epoch0 := fld (imgWord hd 16) 47 0, inUse := 0, uses := 0,
                                         lastUse := 0, rd := l.rd, region := h,
                                         j := if fld (imgWord hd 0) 49 48 = 3 then (imgWord hd 48).toNat else 0,
                                         placement := if fld (imgWord hd 0) 49 48 = 3 then imgWord hd 56 else 0#64 }
                      endLoad p .ok (writePlace l.rd h 0 bytes
                        { t with lrn := { t.lrn with libs := tabIns (64 * p + i) lib t.lrn.libs } })
    | none, _ => endLoad p .mtAddrInvalid s
    | _, .error st => endLoad p st (noteRead ⟨l.rd, l.region, 0⟩ 64 s)

/-! ## The commands -/

/-- PUBLISH (R240). -/
def execPublish (cl : Nat) (s : State) : Host.Outcome State Fault Refusal := running s (exec9 cl 6 (doPublish cl))

/-- CT_PUBLISH_START (R240). -/
def execCtPublishStart (n : Nat) (s : State) : Host.Outcome State Fault Refusal := running s (publishStart n)

/-- CT_CAPTURE (R241). -/
def execCtCapture (n i : Nat) (s : State) : Host.Outcome State Fault Refusal := running s (capture n i)

/-- CT_ENTRY_RECEIVE (R246). -/
def execCtEntryReceive (n i : Nat) (ok : Bool) (s : State) : Host.Outcome State Fault Refusal := running s (entryReceive n i ok)

/-- CT_SWITCH_ARM (R249). -/
def execCtSwitchArm (n : Nat) (s : State) : Host.Outcome State Fault Refusal := running s (switchArm n)

/-- CT_SWITCH_BROADCAST (R250). -/
def execCtSwitchBroadcast (n t : Nat) (s : State) : Host.Outcome State Fault Refusal := running s (switchBroadcast n t)

/-- CT_PUBLISH_TIMEOUT (R248). -/
def execCtPublishTimeout (n : Nat) (s : State) : Host.Outcome State Fault Refusal := running s (publishTimeout n)

/-- CONTRAIL_MSG (R245). -/
def execContrailMsg (j i : Nat) (data : List Byte) (crc : W32) (s : State) : Host.Outcome State Fault Refusal :=
  running s (contrailIn j i data crc)

end Sys2Proof.Machine
end

