-- ==== Sys2Proof/Machine/Learn.lean ====
section
/-!
DEFINITION. Learning (R271 to R292): the Stratus stack, and the experience rings with teacher scores and rewards.
-/

namespace Sys2Proof.Machine

/-! ## Stratus cards (R273) -/

/-- LINE. -/
def stLine (c : Card) : Nat := fld c.w2 15 0

/-- LINES. -/
def stLines (c : Card) : Nat := fld c.w2 31 16

/-- SLOT. -/
def stSlot (c : Card) : Nat := fld c.w2 37 32

/-- NEW of ST_PUSH; LAST of ST_POP; RELEASE of ST_READ. -/
def stFlag (c : Card) : Bool := flag c.w2 38

/-- PIN. -/
def stPin (c : Card) : Bool := flag c.w2 39

/-- MB_START. -/
def stStart (c : Card) : Bool := flag c.w2 40

/-- KIND. -/
def stKind (c : Card) : Nat := fld c.w2 44 41

/-- LAYER and TAG. -/
def stIdent (c : Card) : Nat × Nat := (fld c.w3 15 0, fld c.w3 31 16)

/-- OFFSET of ST_POP and ST_READ. -/
def stOffset (c : Card) : Nat := fld c.w3 63 32

/-- Check of a Stratus card at post: its pool range; the rest is the Stratus engine's (R275). -/
def stratusCheck (c : Card) : Chk := if stLines c = 0 then none else poolRange (stLine c) (stLines c)

/-- Frames of a stack, lowest first (R272). -/
def stackOf (s : State) (cl slot : Nat) : List FrameEnt := tabGet [] s.lrn.stratus (64 * cl + slot)

/-- Lines below a stack's top. -/
def stackTopLine : List FrameEnt → Nat
  | [] => 0
  | [f] => f.baseLine + f.lines
  | _ :: t => stackTopLine t

/-- Stacks of a die. -/
def dieStacks (s : State) (die : Nat) : List (List FrameEnt) :=
  (s.lrn.stratus.filter fun e => decide (e.1 / 64 / 32 = die)).map (·.2)

/-- FRAMES of MT_STRATUS[d]. -/
def dieFrames (s : State) (die : Nat) : Nat := ((dieStacks s die).map (·.length)).sum

/-- BYTES of MT_STRATUS[d]. -/
def dieStackBytes (s : State) (die : Nat) : Nat := ((dieStacks s die).map fun f => 64 * stackTopLine f).sum

/-- Puts a stack, and raises the die's peaks (R293). -/
def setStack (cl slot : Nat) (f : List FrameEnt) (s : State) : State :=
  let s1 := { s with lrn := { s.lrn with stratus := tabSet [] s.lrn.stratus (64 * cl + slot) f } }
  let d := clDie cl
  let p := tabGet (0, 0) s1.lrn.stratusPeak d
  let peak := tabIns d (max p.1 (dieFrames s1 d), max p.2 (dieStackBytes s1 d)) s1.lrn.stratusPeak
  { s1 with lrn := { s1.lrn with stratusPeak := peak } }

/-- Whether the top frame is to be removed (R274). -/
def topGone (l : List FrameEnt) : Bool := match l.getLast? with
  | some f => f.popped && !f.pin
  | none => false

/-- Removes the top frame while it is POPPED and not pinned (R274). -/
def trimStack : Nat → List FrameEnt → List FrameEnt
  | 0, l => l
  | k + 1, l => if topGone l then trimStack k l.dropLast else l

/-- Place of the last element that satisfies a condition. -/
def lastIdx {α : Type} (p : α → Bool) (l : List α) : Option Nat :=
  (l.reverse.findIdx? p).map fun i => l.length - 1 - i

/-- What a Stratus card comes to: a status, or the stack's new frames and the first line of the stack that moves. -/
inductive StOut where
  | fail (st : Status)
  | done (frames : List FrameEnt) (line : Nat)

/-- R275's first check. -/
def stFields (c : Card) (mb : Nat) : Bool :=
  decide (mb ≤ stSlot c) || decide (4096 < stLines c)
    || (if c.opcode = 7 then decide (stLines c = 0) || decide (6 ≤ stKind c) || (!stFlag c && (stPin c || stStart c))
        else decide (stLines c = 0) && !stFlag c)

/-- ST_PUSH with NEW = 1 (R274, R275). -/
def pushNew (c : Card) (fs : List FrameEnt) (bytes frames : Nat) : StOut :=
  let top := stackTopLine fs
  if stStart c ∧ fs ≠ [] then .fail .stratusNotEmpty
  else if bytes < 64 * (top + stLines c) then .fail .stratusOverflow
  else if frames ≤ fs.length then .fail .stratusDirFull
  else .done (fs ++ [⟨(stIdent c).1, (stIdent c).2, stKind c, false, stPin c, top, stLines c⟩]) top

/-- ST_PUSH with NEW = 0. -/
def pushMore (c : Card) (fs : List FrameEnt) (bytes : Nat) : StOut :=
  match fs.getLast? with
  | none => .fail .stratusOrder
  | some f =>
    if f.popped ∨ (f.layer, f.tag) ≠ stIdent c then .fail .stratusOrder
    else if bytes < 64 * (stackTopLine fs + stLines c) ∨ 2 ^ 24 ≤ f.lines + stLines c then .fail .stratusOverflow
    else .done (fs.dropLast ++ [{ f with lines := f.lines + stLines c }]) (stackTopLine fs)

/-- ST_POP. -/
def popFrame (c : Card) (fs : List FrameEnt) : StOut :=
  match lastIdx (fun f : FrameEnt => !f.popped) fs with
  | none => .fail .stratusUnderflow
  | some i => match fs[i]? with
    | none => .fail .stratusUnderflow
    | some f =>
      if (f.layer, f.tag) ≠ stIdent c then .fail .stratusOrder
      else if f.lines < stOffset c + stLines c then .fail .stratusRange
      else
        let fs' := if stFlag c then fs.set i { f with popped := true } else fs
        .done (trimStack fs'.length fs') (f.baseLine + stOffset c)

/-- ST_READ. -/
def readFrame (c : Card) (fs : List FrameEnt) : StOut :=
  match lastIdx (fun f : FrameEnt => f.pin && decide ((f.layer, f.tag) = stIdent c)) fs with
  | none => .fail .stratusNoFrame
  | some i => match fs[i]? with
    | none => .fail .stratusNoFrame
    | some f =>
      if f.lines < stOffset c + stLines c then .fail .stratusRange
      else
        let fs' := if stFlag c then fs.set i { f with pin := false } else fs
        .done (trimStack fs'.length fs') (f.baseLine + stOffset c)

/-- What a Stratus card does to its stack, or the failure of R275 that it meets: `room` bytes and `frames` entries are the
stack's. -/
def stackOut (c : Card) (fs : List FrameEnt) (room frames : Nat) : StOut := match c.opcode with
  | 7 => if stFlag c then pushNew c fs room frames else pushMore c fs room
  | 8 => popFrame c fs
  | _ => readFrame c fs

/-- A Stratus card at the engine (R274 to R277): a failure moves nothing, ends the card, and the job falls alone. -/
def doStratus (cl : Nat) (up : MemUpset) (q : QCard) (s : State) : State :=
  let c := q.card
  let fail := fun (st : Status) => faultJob c.job st (putTier cl (tierRun q st [] s) s)
  match learnOf s c.job with
  | none => fail .cardFieldInvalid
  | some l =>
    match l.stratus.find? fun x => decide (x.1 = clDie cl) with
    | none => fail .cardFieldInvalid
    | some (die, h, bytes, frames) =>
      if stFields c l.mbInflight then fail .cardFieldInvalid
      else
        let rd := homeRd die
        let fs := stackOf s cl (stSlot c)
        let base := (l.mbInflight * (cl % 32) + stSlot c) * bytes
        let room := min bytes (((regionOf s rd h).map Region.len).getD 0 - base)
        match stackOut c fs room frames, regionOf s rd h with
        | .fail st, _ => fail st
        | .done _ _, none => fail .mtAddrInvalid
        | .done fs' line, some e =>
          let off := base + 64 * line
          let s1 := setStack cl (stSlot c) fs' s
          if stLines c = 0 then putTier cl (tierRun q .ok [] s1) s1
          else if c.opcode = 7 ∧ (poolStop up (stLines c)).isSome then putTier cl (tierRun q .poolUncorrectable [] s) s
          else if anyFailed s (regionChans rd e off (stLines c)) then putTier cl (tierRun q .mtChannelFailed [] s) s
          else
            let (run, s2) := if c.opcode = 7 then
                writeLines q rd e h off (memBytes s.mem (poolKey cl (64 * stLine c)) (64 * stLines c)) false up s1
              else readLines cl q rd e off (stLine c) (stLines c) up s1
            putTier cl run s2

/-- Length of a Stratus card at its place in the list. -/
def stLength (s : State) (cl : Nat) : Nat := match (getCl s cl).exec9 with
  | some q => 8 + stLines q.card
  | none => 8

/-! ## Experience rings (R286 to R292) -/

/-- A ring in use. -/
def getRing (s : State) (k : Nat) : Option ExpRing := tabFind k s.lrn.rings

/-- Byte of a ring's record `i`. -/
def expOffset (r : ExpRing) (i : Nat) : Nat := 64 + 64 * (i % 2 ^ r.log2)

/-- Writes bytes of a ring, in its region and its mirror (R286). -/
def expWrite (r : ExpRing) (off : Nat) (bs : List Byte) (s : State) : State :=
  let s1 := writePlace r.rd r.region off bs s
  match r.mirror with
  | some (rd, h) => writePlace rd h off bs s1
  | none => s1

/-- Appends a record to a ring; the header follows once for the commit point (R288). One of a ring on another package leaves
(log 26). -/
def expPut (k : Nat) (rec8 : Card) (kind req epoch : Nat) (s : State) : State :=
  match getRing s k with
  | none => if k < 256 then s else emit (.expRecord ((k - 256) / 64) ((k - 256) % 64) rec8) s
  | some r =>
    modRing k (fun x => { x with write := next64 x.write, recs := x.recs ++ [(kind, req, epoch, s.tk.tick, false, false)] })
      (expWrite r (expOffset r r.write) (w64Bytes (cardWords rec8)) s)

/-- Writes a ring's header: WRITE_INDEX and CONSUME_INDEX (R286). -/
def expHeader (k : Nat) (s : State) : State :=
  match getRing s k with
  | some r => expWrite r 0 (w64Bytes [BitVec.ofNat 64 r.write, BitVec.ofNat 64 r.consume]) s
  | none => s

/-- The PROMPT records of a request (R287, R288), with its tokens. -/
def promptRecs (req : Nat) : Nat → Nat → List Nat → List Card
  | 0, _, _ => []
  | n + 1, pos, toks =>
    let here := toks.take 14
    if here = [] then []
    else
      let w := fun p => BitVec.ofNat 64 (here.getD (2 * p) 0 + here.getD (2 * p + 1) 0 * 2 ^ 32)
      ⟨BitVec.ofNat 64 (req + pos * 2 ^ 34 + here.length * 2 ^ 52), w 0, w 1, w 2, w 3, w 4, w 5, w 6⟩
        :: promptRecs req n (pos + 14) (toks.drop 14)

/-- The TOKEN record of an experience ring (R287). -/
def expTokenRec (r : Req) (t : TokRes) (position tick : Nat) (late : Bool) : Card :=
  let b := fun (x : Bool) (n : Nat) => if x then 2 ^ n else 0
  ⟨BitVec.ofNat 64 (r.id + 2 ^ 32 + position * 2 ^ 34),
   BitVec.ofNat 64 (t.token + r.stepEpoch % 2 ^ 16 * 2 ^ 18 + b t.trunc 34 + b t.greedy 35 + b late 36),
   BitVec.ofNat 64 (t.lpFull.toNat + t.lpSampled.toNat * 2 ^ 32), 0#64, BitVec.ofNat 64 tick, 0#64, 0#64, 0#64⟩

/-- An empty TOPK record: COUNT entries of the token's TOPK (R287, R288). -/
def topkRec (req position count : Nat) : Card :=
  ⟨BitVec.ofNat 64 (req + 2 * 2 ^ 32 + position * 2 ^ 34 + count * 2 ^ 52), 0#64, 0#64, 0#64, 0#64, 0#64, 0#64, 0#64⟩

/-- The records of one token of a slot (R288): PROMPTs with the first token, TOKEN, and its TOPKs. Prompt tokens that cannot be
read any more are free values (log 99). -/
def expToken (k : Nat) (r : Req) (t : TokRes) (position : Nat) (late : Bool) (s : State) : State :=
  let topk := jobTopk s r.job
  let ep := r.stepEpoch
  let prompts := if r.tokens = 0 then match promptTokens s r.card 0 (rqLen r.card) with
      | .ok toks => promptRecs r.id (promptRecords r.card) 0 toks
      | .error _ => promptRecs r.id (promptRecords r.card) 0
          ((List.range (rqLen r.card)).map fun i => (Config.freeValue (s.free + i)).toNat % 2 ^ 32)
    else []
  let s0 := { s with free := s.free + (if r.tokens = 0 then rqLen r.card else 0) }
  let s1 := forEach prompts (fun p u => expPut k p 0 r.id ep u) s0
  let s2 := expPut k (expTokenRec r t position s.tk.tick late) 1 r.id ep s1
  forEach (List.range ((topk + 6) / 7)) (fun i u => expPut k (topkRec r.id position (min 7 (topk - 7 * i))) 2 r.id ep u) s2

/-- Writes END records to their rings. -/
def expEndsOut (l : List (Nat × Nat × Card)) (s : State) : State :=
  forEach l (fun e t => expPut e.1 e.2.2 3 (fld e.2.2.w0 31 0) e.2.1 t) s

/-- Whether a record is READY (R291): kind, timeout and fill, with the readiness of the token before it. -/
def expReady (l : LearnSt) (x : Nat × Nat × Nat × Nat × Bool × Bool) (before : Bool) : Bool :=
  match x.1 with
  | 0 => true
  | 1 => !l.needTeach || x.2.2.2.2.1 || x.2.2.2.2.2
  | 2 => before
  | _ => !l.needReward || x.2.2.2.2.1 || x.2.2.2.2.2

/-- Number of records READY from the first on. -/
def readyCount (l : LearnSt) : Bool → List (Nat × Nat × Nat × Nat × Bool × Bool) → Nat
  | _, [] => 0
  | b, x :: t =>
    let now := expReady l x b
    if now then 1 + readyCount l (if x.1 = 1 then now else b) t else 0

/-- READY_INDEX of a ring. -/
def readyIndex (s : State) (r : ExpRing) : Nat := match learnOf s r.job with
  | some l => (r.consume + readyCount l true r.recs) % 2 ^ 64
  | none => r.consume

/-- Changes the `i`-th unconsumed record's flags. -/
def modRec (k i : Nat) (timeout fill : Bool) (s : State) : State :=
  modRing k (fun r => { r with recs := r.recs.modify i fun x =>
    (x.1, x.2.1, x.2.2.1, x.2.2.2.1, x.2.2.2.2.1 || timeout, x.2.2.2.2.2 || fill) }) s

/-! ### TEACH_DONE (R289) -/

/-- Bytes of an entry of TEACH_DONE. -/
def teachBytes (topk : Nat) : Nat := 16 + 8 * topk

/-- COUNT of a TEACH_DONE. -/
def teachCount (c : Card) : Nat := fld c.w2 23 8

/-- LINE of a TEACH_DONE or EXP_TAKE. -/
def expLine (c : Card) : Nat := fld c.w2 47 32

/-- Lines of the entries. -/
def teachLines (s : State) (c : Card) : Nat := (teachCount c * teachBytes (jobTopk s c.job) + 63) / 64

/-- Checks of a TEACH_DONE card at post. -/
def teachCheck (s : State) (c : Card) : Chk :=
  firstBad [poolRange (expLine c) (max 1 (teachLines s c)), badField (decide (teachCount c = 0) || decide (4096 < teachCount c)) 2 8,
    tooLong (8 + teachLines s c)]

/-- Applies one entry: `none` when its INDEX names no record that can be filled. -/
def teachEntry (k topk key : Nat) (s : State) : Option State :=
  match getRing s k with
  | none => none
  | some r =>
    let idx := memNat s.mem key 8
    let i := ago64 idx r.consume
    match r.recs[i]? with
    | none => none
    | some x =>
      if x.1 ≠ 1 ∨ x.2.2.2.2.1 ∨ x.2.2.2.2.2 then none
      else
        let o := expOffset r idx
        let w1 := (regionOf s r.rd r.region).map fun e => regionWord s r.rd e (o + 8)
        let s1 := expWrite r (o + 8) (leBytes 8 ((w1.getD 0#64 ||| 0x2000000000#64).toNat)) s
        let s2 := expWrite r (o + 24) (leBytes 4 (memNat s.mem (key + 8) 4) ++ [0#8, 0#8, 0#8, 0#8]) s1
        let s3 := forEach (List.range topk) (fun n t =>
          expWrite r (expOffset r (idx + 1 + n / 7) + 8 + 8 * (n % 7)) (memBytes s.mem (key + 16 + 8 * n) 8) t) s2
        some (modRec k i false true s3)

/-- Applies entries in order until one fails. -/
def teachEntries (k topk : Nat) : Nat → Nat → State → Status × State
  | 0, _, s => (.ok, s)
  | n + 1, key, s => match teachEntry k topk key s with
    | none => (.expRecordMismatch, s)
    | some t => teachEntries k topk n (key + teachBytes topk) t

/-- TEACH_DONE at its place in the list (R289). -/
def doTeach (cl : Nat) (poolBad : Bool) (q : QCard) (s : State) : State :=
  let k := fld q.card.w2 7 0
  let t := 8 + teachLines s q.card
  match getRing s k with
  | some r =>
    if r.job ≠ q.card.job then retire9 cl q .expRingInvalid t s
    else if poolBad then retire9 cl q .poolUncorrectable t s
    else
      let (st, s1) := teachEntries k (jobTopk s r.job) (teachCount q.card) (poolKey cl (64 * expLine q.card)) s
      retire9 cl q st t s1
  | none => retire9 cl q .expRingInvalid t s

/-! ### EXP_TAKE (R292) -/

/-- MAX of an EXP_TAKE. -/
def takeMax (c : Card) : Nat := fld c.w2 23 8

/-- Records that an EXP_TAKE scans. -/
def takeCount (s : State) (c : Card) : Nat := match getRing s (fld c.w2 7 0) with
  | some r => min (takeMax c) (ago64 (readyIndex s r) r.consume)
  | none => 0

/-- Checks of an EXP_TAKE card at post: its pool lines hold the header and MAX records. -/
def takeCheck (c : Card) : Chk :=
  firstBad [poolRange (expLine c) (1 + takeMax c), badField (decide (takeMax c = 0) || decide (4095 < takeMax c)) 2 8]

/-- tag_age(active, tag) ≥ 32,768 (R231). -/
def staleTag (active tag : Nat) : Bool := decide (32768 ≤ (active % 65536 + 65536 - tag % 65536) % 65536)

/-- Which of the scanned records are omitted: stale TOKEN records and their TOPK records (R292); `b` for the TOKEN consumed
last. -/
def takeStale (active : Option Nat) : Bool → List (Nat × Nat × Nat × Nat × Bool × Bool) → List Bool
  | _, [] => []
  | b, x :: t =>
    let now := match x.1 with
      | 1 => match active with
        | some a => staleTag a x.2.2.1
        | none => false
      | 2 => b
      | _ => false
    now :: takeStale active (if x.1 = 1 then now else b) t

/-- Whether the last TOKEN among the scanned records, or the one consumed before them, is stale. -/
def takeLast (active : Option Nat) (b : Bool) (l : List (Nat × Nat × Nat × Nat × Bool × Bool)) : Bool :=
  match (l.filter fun x => decide (x.1 = 1)).getLast? with
  | some x => (takeStale active b [x]).headD b
  | none => b

/-- Records among the first `n` of a ring that an EXP_TAKE copies: those that are not stale (R292). -/
def keptRecs (s : State) (r : ExpRing) (n : Nat) : List Nat :=
  let gone := takeStale ((jobCtx s r.job).map (·.epochActive)) r.lastStale (r.recs.take n)
  (List.range n).filter fun i => !gone.getD i false

/-- The place of a ring's record, counted from CONSUME_INDEX. -/
def recPlace (r : ExpRing) (i : Nat) : Place := ⟨r.rd, r.region, expOffset r (r.consume + i)⟩

/-- The header line of an EXP_TAKE that scans `n` records and omits `omitted` (R292). -/
def takeHead (r : ExpRing) (n omitted : Nat) : List Byte :=
  let st := if omitted = 0 then Status.ok else .ctRecordStale
  w64Bytes [BitVec.ofNat 64 (n - omitted + omitted * 2 ^ 16 + (statusCode st).toNat * 2 ^ 32), BitVec.ofNat 64 r.consume] ++
    List.replicate 48 0#8

/-- The ring after an EXP_TAKE of `n` records. -/
def ExpRing.take (s : State) (r : ExpRing) (n : Nat) : ExpRing :=
  { r with consume := (r.consume + n) % 2 ^ 64, recs := r.recs.drop n,
           lastStale := takeLast ((jobCtx s r.job).map (·.epochActive)) r.lastStale (r.recs.take n) }

/-- EXP_TAKE at its place in the list (R292); a record that near memory does not give ends the card (R179). -/
def doTake (cl : Nat) (q : QCard) (s : State) : State :=
  let c := q.card
  let k := fld c.w2 7 0
  let n := takeCount s c
  match getRing s k with
  | none => retire9 cl q .expRingInvalid 16 s
  | some r =>
    if r.job ≠ c.job then retire9 cl q .expRingInvalid 16 s
    else if r.consumer ≠ cl then retire9 cl q .expNotConsumer 16 s
    else
      let kept := keptRecs s r n
      let omitted := n - kept.length
      let reads := kept.map fun i => (readPlace s (recPlace r i) 64, i)
      let failed := reads.findSome? fun x => match x.1 with
        | .error e => some (e, x.2)
        | .ok _ => none
      match failed with
      | some (e, i) => retire9 cl q e (16 + n) (noteRead (recPlace r i) 64 s)
      | none =>
      let bytes := reads.flatMap fun x => match x.1 with
        | .ok bs => bs
        | .error _ => []
      let s1 := putMem (bytesAt (poolKey cl (64 * expLine c)) (takeHead r n omitted ++ bytes)) s
      let s3 := expHeader k (modRing k (fun x => ExpRing.take s x n) (bumpBy .ctExpStale r.part omitted s1))
      retire9 cl q .ok (16 + n) s3

/-! ### Annotations and timeouts (R290, R291) -/

/-- An annotation arrives at its partition's FIFO; without a credit the post is refused with NO_CREDIT
(R40, R290). -/
def annotate (p : Nat) (w0 w1 w2 w3 : W64) (s : State) : State :=
  if (getPart s p).annotCredits ≠ 0 then
    modPart p (fun x => { x with annots := x.annots ++ [(w0, w1, w2, w3)], annotCredits := x.annotCredits - 1 }) s
  else emit (.postRefused .noCredit 2 p) s

/-- Latches one annotation (R290). One with a reserved bit set is discarded like any other that does not apply. -/
def latchAnnot (p : Nat) (a : W64 × W64 × W64 × W64) (s : State) : State :=
  let k := fld a.1 7 0
  let req := fld a.1 63 32
  let rej := fun (valid : Bool) (t : State) =>
    let t1 := bump .ctExpAnnotRej p t
    if valid then modRing k (fun r => { r with lastStatus := .expAnnotateInvalid }) t1 else t1
  match getRing s k with
  | none => rej false s
  | some r =>
    if r.part ≠ p then rej false s
    else if fld a.1 31 8 ≠ 0 ∨ fld a.2.1 63 32 ≠ 0 ∨ a.2.2.1 ≠ 0#64 ∨ a.2.2.2 ≠ 0#64 then rej true s
    else
      let v : W32 := a.2.1.truncate 32
      match r.recs.findIdx? fun x => decide (x.1 = 3) && decide (x.2.1 = req) && !x.2.2.2.2.1 && !x.2.2.2.2.2 with
      | none => rej true s
      | some i =>
        if !fFin v then rej true s
        else
          let o := expOffset r (r.consume + i)
          let w1 := (regionOf s r.rd r.region).map fun e => regionWord s r.rd e (o + 8)
          modRec k i false true (expWrite r (o + 24) (leBytes 4 v.toNat)
            (expWrite r (o + 8) (leBytes 8 ((w1.getD 0#64 ||| 0x100000#64).toNat)) s))

/-- Annotations are latched at the intake edge (R290). -/
def latchAnnots (s : State) : State :=
  forEach (List.range 16) (fun p t =>
    forEach (getPart t p).annots (fun a u => latchAnnot p a u) 
      (modPart p (fun x => { x with annots := [], annotCredits := x.annotCredits + x.annots.length }) t)) s

/-- TEACH_TIMEOUT and REWARD_TIMEOUT (R291): at the boundary a record that has waited its limit becomes READY. -/
def expTimeout (kind k idx : Nat) (s : State) : State :=
  match getRing s k with
  | none => s
  | some r =>
    match r.recs[ago64 idx r.consume]?, learnOf s r.job with
    | some x, some l =>
      let need := if kind = 1 then l.needTeach else l.needReward
      let limit := if kind = 1 then l.teachTimeout else l.rewardTimeout
      if s.tk.phase ≠ .boundary ∨ x.1 ≠ kind ∨ !need ∨ x.2.2.2.2.1 ∨ x.2.2.2.2.2 ∨ s.tk.tick < x.2.2.2.1 + limit
      then s
      else bump (if kind = 1 then .ctExpNoteach else .ctExpNoreward) r.part (modRec k (ago64 idx r.consume) true false s)
    | _, _ => s

/-! ## The commands -/

/-- A Stratus card at its place in the list: while a block of the directory is not yet copied, or one of the region that a
ST_PUSH would write, it waits (R347). -/
def runStratus (cl op : Nat) (up : MemUpset) (s : State) : State :=
  let wait : Option State := match ready9 s cl op with
    | none => none
    | some q =>
      let want : BlockSrc → Bool := fun b => match b with
        | .dir _ => true
        | .stratus _ _ _ => decide (op = 7)
        | _ => false
      stallOn q.card.job (clDie cl) want s
  match wait with
  | some t => t
  | none => execTier cl op (stLength s cl) (doStratus cl up) s

/-- ST_PUSH (R274). -/
def execStPush (cl : Nat) (up : MemUpset) (s : State) : Host.Outcome State Fault Refusal := running s (runStratus cl 7 up)

/-- ST_POP (R274). -/
def execStPop (a : StackCard) (s : State) : Host.Outcome State Fault Refusal := running s (runStratus a.cl 8 a.up)

/-- ST_READ (R274). -/
def execStRead (a : StackCard) (s : State) : Host.Outcome State Fault Refusal := running s (runStratus a.cl 9 a.up)

/-- TEACH_DONE (R289). -/
def execTeachDone (cl : Nat) (poolBad : Bool) (s : State) : Host.Outcome State Fault Refusal :=
  running s (exec9 cl 10 (doTeach cl poolBad))

/-- EXP_TAKE (R292). -/
def execExpTake (cl : Nat) (s : State) : Host.Outcome State Fault Refusal := running s (exec9 cl 11 (doTake cl))

/-- EXP_ANNOTATE (R290). -/
def execExpAnnotate (p : Nat) (w0 w1 w2 w3 : W64) (s : State) : Host.Outcome State Fault Refusal :=
  running s (annotate p w0 w1 w2 w3)

/-- TEACH_TIMEOUT (R291). -/
def execTeachTimeout (k i : Nat) (s : State) : Host.Outcome State Fault Refusal := running s (expTimeout 1 k i)

/-- REWARD_TIMEOUT (R291). -/
def execRewardTimeout (k i : Nat) (s : State) : Host.Outcome State Fault Refusal := running s (expTimeout 3 k i)

end Sys2Proof.Machine
end

