-- ==== Sys2Proof/Machine/Update.lean ====
section
/-!
DEFINITION. The parameter update (R296 to R313): lane-store access, the schedule table, the step advance and the global
norm.
-/

namespace Sys2Proof.Machine

/-! ## LS_GET and LS_PUT (R301, R302) -/

/-- LINE. -/
def lsLine (c : Card) : Nat := fld c.w2 15 0

/-- LINES. -/
def lsLines (c : Card) : Nat := fld c.w2 31 16

/-- UNIT. -/
def lsUnit (c : Card) : Nat := fld c.w2 35 32

/-- OFF. -/
def lsOff (c : Card) : Nat := fld c.w2 54 36

/-- Whether a card is an LS_GET or LS_PUT. -/
def isLs (c : Card) : Bool := decide (c.engine = 9) && (decide (c.opcode = 12) || decide (c.opcode = 13))

/-- Checks of an LS card (R301, R302): it ends with UPD_LS_RANGE. -/
def lsCheck (s : State) (cl : Nat) (c : Card) : Chk :=
  let n := lsLines c
  let learn := match (getCl s cl).owner with
    | some (1, _, _) => true
    | _ => false
  firstBad [
    poolRange (lsLine c) n,
    bad (!learn || decide (enabledCount s cl ≤ lsUnit c) || decide (n < 64) || decide (4096 < n) || decide (n % 64 ≠ 0)
      || decide (lsOff c % 64 ≠ 0) || decide (65536 < lsOff c + n)) .updLsRange]

/-- Length of an LS card (R302). -/
def lsLength (c : Card) : Nat := if c.opcode = 12 then 8 + lsLines c / 2 else 16 + 5 * lsLines c / 8

/-- Key of the first byte of pool line `n` of an LS card in the lane stores of unit `k`: lane n mod 64 (R301). -/
def lsKey (s : State) (k : Nat) (c : Card) (n : Nat) : Nat :=
  laneKey k (physLane (getUnit s k) (n % 64)) (lsOff c + 64 * (n / 64))

/-- What LS_GET writes: the lanes' lines into the pool. -/
def lsGetWrites (s : State) (cl k : Nat) (c : Card) : List (Nat × Byte) :=
  (List.range (lsLines c)).flatMap fun n =>
    bytesAt (poolKey cl (64 * (lsLine c + n))) (memBytes s.mem (lsKey s k c n) 64)

/-- The weight that an LS_PUT puts into logical lane `l` at its `i`-th position, widened to FP32. -/
def lsWeight (s : State) (cl : Nat) (c : Card) (l i : Nat) : W32 :=
  widen 5 (memNat s.mem (poolKey cl (64 * (lsLine c + 64 * (i / 32) + l) + 2 * (i % 32))) 2)

/-- What LS_PUT writes: the pool's lines into the lanes, and ŝ_k of every k written into lane 64 (R79, R302). -/
def lsPutWrites (s : State) (cl k : Nat) (c : Card) : List (Nat × Byte) :=
  ((List.range (lsLines c)).flatMap fun n =>
      bytesAt (lsKey s k c n) (memBytes s.mem (poolKey cl (64 * (lsLine c + n))) 64))
    ++ (List.range (lsLines c / 2)).flatMap fun i =>
      bytesAt (laneKey k 64 (4 * (lsOff c / 2 + i)))
        (leBytes 4 (canonSum ((List.range 64).map fun l => lsWeight s cl c l i)).toNat)

/-- Blocks of an Afterglow slot that an LS_PUT writes: the unit's lanes, and its lines of lane 64 (R347). -/
def lsBlocks (cl : Nat) (c : Card) : BlockSrc → Bool
  | .lane x u _ => decide (x = cl) && decide (u = lsUnit c)
  | .sums x u i => decide (x = cl) && decide (u = lsUnit c) && decide (65536 * i < 2 * lsOff c + 2 * lsLines c)
      && decide (2 * lsOff c < 65536 * (i + 1))
  | _ => false

/-- Starts an LS card on its unit. -/
def startLs (cl u k host : Nat) (q : QCard) (up : Upset) (s : State) : State :=
  let t := lsLength q.card
  if !canPay s q.card.part (3072 * t) then markCapped cl s
  else
    let get := decide (q.card.opcode = 12)
    let ws := if get then lsGetWrites s cl k q.card else lsPutWrites s cl k q.card
    let st := if get && up.uncorrectable then Status.ckStoreUncorrectable else .ok
    putLaneRun cl u { runOf q with status := st, cycles := t, host := host, writes := ws }
      (bumpBy .ckEccCorr q.card.part (if get then up.corrected else 0)
        (pay q.card.part (3072 * t) (modCl cl (popQ u) s)))

/-- Issues the LS card of opcode `op` at the head of a unit's queue. One to a unit that is not refilled is rejected as a
lane-row card is (R95); LS_PUT waits for a Contrail capture of the unit (R241) and for blocks not yet copied (R347). A unit
under test waits; one to a SUSPECT or RETIRED unit runs on its neighbour, ahead of the neighbour's own cards (R87, R90). -/
def issueLs (op cl u : Nat) (up : Upset) (s : State) : State :=
  match (getQ (getCl s cl) u).cards, physOf s cl u with
  | q :: _, some k =>
    if !isLs q.card ∨ q.card.opcode ≠ op ∨ !engineIdle s cl u ∨ !waitsMet (getCl s cl) q then s
    else if q.card.epoch ≠ (getCl s cl).epoch then rejectHead cl u q .cardEpochMismatch s
    else
      let x := getUnit s k
      let go := fun (host : Nat) =>
        if !hostIdle s cl host then s
        else if op = 13 then
          (if x.fenced then s
           else match stallOn q.card.job (clDie cl) (lsBlocks cl q.card) s with
            | some t => t
            | none => startLs cl u k host q up s)
        else startLs cl u k host q up s
      if x.refill.isSome then s
      else match x.state with
        | .stale => rejectHead cl u q .staleEpoch s
        | .inTest => s
        | .available => if reliefWaits s cl k then s else go k
        | _ =>
          if x.marked then s
          else match neighbour s cl u with
            | some nb => go nb
            | none => rejectHead cl u q .ckNoRelief s
  | _, _ => s

/-- Retires an LS card: its writes become visible; an uncorrectable lane-store word ends it as R84 says, and an uncorrectable
pool word that LS_PUT reads ends it too (R102). LS_PUT makes the lane store differ from its source (R94). -/
def retireLs (cl u : Nat) (r : Run) (poolBad : Bool) (s : State) : State :=
  if r.status = .ckStoreUncorrectable then storeFault cl u r s
  else if poolBad && decide (r.card.opcode = 13) then endLane cl u r.unflagged .poolUncorrectable s
  else
    let s1 := putMem r.writes (modCl cl (fun c => creditQ u { c with runs := tabDel u c.runs }) s)
    let s2 := if r.card.opcode = 13 then modUnit (ownUnit s1 cl u) (fun x => { x with written := true, source := .changed, wfmt := 5 }) s1 else s1
    settle cl ⟨r.card, r.ord⟩ (r.report .ok u) s2

/-! ## The schedule table (R305, R306) -/

/-- R306 for one curve. -/
def atStep (pts : List (Nat × W32 × W32)) (t : Nat) (val : Nat × W32 × W32 → W32) : W32 :=
  match pts with
  | [] => 0#32
  | p0 :: _ =>
    let z := pts.getLast?.getD p0
    if t ≤ p0.1 then val p0
    else if z.1 ≤ t then val z
    else
      let i := (pts.filter fun p => decide (p.1 ≤ t)).length - 1
      let a := pts.getD i p0
      let b := pts.getD (i + 1) p0
      fFma (fSub (val b) (val a)) (fDiv (fOfNat (t - a.1)) (fOfNat (b.1 - a.1))) (val a)

/-- Re-evaluates LR_NOW and WD_NOW at the group's T. -/
def Group.eval (g : Group) : Group := { g with lr := atStep g.points g.t (·.2.1), wd := atStep g.points g.t (·.2.2) }

/-- The records of the groups, the first point of each given (R305). -/
def groupBytes : Nat → List Group → List Byte
  | _, [] => []
  | first, g :: t =>
    w64Bytes [BitVec.ofNat 64 (g.t % 2 ^ 32 + (if g.frozen then 2 ^ 32 else 0) + (if g.tMax then 2 ^ 33 else 0)),
        BitVec.ofNat 64 (g.lr.toNat + g.wd.toNat * 2 ^ 32), BitVec.ofNat 64 (first % 4096 + g.points.length * 2 ^ 12)]
      ++ List.replicate 40 0#8 ++ groupBytes (first + g.points.length) t

/-- The schedule table (R305). -/
def schedBytes (u : UpdSt) : List Byte :=
  w64Bytes [BitVec.ofNat 64 (u.groups.length + u.clip.toNat * 2 ^ 32)] ++ List.replicate 56 0#8 ++ groupBytes 0 u.groups
    ++ u.groups.flatMap fun g => g.points.flatMap fun p =>
      w64Bytes [BitVec.ofNat 64 (p.1 % 2 ^ 32), BitVec.ofNat 64 (p.2.1.toNat + p.2.2.toNat * 2 ^ 32)]

/-- Rewrites every copy of the schedule table of this package (R305). -/
def writeSched (j : Nat) (s : State) : State :=
  match updOf s j with
  | none => s
  | some u => forEach u.sched (fun d t => writePlace d.2.1 d.2.2 0 (schedBytes u) t) s

/-! ## The step advance (R307, R308) -/

/-- Clusters of this package that own update tiles of a job. -/
def localOwners (s : State) (j : Nat) : List Nat :=
  match getJob s j, updOf s j with
  | some x, some u => (u.owners.filter fun o => decide (o.2.2 / 2048 = x.rank)).foldl (fun l o => setIns (o.2.2 % 2048) l) []
  | _, _ => []

/-- Packages that own update tiles of a job. -/
def ownerPkgs (s : State) (j : Nat) : List Nat :=
  match getJob s j, updOf s j with
  | some x, some u => u.owners.foldl (fun l o => setIns (x.packages.getD (o.2.2 / 2048) 0) l) []
  | _, _ => []

/-- Every owner cluster of this package has retired UPD_DONE. -/
def localDone (s : State) (j : Nat) : Bool := (localOwners s j).all fun cl => (getCl s cl).updDone

/-- The lead holds a report; with every one it gives notice (R307). -/
def holdDone (j pkg : Nat) (s : State) : State :=
  let s1 := modUpd j (fun u => { u with doneFrom := setIns pkg u.doneFrom }) s
  match updOf s1 j with
  | none => s1
  | some u =>
    if u.notice.isNone && (ownerPkgs s1 j).all u.doneFrom.contains then
      castCtrl j (.updNotice j s1.tk.tick) (modUpd j (fun v => { v with notice := some s1.tk.tick }) s1)
    else s1

/-- This package's owners have all retired UPD_DONE: the lead counts it, a member reports it. -/
def reportDone (j : Nat) (s : State) : State :=
  if otherPkgs s j = [] then s
  else if leadPkg s j = s.wn.pkg then holdDone j s.wn.pkg s
  else sendCtrl (leadPkg s j) (.updReport j s.wn.pkg) s

/-- UPD_DONE at its place in the list (R307). -/
def doUpdDone (cl : Nat) (q : QCard) (s : State) : State :=
  if (getCl s cl).updDone then retire9 cl q .updDoneBusy 8 s
  else
    let s1 := modCl cl (fun c => { c with updDone := true }) (retire9 cl q .ok 8 s)
    let j := q.card.job
    if (localOwners s1 j).contains cl && localDone s1 j then reportDone j s1 else s1

/-- Whether the step advance of a job is applied at the boundary of the current tick (R307). -/
def advanceDue (s : State) (j : Nat) : Bool :=
  match getJob s j, updOf s j with
  | some x, some u =>
    x.ending.isNone && (if otherPkgs s j = [] then decide (localOwners s j ≠ []) && localDone s j
      else match u.notice with
        | some t => decide (t + 2 ≤ s.tk.tick)
        | none => false)
  | _, _ => false

/-- One step of a group; the largest T sticks (R308). -/
def Group.next (g : Group) : Group :=
  if g.frozen then g.eval
  else
    let t := min (2 ^ 32 - 1) (g.t + 1)
    ({ g with t := t, tMax := g.tMax || decide (t = 2 ^ 32 - 1) } : Group).eval

/-- Clusters of this package that a job owns. -/
def jobOwned (s : State) (j : Nat) : List Nat :=
  (s.clusters.filter fun e => match e.2.owner with
    | some (_, _, k) => decide (k = j)
    | none => false).map (·.1)

/-- Applies a step advance (R307): T of every group and its rates, the tables, J, and every UPD_DONE of the step is used up.
UPD_T_MAX is raised for each group whose T has come to its end (R308). -/
def applyAdvance (j : Nat) (s : State) : State :=
  match updOf s j with
  | none => s
  | some u =>
    let gs := u.groups.map Group.next
    let fresh := (u.groups.zip gs).filter fun g => !g.1.tMax && g.2.tMax
    let s1 := modJob j (fun x => { x with j := next64 x.j }) (modUpd j (fun v =>
      { v with groups := gs, partials := [], posters := [], normSent := false, doneFrom := [], notice := none }) s)
    let s2 := forEach (jobOwned s1 j) (fun cl t => modCl cl (fun c => { c with updDone := false }) t) (writeSched j s1)
    forEach fresh (fun _ t => raise .updTMax (jobPart j) j t) (bump .vxAdvances (jobPart j) s2)

/-- UPD_STEP_ADVANCE (R307): after the boundary's actions. -/
def stepAdvance (j : Nat) (s : State) : State :=
  if s.tk.phase ≠ .boundary ∨ !compUp s 7 ∨ !advanceDue s j then s else applyAdvance j s

/-- The lead's notice comes to a member: one that comes when its boundary interval has begun is too late (R307). -/
def noticeIn (j t : Nat) (s : State) : State :=
  if (updOf s j).isNone then s
  else if t + 2 < s.tk.tick ∨ (t + 2 = s.tk.tick ∧ s.tk.phase = .boundary) then faultJob j .updAdvanceLate s
  else modUpd j (fun u => { u with notice := some t }) s

/-! ## The global norm (R309 to R311) -/

/-- LINE of a NORM_POST. -/
def npLine (c : Card) : Nat := fld c.w2 15 0

/-- COUNT. -/
def npCount (c : Card) : Nat := fld c.w2 31 16

/-- RESULT. -/
def npResult (c : Card) : Nat := fld c.w2 47 32

/-- Checks of a NORM_POST card at post. -/
def normCheck (c : Card) : Chk :=
  firstBad [poolRange (npLine c) ((npCount c + 3) / 4), poolRange (npResult c) 1,
    badField (decide (npCount c = 0) || decide (4096 < npCount c)) 2 16]

/-- The partials that a NORM_POST card posts: tensor, chunk, P. -/
def npPartials (s : State) (cl : Nat) (c : Card) : List (Nat × Nat × W32) :=
  (List.range (npCount c)).map fun i =>
    let k := poolKey cl (64 * npLine c + 16 * i)
    let w := memW64 s.mem k
    (fld w 11 0, fld w 43 12, memW32 s.mem (k + 8))

/-- Whether a cluster owns a chunk of a tensor that counts in the norm, not yet posted (R310). -/
def leafOk (s : State) (j cl : Nat) (seen : List (Nat × Nat × W32)) (x : Nat × Nat × W32) : Bool :=
  match getJob s j, updOf s j with
  | some g, some u =>
    (u.owners.any fun o => decide (o.1 = x.1) && decide (o.2.1 / 32 = x.2.1) && decide (o.2.2 = 2048 * g.rank + cl))
      && (match tabFind x.1 u.tensors with
          | some (_, _, n) => n
          | none => false)
      && !(seen.any fun y => decide (y.1 = x.1) && decide (y.2.1 = x.2.1))
  | _, _ => false

/-- Whether every partial may be posted after those seen. -/
def leavesOk (s : State) (j cl : Nat) : List (Nat × Nat × W32) → List (Nat × Nat × W32) → Bool
  | _, [] => true
  | seen, x :: t => leafOk s j cl seen x && leavesOk s j cl (x :: seen) t

/-- Package rank of the root of a job's norm reduction: that of rank 0 of NORM_GROUP. -/
def normRootRank (s : State) (j : Nat) : Nat := match updOf s j with
  | some u => (((groupOf s j u.normGroup).bind fun g => g.members.head?).map (·.1)).getD 0
  | none => 0

/-- Whether the root of a job's norm reduction is on this package. -/
def normRootHere (s : State) (j : Nat) : Bool := hereRank s j (normRootRank s j)

/-- NORM_POST at its place in the list (R310): the partials join the reduction, and go to the package of its root. In a step
whose reduction has aborted the card ends at posting (R335). -/
def doNormPost (cl : Nat) (poolBad : Bool) (q : QCard) (s : State) : State :=
  let c := q.card
  let t := 8 + (npCount c + 3) / 4
  let ps := npPartials s cl c
  match getJob s c.job, updOf s c.job with
  | some x, some u =>
    if poolBad then retire9 cl q .poolUncorrectable t s
    else if !leavesOk s c.job cl u.partials ps then retire9 cl q .updNormLeaf t s
    else if (groupOf s c.job u.normGroup).any fun g => g.aborted.contains (normSeq x.j) then retire9 cl q .sqCollAborted t s
    else
      let s1 := modUpd c.job (fun v => { v with partials := v.partials ++ ps,
                                                posters := v.posters ++ [⟨cl, c.chain, q.ord.use, npResult c, s.tk.tick⟩] }) s
      retire9 cl q .ok t (if normRootHere s c.job then s1
        else sendRoot (rankPkg s c.job (normRootRank s c.job)) (headOf c.job u.normGroup (normSeq x.j % 2 ^ 32))
          (.normPart (rankPkg s c.job (normRootRank s c.job)) c.job ps) s1)
  | _, _ => retire9 cl q .updNormLeaf t s

/-- Norm chunks of a tensor. -/
def normChunks (t : Nat × Nat × Bool) : Nat := (t.1 / 32 * t.2.1 + 4095) / 4096

/-- S of R309 over the partials of every package; `none` while one is missing. -/
def globalNorm (tensors : Tab (Nat × Nat × Bool)) (ps : List (Nat × Nat × W32)) : Option W32 :=
  let ts := tensors.filter fun t => t.2.2.2
  let part := fun t c => (ps.find? fun p => decide (p.1 = t) && decide (p.2.1 = c)).map (·.2.2)
  let rows := ts.map fun t => (List.range (normChunks t.2)).map (part t.1)
  if rows.any (fun r => r.any Option.isNone) then none
  else some (canonSum (rows.map fun r => canonSum (r.map fun p => p.getD 0#32)))

/-- c of R311, with NONFINITE. -/
def clipFactor (clip s : W32) : W32 × Bool :=
  if fNan s then (nan32, true)
  else if fInf s then (0#32, true)
  else if clip.toNat % 2 ^ 31 = 0 ∨ s.toNat % 2 ^ 31 = 0 then (0x3F800000#32, false)
  else
    let r := fDiv clip (fSqrt s)
    (if fLt r 0x3F800000#32 then r else 0x3F800000#32, false)

/-- The norm record (R311). -/
def normLine (v c : W32) (bad : Bool) (tick : Nat) : List Byte :=
  w64Bytes [BitVec.ofNat 64 (v.toNat + c.toNat * 2 ^ 32), BitVec.ofNat 64 (if bad then 1 else 0), BitVec.ofNat 64 tick]
    ++ List.replicate 40 0#8

/-- The norm record lands at a poster, and the arrival count of its chain rises (R311). -/
def landNorm (line : List Byte) (p : Poster) (s : State) : State :=
  let s1 := putMem (bytesAt (poolKey p.cl (64 * p.line)) line) s
  if p.chain = 0 then s1 else chainArrive p.cl p.chain s1

/-- NORM_RESULT (R311): with every partial there, S and c are formed once in the step; they land at each poster here, and the
package of the root sends them to the other packages of the job. TK_TICK is the root's: this package's own where the root is
here, else `rootTick`. -/
def normResult (j : Nat) (remote : List (Nat × Nat × W32)) (rootTick : Nat) (s : State) : State :=
  match updOf s j with
  | none => s
  | some u =>
    match (if u.normSent ∨ (u.posters = [] ∧ !normRootHere s j) then none else globalNorm u.tensors (u.partials ++ remote)) with
    | none => s
    | some v =>
      let (c, bad) := clipFactor u.clip v
      let root := normRootHere s j
      let tick := if root then s.tk.tick else rootTick
      let s1 := forEach u.posters (landNorm (normLine v c bad tick))
        (modUpd j (fun x => { x with posters := [], normSent := true }) s)
      let s2 := forEach (if root then otherPkgs s j else [])
        (fun k t => sendRoot k (headOf j u.normGroup 0) (.normDone k j v c bad tick) t) s1
      if bad then bump .vxNormNonfinite (jobPart j) s2 else s2

/-! ## The commands -/

/-- LS_GET (R302). -/
def execLsGet (cl u : Nat) (up : Upset) (s : State) : Host.Outcome State Fault Refusal := running s (issueLs 12 cl u up)

/-- LS_PUT (R302). -/
def execLsPut (cl u : Nat) (s : State) : Host.Outcome State Fault Refusal :=
  running s (issueLs 13 cl u ⟨false, 0, []⟩)

/-- UPD_DONE (R307). -/
def execUpdDone (cl : Nat) (s : State) : Host.Outcome State Fault Refusal := running s (exec9 cl 15 (doUpdDone cl))

/-- UPD_STEP_ADVANCE (R307). -/
def execUpdStepAdvance (j : Nat) (s : State) : Host.Outcome State Fault Refusal := running s (stepAdvance j)

/-- NORM_POST (R310). -/
def execNormPost (cl : Nat) (poolBad : Bool) (s : State) : Host.Outcome State Fault Refusal :=
  running s (exec9 cl 14 (doNormPost cl poolBad))

/-- NORM_RESULT (R311). -/
def execNormResult (j : Nat) (remote : NormParts) (s : State) : Host.Outcome State Fault Refusal :=
  running s (normResult j remote.parts remote.rootTick)

end Sys2Proof.Machine
end

