-- ==== Sys2Proof/Machine/Squall.lean ====
section
/-!
DEFINITION. Squall (R326 to R339): tile transfers, collectives with their canonical trees, timeout and abort, poison, and
remote reads of this package's memory.
-/

namespace Sys2Proof.Machine

/-! ## The collective card (R328, R329) -/

/-- GROUP. -/
def clGroup (c : Card) : Nat := fld c.w2 11 0

/-- KIND. -/
def clKind (c : Card) : Nat := fld c.w2 14 12

/-- FMT. -/
def clFmt (c : Card) : Nat := fld c.w2 19 16

/-- OP. -/
def clOp (c : Card) : Nat := fld c.w2 21 20

/-- ROOT. -/
def clRoot (c : Card) : Nat := fld c.w2 39 24

/-- TIMEOUT. -/
def clTimeout (c : Card) : Nat := fld c.w2 55 40

/-- COUNT. -/
def clCount (c : Card) : Nat := fld c.w5 31 0

/-- SEQ. -/
def clSeq (c : Card) : Nat := fld c.w5 63 32

/-- DST_CAP. -/
def clCap (c : Card) : Nat := fld c.w6 31 0

/-- CNT_LINE. -/
def clCnt (c : Card) : Nat := fld c.w6 47 32

/-- SCNT_LINE. -/
def clScnt (c : Card) : Nat := fld c.w7 15 0

/-- Bytes of an element of a collective: FMT's width, 1 for BYTES. -/
def clSize (fmt : Nat) : Nat := if fmt = 15 then 1 else fmtWidth fmt / 8

/-- The kinds that combine values: ALL_REDUCE, REDUCE, REDUCE_SCATTER. -/
def reduces (kind : Nat) : Bool := decide (kind = 0) || decide (kind = 1) || decide (kind = 4)

/-- Where SRC or DST of a collective lies. -/
inductive CollPlace where
  | pool (off : Nat)
  | near (rd h off : Nat)

/-- Takes SRC or DST apart for `bytes` bytes (R159, R164, R328): the own pool's job area, or a near region. -/
def collPlace (s : State) (cl : Nat) (c : Card) (a : W64) (bytes : Nat) (acc : Acc) : Except Status CollPlace :=
  match fld a 63 61 with
  | 1 =>
    if fld a 60 33 ≠ 0 ∨ 56 ≤ fld a 32 27 then .error .mtAddrInvalid
    else if 32 * fld a 32 27 + 8 * fld a 26 25 + fld a 24 22 ≠ cl then .error .mtNotOwner
    else if fld a 21 0 < 64 * 4096 ∨ 4194304 < fld a 21 0 + bytes then .error .poolRangeInvalid
    else .ok (.pool (fld a 21 0))
  | _ => match tierAddr s (clDie cl) a with
    | some (.here rd h off) =>
      if fld a 63 61 ≠ 2 then .error .mtAddrInvalid
      else match access s c.part c.job c.cls cl rd h off bytes acc with
        | .ok _ => .ok (.near rd h off)
        | .error st => .error st
    | _ => .error .mtAddrInvalid

/-- Status of a place. -/
def placeBad (r : Except Status CollPlace) : Chk := match r with
  | .ok _ => none
  | .error st => some (st, 0, 0)

/-- Bytes that a member's SRC and DST hold for a card. -/
def collBytes (c : Card) (n rank : Nat) : Nat × Nat :=
  let b := clCount c * clSize (clFmt c)
  match clKind c with
  | 0 => (b, b)
  | 1 => (b, if rank = clRoot c then b else 0)
  | 2 => (if rank = clRoot c then b else 0, b)
  | 3 => (b, n * b)
  | 4 => (n * b, b)
  | 7 => (0, 0)
  | _ => (b, clCap c)

/-- The checks of R329, after those of R110's header. -/
def collCheck (s : State) (cl : Nat) (c : Card) : Chk :=
  match groupOf s c.job (clGroup c) with
  | none => some (.sqNotMember, 0, 0)
  | some g => match rankOf s c.job g cl with
    | none => some (.sqNotMember, 0, 0)
    | some r =>
      let n := g.members.length
      let k := clKind c
      let v := decide (k = 5) || decide (k = 6)
      let (sb, db) := collBytes c n r
      firstBad [
        badField (if reduces k then !([2, 3, 5, 6, 7].contains (clFmt c)) else decide (clFmt c ≠ 15)) 2 16,
        badField (decide (clOp c = 3) || (!reduces k && decide (clOp c ≠ 0))) 2 20,
        badField (if k = 1 ∨ k = 2 then decide (n ≤ clRoot c) else decide (clRoot c ≠ 0)) 2 24,
        badField (decide (clTimeout c = 0)) 2 40,
        bad (decide (clSeq c ≠ tabGet 0 g.seqs r)) .sqSeqInvalid,
        bad (if k = 7 then decide (clCount c ≠ 0)
          else decide (clCount c = 0) || decide (g.maxBytes < clCount c * clSize (clFmt c))) .sqSizeInvalid,
        (if v then poolRange (clCnt c) ((4 * n + 63) / 64) else none),
        (if k = 6 then poolRange (clScnt c) ((4 * n + 63) / 64) else none),
        placeBad (collPlace s cl c c.w3 sb .rd),
        placeBad (collPlace s cl c c.w4 db .wr)]

/-- A member's report (R330). -/
def collReport (s : State) (cl rank n : Nat) (c : Card) : CollReport :=
  { rank := rank, kind := clKind c, fmt := clFmt c, op := clOp c, root := clRoot c, count := clCount c,
    timeout := clTimeout c, seq := clSeq c,
    counts := if clKind c = 6 then (List.range n).map fun i => memNat s.mem (poolKey cl (64 * clScnt c + 4 * i)) 4
      else [clCount c],
    cap := clCap c }

/-- A collective as its first card here makes it. -/
def newColl (c : Card) : Coll :=
  { job := c.job, group := clGroup c, seq := clSeq c, kind := clKind c, fmt := clFmt c, op := clOp c, root := clRoot c,
    count := clCount c, timeout := clTimeout c, setUp := false, inNet := false, ctxRd := none,
    posted := [], retired := [], inputs := [], results := [], landed := [], sent := [], counts := [] }

/-- COLL at its place in the list (R328 to R330): the card goes to the Squall engine, and its report to the system root. A
collective that has aborted ends the card at posting (R335). -/
def doColl (cl : Nat) (q : QCard) (s : State) : State :=
  let c := q.card
  let j := c.job
  let gi := clGroup c
  match groupOf s j gi with
  | none => retire9 cl q .sqNotMember 8 s
  | some g => match rankOf s j g cl with
    | none => retire9 cl q .sqNotMember 8 s
    | some r =>
      let s1 := modGroup j gi (fun x => { x with seqs := tabSet 0 x.seqs r ((clSeq c + 1) % 2 ^ 32) }) s
      if g.aborted.contains (clSeq c) then retire9 cl q .sqCollAborted 8 s1
      else
        let run := { runOf q with issueTick := s.tk.tick, collSeq := clSeq c }
        let s2 := modCl cl (postCollQ run) s1
        let s3 := if (findColl s2 j gi (clSeq c)).isSome then s2
          else { s2 with sq := { s2.sq with colls := s2.sq.colls ++ [newColl c] } }
        let s4 := modColl j gi (clSeq c) (fun x => { x with posted := setIns r x.posted }) s3
        match g.members.head? with
        | some m => if hereRank s j m.1 then s4
          else sendCtrlOut (rankPkg s j m.1) (56 + clRd cl) (56 + clRd m.2) { headOf j gi (clSeq c) with srank := r }
            (.collReport (rankPkg s j m.1) j gi (collReport s cl r g.members.length c)) s4
        | none => s4

/-- COLL: the engine holds four cards of a cluster (R328). -/
def runColl (cl : Nat) (s : State) : State := if (getCl s cl).collCredits = 0 then s else exec9 cl 16 (doColl cl) s

/-! ## Setup (R330, R333) -/

/-- The reports of this package's members of a collective. -/
def localReports (s : State) (j : Nat) (g : SqGroup) (gi q : Nat) : List CollReport :=
  (localRanks s j g).filterMap fun m => (collIdx (getCl s m.2) gi q).bind fun k =>
    ((getCl s m.2).colls[k]?).map fun r => collReport s m.2 m.1 g.members.length r.card

/-- Whether two reports agree in the fields that must be equal (R330). -/
def reportsAgree (a b : CollReport) : Bool :=
  decide (a.kind = b.kind) && decide (a.fmt = b.fmt) && decide (a.op = b.op) && decide (a.root = b.root)
    && decide (a.timeout = b.timeout) && decide (a.seq = b.seq)
    && (decide (a.kind = 5) || decide (a.kind = 6) || decide (a.count = b.count))

/-- Counts that rank `r` receives, in rank order (R330). -/
def received (kind : Nat) (counts : List (Nat × List Nat)) (r : Nat) : List Nat :=
  counts.map fun c => if kind = 6 then c.2.getD r 0 else c.2.headD 0

/-- Whether a share of a rim die still holds a context and `w` pages (R332). -/
def ctxFree (s : State) (p rd w : Nat) : Bool :=
  let e := ptEntry s p
  let mine := s.sq.ctxs.filter fun c => decide (c.1 = rd) && decide (c.2.1 = p)
  decide (mine.length < ptFld e 9 8 0) && decide ((mine.map (·.2.2)).sum + w ≤ ptFld e 9 22 9)

/-- Fixes the mode of a reducing collective (R333). -/
def fixMode (j gi q : Nat) (g : SqGroup) (grants : Bool) (s : State) : State :=
  let p := jobPart j
  match (localRanks s j g).head? with
  | none => s
  | some m =>
    let rd := clRd m.2
    if grants && ctxFree s p rd g.window then
      bump .sqInnet p (modColl j gi q (fun x => { x with inNet := true, ctxRd := some rd })
        { s with sq := { s.sq with ctxs := s.sq.ctxs ++ [(rd, p, g.window)] } })
    else bump .sqFallback p s

/-- Whether the package of a group's system root is this one (R330). -/
def sysRootHere (s : State) (j : Nat) (g : SqGroup) : Bool := (g.members.head?).any fun m => hereRank s j m.1

/-- Whether the received total of a V kind exceeds a member's DST_CAP (R330). -/
def overCap (kind : Nat) (rs : List CollReport) : Bool :=
  let counts := rs.map fun b => (b.rank, b.counts)
  (decide (kind = 5) || decide (kind = 6)) && rs.any fun b => decide (b.cap < (received kind counts b.rank).sum)

/-- The system root passes the round on: every member's report, with its counts, to each package but the member's own, and the
mode (R330, R333). -/
def passOn (j gi q : Nat) (g : SqGroup) (rs : List CollReport) (s : State) : State :=
  let far := g.members.foldl (fun l m => if hereRank s j m.1 then l else setIns m.1 l) []
  let mode := (findColl s j gi q).any (·.inNet)
  if !sysRootHere s j g then s
  else forEach far (fun k t =>
    let pkg := rankPkg t j k
    let away := rs.filter fun r => (g.members[r.rank]?).any fun m => decide (m.1 ≠ k)
    sendRoot pkg (headOf j gi q) (.collMode pkg j gi q mode)
      (forEach away (fun r u => sendRoot pkg { headOf j gi q with srank := r.rank } (.collReport pkg j gi r) u) t)) s

/-- The counts of a V kind come to the CNT_LINE of the members here (R330). -/
def writeCounts (j gi q : Nat) (g : SqGroup) (kind : Nat) (counts : List (Nat × List Nat)) (s : State) : State :=
  forEach (localRanks s j g) (fun m t => match (collIdx (getCl t m.2) gi q).bind fun k => (getCl t m.2).colls[k]? with
    | some r => putMem (bytesAt (poolKey m.2 (64 * clCnt r.card)) ((received kind counts m.1).flatMap (leBytes 4))) t
    | none => t) s

/-- COLL_SETUP (R330): with every member's report there, the fields are compared, counts are exchanged, and the mode is
fixed. -/
def collSetup (j gi : Nat) (reports : List CollReport) (grants : Bool) (s : State) : State :=
  match groupOf s j gi, s.sq.colls.find? fun x => decide (x.job = j) && decide (x.group = gi) && !x.setUp with
  | some g, some x =>
    let all := localReports s j g gi x.seq ++ reports
    let ranks := (List.range g.members.length).map fun r => all.find? fun a => decide (a.rank = r)
    if ranks.any Option.isNone then s
    else
      let rs := ranks.filterMap id
      match rs with
      | [] => s
      | a :: _ =>
        if !(rs.all (reportsAgree a)) then beginAbort j gi x.seq .sqMismatch s
        else
          let counts := rs.map fun b => (b.rank, b.counts)
          let s1 := if a.kind = 5 ∨ a.kind = 6 then writeCounts j gi x.seq g a.kind counts s else s
          if overCap a.kind rs then beginAbort j gi x.seq .sqCapExceeded (passOn j gi x.seq g rs s1)
          else
            let s2 := modColl j gi x.seq (fun y => { y with setUp := true, counts := counts }) s1
            passOn j gi x.seq g rs (if reduces a.kind then fixMode j gi x.seq g grants s2 else s2)
  | _, _ => s

/-! ## Chunks (R330, R331) -/

/-- A piece of at most 4,096 bytes that a rank sends: byte of its SRC, length, byte of the receiver's DST, and the one
receiver where there is one. -/
structure Piece where
  src : Nat
  len : Nat
  dst : Nat
  one : Option Nat
deriving DecidableEq, Repr

/-- Cuts bytes into chunks of 4,096 (R331): offset and length. -/
def cuts (total : Nat) : List (Nat × Nat) :=
  (List.range ((total + 4095) / 4096)).map fun k => (4096 * k, min 4096 (total - 4096 * k))

/-- The pieces of a rank, by chunk index (R330). Slices of REDUCE_SCATTER and ALL_TO_ALL_V are cut apart (log 30). -/
def collPieces (x : Coll) (n rank : Nat) : List Piece :=
  let b := x.count * clSize x.fmt
  let cnt := fun (i d : Nat) => ((tabFind i x.counts).getD []).getD d 0
  let before := fun (f : Nat → Nat) (m : Nat) => ((List.range m).map f).sum
  match x.kind with
  | 0 => (cuts b).map fun c => ⟨c.1, c.2, c.1, none⟩
  | 1 => (cuts b).map fun c => ⟨c.1, c.2, c.1, some x.root⟩
  | 2 => if rank = x.root then (cuts b).map fun c => ⟨c.1, c.2, c.1, none⟩ else []
  | 3 => (cuts b).map fun c => ⟨c.1, c.2, rank * b + c.1, none⟩
  | 4 => (List.range n).flatMap fun r => (cuts b).map fun c => ⟨r * b + c.1, c.2, c.1, some r⟩
  | 5 => (cuts (cnt rank 0)).map fun c => ⟨c.1, c.2, before (fun i => cnt i 0) rank + c.1, none⟩
  | 6 => (List.range n).flatMap fun d => (cuts (cnt rank d)).map fun c =>
      ⟨before (cnt rank) d + c.1, c.2, before (fun i => cnt i d) rank + c.1, some d⟩
  | _ => []

/-- Whether a piece goes to a rank. -/
def Piece.goesTo (p : Piece) (r : Nat) : Bool := match p.one with
  | some d => decide (d = r)
  | none => true

/-- Key of a landed piece: the chunk, and the sender for a moving kind. -/
def landKey (x : Coll) (srank chunk : Nat) : Nat := if reduces x.kind then chunk else chunk + 2 ^ 32 * srank

/-- Keys of every piece that a rank receives. -/
def expectedKeys (x : Coll) (n rank : Nat) : List Nat :=
  let of := fun i => ((collPieces x n i).zipIdx.filter fun p => p.1.goesTo rank).map fun p => landKey x i p.2
  if reduces x.kind then of rank else (List.range n).flatMap of

/-- Whether a rank's card may retire (R330). -/
def memberDone (x : Coll) (n rank : Nat) : Bool :=
  x.setUp && ((List.range (collPieces x n rank).length).all fun k => x.sent.contains (k, rank))
    && ((expectedKeys x n rank).all fun k => x.landed.contains (k, rank))

/-- Rank whose rim die forms a chunk's nodes (R331, R333). -/
def nodeRank (x : Coll) (n chunk : Nat) : Nat := if x.inNet then 0 else chunk % n

/-- Whether this package forms a chunk's nodes. -/
def nodeHere (s : State) (x : Coll) (g : SqGroup) (chunk : Nat) : Bool :=
  match g.members[nodeRank x g.members.length chunk]? with
  | some m => hereRank s x.job m.1
  | none => false

/-- One node of the canonical tree over values of a format (R331). -/
def collNode (op fmt : Nat) (a b : W32) : W32 :=
  let u := decElem fmt a.toNat
  let v := decElem fmt b.toNat
  let nan : W32 := BitVec.ofNat 32 (nanCode fmt)
  if op = 0 then
    (if fmt = 7 then fAdd a b
     else match u.add v with
      | .nan => nan
      | .inf s => BitVec.ofNat 32 (ovfCode fmt s)
      | .fin s m e => BitVec.ofNat 32 (narrowMag fmt .rne s ⟨m, 1, e⟩).1)
  else if u.isNan ∨ v.isNan then nan
  else
    let neg := fun (w : W32) => decide (2 ^ (fmtWidth fmt - 1) ≤ w.toNat)
    let less := if u.lt v then true else if v.lt u then false else neg a && !neg b
    if op = 1 then (if less then b else a) else (if less then a else b)

/-- A node over two chunks, element by element. -/
def nodeBytes (op fmt : Nat) (a b : List Byte) : List Byte :=
  let w := clSize fmt
  (List.range (a.length / w)).flatMap fun i =>
    leBytes w (collNode op fmt (BitVec.ofNat 32 (leNat ((a.drop (w * i)).take w))) (BitVec.ofNat 32 (leNat ((b.drop (w * i)).take w)))).toNat

/-- Node `i` of level `l` of the canonical tree over `n` ranks (R56, R331), where `given` has the values that have come: a node
that was not given is formed of its two halves, and one half alone passes up unchanged. `none` while a value is missing. -/
def treeNode (op fmt n : Nat) (given : Nat → Nat → Option (List Byte)) : Nat → Nat → Option (List Byte)
  | 0, i => given 0 i
  | l + 1, i => match given (l + 1) i with
    | some v => some v
    | none => match treeNode op fmt n given l (2 * i) with
      | none => none
      | some a =>
        if n ≤ (2 * i + 1) * 2 ^ l then some a
        else (treeNode op fmt n given l (2 * i + 1)).map (nodeBytes op fmt a)

/-- Whether the leaves of node `i` of level `l` all lie on the package of a rank (R333). -/
def nodeOn (g : SqGroup) (pr l i : Nat) : Bool :=
  ((g.members.drop (i * 2 ^ l)).take (2 ^ l)).all fun m => decide (m.1 = pr)

/-- Level of the largest node over a rank whose leaves all lie on its package (R333). -/
def ownLevel (g : SqGroup) (r : Nat) : Nat := match g.members[r]? with
  | some m => ((List.range 17).takeWhile fun l => nodeOn g m.1 l (r / 2 ^ l)).length - 1
  | none => 0

/-- Bytes of a member's SRC. -/
def srcBytes (s : State) (cl : Nat) (c : Card) (off n : Nat) : Except Status (List Byte) :=
  match collPlace s cl c c.w3 (off + n) .rd with
  | .error st => .error st
  | .ok (.pool o) => .ok (memBytes s.mem (poolKey cl (o + off)) n)
  | .ok (.near rd h o) => readPlace s ⟨rd, h, o + off⟩ n

/-- Notes a read of a member's SRC that met POISON (R179). -/
def noteSrc (s : State) (cl : Nat) (c : Card) (off n : Nat) : State :=
  match collPlace s cl c c.w3 (off + n) .rd with
  | .ok (.near rd h o) => noteRead ⟨rd, h, o + off⟩ n s
  | _ => s

/-- Writes bytes into a member's DST. -/
def dstWrite (cl : Nat) (c : Card) (off : Nat) (bs : List Byte) (s : State) : State :=
  match collPlace s cl c c.w4 (off + bs.length) .wr with
  | .error _ => s
  | .ok (.pool o) => putMem (bytesAt (poolKey cl (o + off)) bs) s
  | .ok (.near rd h o) => writePlace rd h (o + off) bs s

/-- Head of a chunk that this package sends to a rim die. -/
def chunkHead (s : State) (x : Coll) (rd srank chunk len : Nat) : Head :=
  { job := x.job, group := x.group, srank := srank, die := 56 + rd, cluster := 0, chain := 0, seq := x.seq, chunk := chunk,
    lines := (len + 63) / 64, dst := 0, step := ((getJob s x.job).map (·.j)).getD 0 % 2 ^ 32, crcOk := true }

/-- Home rim die of a rank of a group. -/
def rankRd (g : SqGroup) (r : Nat) : Nat := match g.members[r]? with
  | some m => clRd m.2
  | none => 0

/-- Sends a chunk of a rank once to the root of each other package that holds one of its receivers (R333). -/
def sendChunkOut (x : Coll) (g : SqGroup) (p : Piece) (srank chunk : Nat) (bs : List Byte) (s : State) : State :=
  let far := (g.members.zipIdx.filter fun m => p.goesTo m.2 && !hereRank s x.job m.1.1).foldl (fun l m => setIns m.1.1 l) []
  forEach far (fun k t => sendMsg (rankPkg s x.job k) 2 4 (56 + rankRd g srank) (56 + rootRd g k)
    (chunkHead t x (rootRd g k) srank chunk bs.length) bs t) s

/-- Drops a collective whose work on this package is done: its members have retired and its nodes are formed. -/
def finishColl (j gi q : Nat) (s : State) : State :=
  match findColl s j gi q, groupOf s j gi with
  | some x, some g =>
    let n := g.members.length
    let members := (localRanks s j g).all fun m => x.retired.contains m.1
    let nodes := !reduces x.kind || ((List.range (collPieces x n 0).length).all fun k =>
      !nodeHere s x g k || (x.results.any fun r => decide (r.1 = k)))
    if x.setUp && members && nodes then dropColl j gi q s else s
  | _, _ => s

/-- Values held of a chunk: those of the ranks of this package's own leaves as leaves, one of another package as the node that its
package root has formed (R333). -/
def givenOf (s : State) (y : Coll) (g : SqGroup) (chunk l i : Nat) : Option (List Byte) :=
  let r := i * 2 ^ l
  let level := if y.inNet ∧ !(g.members[r]?).any (fun m => hereRank s y.job m.1) then ownLevel g r else 0
  if level = l then (y.inputs.find? fun e => decide (e.1 = chunk) && decide (e.2.1 = r)).map (·.2.2) else none

/-- The 4 KiB of the owner's SCRATCH that an input chunk takes in endpoint mode (R333, log 80). -/
def scratchSlot (g : SqGroup) (n srank chunk : Nat) : Nat :=
  (chunk / n * n + srank) % max 1 ((g.maxBytes + 4 * n) / 4096) * 4096

/-- An input chunk is held at a node of this package; in endpoint mode in the SCRATCH of its owner (R333). -/
def holdInput (x : Coll) (g : SqGroup) (srank chunk : Nat) (bs : List Byte) (s : State) : State :=
  let s1 := modColl x.job x.group x.seq (fun y => { y with inputs := y.inputs ++ [(chunk, srank, bs)] }) s
  let n := g.members.length
  if x.inNet then s1
  else match g.scratch[nodeRank x n chunk]? with
    | some (rd, h) => writePlace rd h (scratchSlot g n srank chunk) bs s1
    | none => s1

/-- An input chunk is at a node of this package: with every rank's there, the result is formed and sent on (R331). -/
def nodeTakes (x : Coll) (g : SqGroup) (p : Piece) (srank chunk : Nat) (bs : List Byte) (s : State) : State :=
  let n := g.members.length
  let s1 := holdInput x g srank chunk bs s
  match findColl s1 x.job x.group x.seq with
  | none => s1
  | some y => match treeNode x.op x.fmt n (givenOf s y g chunk) 17 0 with
    | none => s1
    | some out =>
      finishColl x.job x.group x.seq (sendChunkOut x g p (nodeRank x n chunk) chunk out (modColl x.job x.group x.seq (fun z =>
        { z with inputs := z.inputs.filter fun i => decide (i.1 ≠ chunk), results := z.results ++ [(chunk, out)] }) s1))

/-- Sends an input chunk, or the node that stands for it, from a rim die to the node's rim die on another package. -/
def sendInput (x : Coll) (g : SqGroup) (rd srank chunk : Nat) (bs : List Byte) (s : State) : State :=
  match g.members[nodeRank x g.members.length chunk]? with
  | some m => sendMsg (rankPkg s x.job m.1) 1 4 (56 + rd) (56 + clRd m.2) (chunkHead s x (clRd m.2) srank chunk bs.length) bs s
  | none => s

/-- An input chunk is at this package's root, which is not the system root, in-network (R333): with every leaf of a node here that
is as large as may be, the node goes on to the system root and its leaves are given up. -/
def rootTakes (x : Coll) (g : SqGroup) (srank chunk : Nat) (bs : List Byte) (s : State) : State :=
  let n := g.members.length
  let l := ownLevel g srank
  let i := srank / 2 ^ l
  let s1 := holdInput x g srank chunk bs s
  match findColl s1 x.job x.group x.seq with
  | none => s1
  | some y => match treeNode x.op x.fmt n (givenOf s y g chunk) l i with
    | none => s1
    | some v =>
      let own := ((getJob s x.job).map (·.rank)).getD 0
      sendInput x g (rootRd g own) (i * 2 ^ l) chunk v (modColl x.job x.group x.seq (fun z =>
        { z with inputs := z.inputs.filter fun e => !(decide (e.1 = chunk) && decide (e.2.1 / 2 ^ l = i)) }) s1)

/-- Where an input chunk goes from this package: to a node here or on another package, or, of a moving kind, towards its
receivers. -/
def deliverInput (x : Coll) (g : SqGroup) (p : Piece) (srank chunk : Nat) (mine : Bool) (bs : List Byte) (s : State) : State :=
  if reduces x.kind then
    if nodeHere s x g chunk then nodeTakes x g p srank chunk bs s
    else if !mine then s
    else if x.inNet then rootTakes x g srank chunk bs s
    else sendInput x g (rankRd g srank) srank chunk bs s
  else
    let s1 := modColl x.job x.group x.seq (fun y => { y with inputs := y.inputs ++ [(chunk, srank, bs)] }) s
    if mine then sendChunkOut x g p srank chunk bs s1 else s1

/-- Whether a package root may take another chunk: an in-network context holds at most WINDOW (R333). -/
def windowRoom (x : Coll) (g : SqGroup) (chunk : Nat) : Bool :=
  let held := x.inputs.foldl (fun l i => setIns i.1 l) []
  !x.inNet || held.contains chunk || decide (held.length < g.window)

/-- Whether an input chunk of another package is one that this package's node waits for: a chunk of a rank, and in-network one
that stands for a whole node of its package (R333). -/
def inputDue (s : State) (x : Coll) (g : SqGroup) (srank chunk : Nat) : Bool :=
  !(x.inputs.any fun i => decide (i.1 = chunk) && decide (i.2.1 = srank)) && !(x.results.any fun r => decide (r.1 = chunk))
    && (!reduces x.kind || (nodeHere s x g chunk && (!x.inNet || decide (srank % 2 ^ ownLevel g srank = 0))))

/-- CHUNK_IN of a member here (R331): its chunk leaves its SRC inside the SQUALL window. -/
def ownChunk (h : Head) (g : SqGroup) (x : Coll) (r cl : Nat) (s : State) : State :=
  match (collPieces x g.members.length r)[h.chunk]?, (collIdx (getCl s cl) h.group h.seq).bind fun k => (getCl s cl).colls[k]? with
  | some p, some run =>
    if !x.setUp ∨ x.sent.contains (h.chunk, r) ∨ !windowOpen s 4 ∨ !jobIssues s h.job ∨ !windowRoom x g h.chunk then s
    else match srcBytes s cl run.card p.src p.len with
      | .error st => faultJob h.job st (noteSrc s cl run.card p.src p.len)
      | .ok bs => deliverInput x g p r h.chunk true bs
          (modColl h.job h.group h.seq (fun y => { y with sent := y.sent ++ [(h.chunk, r)] }) s)
  | _, _ => s

/-- CHUNK_IN of another package (R331): its head is checked, and a chunk whose CRC is wrong is used all the same while poison is
raised (R336). Before this package has posted and set up the collective, and while an in-network context is full, it waits under
its credits (R333). -/
def farChunk (h : Head) (data : List Byte) (g : SqGroup) (x : Coll) (s : State) : State :=
  if !x.setUp then s
  else match (collPieces x g.members.length h.srank)[h.chunk]? with
    | none => raisePoison h s
    | some p =>
      if !inputDue s x g h.srank h.chunk then raisePoison h s
      else if !windowRoom x g h.chunk then s
      else
        let s1 := deliverInput x g p h.srank h.chunk false (sliceZ data 0 p.len) s
        if h.crcOk then s1 else raisePoison h s1

/-- CHUNK_IN (R331): one that names a wrong job, group or collective raises poison (R336). -/
def chunkIn (h : Head) (data : List Byte) (s : State) : State :=
  match groupOf s h.job h.group with
  | none => raisePoison h s
  | some g =>
    let mine := (localRanks s h.job g).find? fun m => decide (m.1 = h.srank)
    if g.aborted.contains h.seq then s
    else match findColl s h.job h.group h.seq, mine with
      | none, some _ => s
      | none, none => raisePoison h s
      | some x, some (r, cl) => ownChunk h g x r cl s
      | some x, none => farChunk h data g x s

/-- A result chunk lands in the DST of a member here (R330): the bytes are written, and it counts as landed once its CRC has passed;
one found wrong raises poison (R336). -/
def landChunk (h : Head) (x : Coll) (r cl : Nat) (run : Run) (p : Piece) (bs : List Byte) (s : State) : State :=
  let key := landKey x h.srank h.chunk
  if !x.setUp ∨ !p.goesTo r ∨ x.landed.contains (key, r) then s
  else
    let s1 := dstWrite cl run.card p.dst (bs.take p.len) s
    if h.crcOk then modColl h.job h.group h.seq (fun y => { y with landed := y.landed ++ [(key, r)] }) s1
    else raisePoison h s1

/-- Whether a result chunk comes from a node or a sender of this package. -/
def formedHere (s : State) (x : Coll) (g : SqGroup) (h : Head) : Bool :=
  if reduces x.kind then nodeHere s x g h.chunk else (g.members[h.srank]?).any fun m => hereRank s h.job m.1

/-- The bytes of a result chunk, where this package holds them. -/
def heldResult (x : Coll) (h : Head) : Option (List Byte) :=
  if reduces x.kind then (x.results.find? fun e => decide (e.1 = h.chunk)).map (·.2)
  else (x.inputs.find? fun i => decide (i.1 = h.chunk) && decide (i.2.1 = h.srank)).map (·.2.2)

/-- CHUNK_OUT (R330): a result chunk comes to a member here, from a node or a sender of this package or another. -/
def chunkOut (rank : Nat) (h : Head) (data : List Byte) (s : State) : State :=
  match groupOf s h.job h.group with
  | none => raisePoison h s
  | some g =>
    match findColl s h.job h.group h.seq, (localRanks s h.job g).find? fun m => decide (m.1 = rank) with
    | some x, some (r, cl) =>
      let n := g.members.length
      let from_ := if reduces x.kind then r else h.srank
      match (collPieces x n from_)[h.chunk]?, (collIdx (getCl s cl) h.group h.seq).bind fun k => (getCl s cl).colls[k]? with
      | some p, some run =>
        match heldResult x h with
        | some b => landChunk h x r cl run p b s
        | none => if formedHere s x g h then s else landChunk h x r cl run p (sliceZ data 0 p.len) s
      | none, some _ => raisePoison h s
      | _, none => s
    | none, some _ => if g.aborted.contains h.seq then s else raisePoison h s
    | _, none => s

/-- A collective's card retires when its member is done (R330). CYCLES is a free value (log 17). -/
def retireColl (cl k : Nat) (s : State) : State :=
  match (getCl s cl).colls[k]? with
  | none => s
  | some r =>
    let j := r.card.job
    let gi := clGroup r.card
    match groupOf s j gi, findColl s j gi r.collSeq with
    | some g, some x => match rankOf s j g cl with
      | some rank =>
        if !memberDone x g.members.length rank then s
        else
          let (v, s1) := takeFree s
          let s2 := settle cl ⟨r.card, r.ord⟩ { r.report .ok 0 with cycles := v.toNat % 2 ^ 32 }
            (modCl cl (dropCollQ k) s1)
          finishColl j gi r.collSeq (modColl j gi r.collSeq (fun y => { y with retired := setIns rank y.retired }) s2)
      | none => s
    | _, _ => s

/-- A member whose source holds an uncorrectable pool word: its card ends POOL_UNCORRECTABLE, and the member aborts the
collective (R102, R334). -/
def failColl (cl k : Nat) (s : State) : State :=
  match (getCl s cl).colls[k]? with
  | none => s
  | some r =>
    beginAbort r.card.job (clGroup r.card) r.collSeq .poolUncorrectable
      (settle cl ⟨r.card, r.ord⟩ (r.report .poolUncorrectable 0) (modCl cl (dropCollQ k) s))

/-- Ticks that the norm reduction of a job may take, 1 to 65,535 as a card's TIMEOUT (R310, log 109). -/
def normLimit (j gi : Nat) : Nat := 1 + Config.normTimeout j gi % 65535

/-- The job of a cluster whose norm reduction, on a group, has a poster of that cluster past its timeout (R310). -/
def normLate (s : State) (cl gi : Nat) : Option (Nat × Nat) :=
  match (getCl s cl).owner with
  | some (_, _, j) => match getJob s j, updOf s j with
    | some x, some u =>
      if u.normGroup = gi ∧ (u.posters.any fun p => decide (p.cl = cl) && decide (p.tick + normLimit j gi ≤ s.tk.tick)) then
        some (j, x.j)
      else none
    | _, _ => none
  | none => none

/-- SQ_TIMEOUT (R334): at the boundary that ends the TIMEOUT-th tick after posting, a collective of the group that has not
retired at the member aborts, or the norm reduction on the group. -/
def collTimeout (cl gi : Nat) (s : State) : State :=
  let late := fun (r : Run) => decide (clGroup r.card = gi) && decide (r.issueTick + clTimeout r.card ≤ s.tk.tick)
  if s.tk.phase ≠ .boundary then s
  else match (getCl s cl).colls.find? late with
    | some r => beginAbort r.card.job gi r.collSeq .sqTimeout s
    | none => match normLate s cl gi with
      | some (j, step) => beginAbort j gi (normSeq step) .sqTimeout s
      | none => s

/-! ## Tile transfers (R127, R326) -/

/-- SRC. -/
def tsSrc (c : Card) : Nat := fld c.w2 15 0

/-- LINES. -/
def tsLines (c : Card) : Nat := fld c.w2 31 16

/-- DPKG. -/
def tsPkg (c : Card) : Nat := fld c.w2 41 32

/-- DDIE. -/
def tsDie (c : Card) : Nat := fld c.w2 47 42

/-- DREGION and DCLUSTER. -/
def tsCluster (c : Card) : Nat := 8 * fld c.w2 49 48 + fld c.w2 52 50

/-- DCHAIN. -/
def tsChain (c : Card) : Nat := fld c.w2 58 53

/-- DST. -/
def tsDst (c : Card) : Nat := fld c.w3 15 0

/-- GROUP. -/
def tsGroup (c : Card) : Nat := fld c.w3 27 16

/-- SEQ. -/
def tsSeq (c : Card) : Nat := fld c.w3 63 32

/-- Whether a shrink has dropped a card's destination (R358). -/
def tsDropped (x : Job) (c : Card) : Bool :=
  x.dropped.contains (tsPkg c, 2048) || x.dropped.contains (tsPkg c, 32 * tsDie c + tsCluster c)

/-- Whether a card's destination is a member of its job: a cluster that CLUSTERS gives it on a package of its own (R127); what a
shrink has dropped is a member still, and its transfers complete at once (R358). -/
def tsDestOk (s : State) (c : Card) : Bool :=
  decide (tsDie c < 56) && (match getJob s c.job with
    | some x => tsDropped x c || x.members.any fun m => decide (x.packages[m.1]? = some (tsPkg c)) && decide (m.2.1 = 32 * tsDie c + tsCluster c)
    | none => false)

/-- Checks of a tile-sender card at post (R127). -/
def tileCheck (s : State) (cl : Nat) (c : Card) : Chk :=
  firstBad [poolRange (tsSrc c) (tsLines c), poolRange (tsDst c) (tsLines c),
    badField (decide (tsLines c = 0) || decide (4096 < tsLines c)) 2 16, badField (decide (tsChain c = 0)) 2 53,
    bad (!tsDestOk s c) .cardDestInvalid,
    bad (decide (tsGroup c ≠ 0) && ((groupOf s c.job (tsGroup c)).bind fun g => rankOf s c.job g cl).isNone) .sqNotMember,
    tooLong (8 + tsLines c)]

/-- Head of a tile card's transfer (R127, R325). -/
def tileHead (s : State) (cl : Nat) (c : Card) : Head :=
  { job := c.job, group := tsGroup c,
    srank := ((groupOf s c.job (tsGroup c)).bind fun g => rankOf s c.job g cl).getD 0,
    die := tsDie c, cluster := tsCluster c, chain := tsChain c, seq := tsSeq c, chunk := 0, lines := tsLines c, dst := tsDst c,
    step := ((getJob s c.job).map (·.j)).getD 0 % 2 ^ 32, crcOk := true }

/-- Ships the lines of a card: over the mesh inside the package, on the SQUALL lane to another (R127, R325); nothing to a
destination that a shrink has dropped (R358). -/
def shipTile (cl : Nat) (c : Card) (s : State) : State :=
  let h := tileHead s cl c
  let data := memBytes s.mem (poolKey cl (64 * tsSrc c)) (64 * tsLines c)
  if (getJob s c.job).any (fun x => tsDropped x c) then s
  else if tsPkg c = s.wn.pkg then { s with sq := { s.sq with tiles := s.sq.tiles ++ [⟨clDie cl, h, data⟩] } }
  else sendMsg (tsPkg c) 0 4 (clDie cl) (tsDie c) h data s

/-- TILE_SENDER: the card issues (R127, R442). With an uncorrectable word among its lines it ends POOL_UNCORRECTABLE and the
transfer never comes whole, so no arrival is counted (R102). -/
def issueTile (cl : Nat) (poolBad : Bool) (s : State) : State :=
  issueHead cl 15 (fun c => decide (c.opcode = 0)) (fun _ q => 600 * (8 + tsLines q.card))
    (fun q t =>
      let r := { runOf q with cycles := 8 + tsLines q.card }
      if poolBad then putRun cl 15 r.poolFail t else putRun cl 15 r (shipTile cl q.card t)) s

/-- Whether a transfer under way inside the package is the one a head names. -/
def sameTile (h k : Head) : Bool := decide ({ h with crcOk := true } = k)

/-- Whether two transfers are of one flow: their lane, of the SQUALL class of their partition (R318), and their path (R317). -/
def sameFlow (a b : Transit) : Bool :=
  decide (jobPart a.head.job = jobPart b.head.job) && decide (route a.src a.head.die = route b.src b.head.die)

/-- A whole transfer is at its destination (R326). -/
def tileLands (h : Head) (data : List Byte) (s : State) : State :=
  let cl := 32 * h.die + h.cluster
  let land := fun (t : State) => chainArrive cl h.chain
    (putMem (bytesAt (poolKey cl (64 * h.dst)) (sliceZ data 0 (64 * h.lines))) t)
  let owned : Bool := match (getCl s cl).owner with
    | some (_, _, j) => decide (j = h.job)
    | none => false
  if !owned then s
  else if h.group = 0 then
    (if h.crcOk then land s
     else faultJob h.job .sqTransferCrc (abortChain cl h.chain .failed s))
  else match groupOf s h.job h.group with
    | none => raisePoison h s
    | some g =>
      let key := 2048 * h.srank + cl
      if h.crcOk ∧ h.seq = tabGet 0 g.tileSeqs key then
        land (modGroup h.job h.group (fun x => { x with tileSeqs := tabSet 0 x.tileSeqs key ((h.seq + 1) % 2 ^ 32) }) s)
      else raisePoison h s

/-- TILE_ARRIVAL (R326): a transfer of a cluster of this package brings the lines it was sent with. Those of one lane that take one
path through the mesh arrive in the order in which they were sent (R317). -/
def tileArrival (h : Head) (data : List Byte) (s : State) : State :=
  match s.sq.tiles.findIdx? fun t => sameTile h t.head with
  | some i => match s.sq.tiles[i]? with
    | some t =>
      if (s.sq.tiles.take i).any (sameFlow t) then s
      else tileLands h t.data { s with sq := { s.sq with tiles := s.sq.tiles.eraseIdx i } }
    | none => s
  | none => tileLands h data s

/-! ## Remote reads (R164, R170, R326) -/

/-- What a read of another package comes to: the lines, or the status that ends it. -/
def serveRead (s : State) (h : Head) (cls : Nat) (a : W64) : Except Status (List Byte) :=
  let rd := fld a 50 48
  let k := fld a 47 40
  let off := fld a 39 0
  if fld a 63 61 ≠ 4 ∨ fld a 60 51 ≠ s.wn.pkg then .error .mtAddrInvalid
  else match regionOf s rd k with
    | none => .error .mtAddrInvalid
    | some e =>
      if e.len < off + 64 * h.lines then .error .mtAddrInvalid
      else match ownerCheck e (jobPart h.job) h.job cls h.die 0 false .rd with
        | some st => .error st
        | none => readPlace s ⟨rd, k, off⟩ (64 * h.lines)

/-- MEM_REQ: the lines go back as MEM_DATA on the requesting class's lane; a refusal goes back with no line and its status
in DST. -/
def memReq (pkg : Nat) (h : Head) (cls : Nat) (a : W64) (s : State) : State :=
  match serveRead s h cls a with
  | .ok bs => sendMsg pkg 4 cls (56 + fld a 50 48) h.die h bs s
  | .error st => sendMsg pkg 4 cls (56 + fld a 50 48) h.die { h with lines := 0, dst := (statusCode st).toNat } []
      (if st = .mtUncorrectable then noteRead ⟨fld a 50 48, fld a 47 40, fld a 39 0⟩ (64 * h.lines) s else s)

/-! ## The commands -/

/-- COLL (R329). -/
def execColl (cl : Nat) (s : State) : Host.Outcome State Fault Refusal := running s (runColl cl)

/-- COLL_SETUP (R330). -/
def execCollSetup (j g : Nat) (reports : List CollReport) (grants : Bool) (s : State) : Host.Outcome State Fault Refusal :=
  running s (collSetup j g reports grants)

/-- CHUNK_IN (R331). -/
def execChunkIn (h : Head) (data : List Byte) (s : State) : Host.Outcome State Fault Refusal := running s (chunkIn h data)

/-- CHUNK_OUT (R330). -/
def execChunkOut (rank : Nat) (h : Head) (data : List Byte) (s : State) : Host.Outcome State Fault Refusal :=
  running s (chunkOut rank h data)

/-- MEM_REQ (R326). -/
def execMemReq (pkg : Nat) (h : Head) (cls : Nat) (addr : W64) (s : State) : Host.Outcome State Fault Refusal :=
  running s (memReq pkg h cls addr)

/-- SQ_TIMEOUT (R334). -/
def execSqTimeout (cl g : Nat) (s : State) : Host.Outcome State Fault Refusal := running s (collTimeout cl g)

/-- ABORT (R335). -/
def execAbort (j g q : Nat) (s : State) : Host.Outcome State Fault Refusal := running s (applyAbort j g q .ok)

/-- POISON (R336). -/
def execPoison (j g q _chunk step : Nat) (s : State) : Host.Outcome State Fault Refusal := running s (applyPoison j g q step)

/-- TILE_SENDER (R127). -/
def execTileSender (cl : Nat) (poolBad : Bool) (s : State) : Host.Outcome State Fault Refusal := running s (issueTile cl poolBad)

/-- TILE_ARRIVAL (R326). -/
def execTileArrival (h : Head) (data : List Byte) (s : State) : Host.Outcome State Fault Refusal :=
  running s (tileArrival h data)

end Sys2Proof.Machine
end

