-- ==== Sys2Proof/Machine/Afterglow.lean ====
section
/-!
DEFINITION. Afterglow (R341 to R353): cuts, copies, seals, the narrowed drain and buddy slots.
-/

namespace Sys2Proof.Machine

/-! ## Seal records (R348) -/

/-- Code of a slot's STATE. -/
def sealCode : SealState → Nat
  | .empty => 0
  | .opened => 1
  | .done => 2
  | .invalid => 3

/-- Words 0 to 6 of a seal record. -/
def sealWords (j pkg die : Nat) (b : Bool) (sl : SlotSt) : List W64 :=
  [BitVec.ofNat 64 (0x41474C57 + sealCode sl.state * 2 ^ 32 + (if b then 2 ^ 34 else 0) + (if sl.drained then 2 ^ 35 else 0)
      + j * 2 ^ 48),
   BitVec.ofNat 64 sl.cut, BitVec.ofNat 64 sl.j, BitVec.ofNat 64 sl.cutTick, BitVec.ofNat 64 (sl.policyEpoch % 2 ^ 48),
   BitVec.ofNat 64 sl.sealTick, BitVec.ofNat 64 (pkg + die * 2 ^ 10 + sl.blocks * 2 ^ 16)]

/-- The seal record, 128 bytes, with the CRC over its words and the ring table. -/
def sealRecord (words : List W64) (rings : List Byte) : List Byte :=
  let w := w64Bytes words
  w ++ leBytes 8 (crc32c (w ++ rings)).toNat ++ List.replicate 64 0#8

/-- The ring table of a die: rings whose consumer is on it, 64 entries (R342, R348). -/
def ringTable (s : State) (j die : Nat) : List Byte :=
  let rs := s.lrn.rings.filter fun r => decide (r.2.job = j) && decide (clDie r.2.consumer = die)
  sliceZ (rs.flatMap fun r => w64Bytes [BitVec.ofNat 64 r.1, BitVec.ofNat 64 r.2.consume]) 0 1024

/-- Bytes of a slot. -/
def slotBytes (s : State) (sl : SlotSt) (off n : Nat) : List Byte :=
  match regionOf s sl.rd sl.region with
  | some e => regionBytes s sl.rd e off n
  | none => List.replicate n 0#8

/-- Writes a slot's seal record anew, over the ring table that it holds. -/
def writeRecord (j pkg die : Nat) (b : Bool) (sl : SlotSt) (s : State) : State :=
  writePlace sl.rd sl.region 0 (sealRecord (sealWords j pkg die b sl) (slotBytes s sl 128 1024)) s

/-! ## Slots of a die -/

/-- Slot A or, for `true`, slot B. -/
def AgDie.slot (d : AgDie) (b : Bool) : SlotSt := if b then d.slotB else d.slotA

/-- Puts a slot. -/
def AgDie.put (d : AgDie) (b : Bool) (sl : SlotSt) : AgDie := if b then { d with slotB := sl } else { d with slotA := sl }

/-- The slot with the newest seal. -/
def newestSeal (a b : SlotSt) : Option Bool :=
  match decide (a.state = .done), decide (b.state = .done) with
  | true, true => some (decide (a.cut < b.cut))
  | true, false => some false
  | false, true => some true
  | false, false => none

/-- The slot that a cut goes into: the one that does not hold the newest seal (R344). -/
def targetSlot (a b : SlotSt) : Bool := match newestSeal a b with
  | some x => !x
  | none => false

/-- Which slot the die's copy fills. -/
def openWhich (d : AgDie) : Option Bool :=
  if d.slotA.state = .opened ∧ (d.slotB.state ≠ .opened ∨ d.slotB.cut < d.slotA.cut) then some false
  else if d.slotB.state = .opened then some true
  else none

/-- The slot of a die that holds a cut SEALED. -/
def sealedSlot (d : AgDie) (p : SlotSt → Bool) : Option Bool :=
  if d.slotA.state = .done ∧ p d.slotA then some false
  else if d.slotB.state = .done ∧ p d.slotB then some true
  else none

/-- Changes the LEARN units of a die of a job. -/
def modLearnUnits (j die : Nat) (f : Nat × Nat → UnitSt → UnitSt) (s : State) : State :=
  forEach (learnUnits s j die) (fun c t => match physOf t c.1 c.2 with
    | some k => modUnit k (f c) t
    | none => t) s

/-! ## The cut (R344, R346) -/

/-- Whether block `i` of a die's Stratus region holds bytes below a stack's top. -/
def stratusLive (s : State) (j die i : Nat) : Bool :=
  match (learnOf s j).bind fun l => (l.stratus.find? fun x => decide (x.1 = die)).map fun x => (l.mbInflight, x.2.2.1) with
  | none => false
  | some (mb, bytes) =>
    (s.lrn.stratus.filter fun e => decide (e.1 / 64 / 32 = die)).any fun e =>
      let base := (mb * (e.1 / 64 % 32) + e.1 % 64) * bytes
      decide (65536 * i < base + 64 * stackTopLine e.2) && decide (base < 65536 * (i + 1)) && decide (e.2 ≠ [])

/-- The drift bits that a cut sets to 1 at once (R346). -/
def initialDrift (s : State) (j die : Nat) : List Nat :=
  ((slotBlocks s j die).zipIdx.filter fun b => match b.1 with
    | .header _ => true
    | .stratus _ _ i => !stratusLive s j die i
    | _ => false).map (·.2)

/-- The two header blocks that the scheduler core writes at the cut (R345, R348). -/
def headerBytes (s : State) (j die : Nat) (b : Bool) (sl : SlotSt) : List Byte :=
  let rings := ringTable s j die
  let sched := match updOf s j with
    | some u => schedBytes u
    | none => []
  sliceZ (sliceZ (sealRecord (sealWords j s.wn.pkg die b sl) rings ++ rings) 0 4096 ++ sched) 0 131072

/-- Cuts one die (R344). -/
def cutDie (j c step : Nat) (d : AgDie) (s : State) : State :=
  let b := targetSlot d.slotA d.slotB
  let n := (slotBlocks s j d.die).length
  let sl : SlotSt :=
    { d.slot b with state := .opened, drained := false, cut := c, j := step, cutTick := s.tk.tick,
                    policyEpoch := epochInForce s j, sealTick := 0, blocks := n }
  let s1 := writePlace sl.rd sl.region 0 (headerBytes s j d.die b sl) s
  let s2 := modAgDie j d.die (fun x =>
    { x.put b sl with drift := initialDrift s j d.die, copying := true, closed := false }) s1
  modLearnUnits j d.die (fun _ u => { u with written := false }) s2

/-- Packages with learner dies of a job, and those dies (R262). -/
def learnerDies (s : State) (j : Nat) : List (Nat × Nat) :=
  match learnOf s j with
  | none => []
  | some l => l.stage.flatMap fun x =>
      ((List.range 56).filter fun d => x.2.1 / 2 ^ d % 2 == 1).map fun d => (rankPkg s j x.1, d)

/-- Whether a cut is skipped (R344): on a die here, or on another member as far as its reports have come, the previous copy is
open, or the target slot is being narrowed. -/
def cutSkipped (s : State) (j : Nat) (a : AgCtx) : Bool :=
  let target := fun (d : AgDie) =>
    let sl := d.slot (targetSlot d.slotA d.slotB)
    decide (sl.state = .done) && decide (sl.cut = a.drainCut)
  let draining := a.narrowing || a.draining
  (a.dies.any fun d => d.copying || (a.narrowing && !d.narrowed && target d))
    || ((learnerDies s j).filter fun d => decide (d.1 ≠ s.wn.pkg)).any fun d =>
      (decide (a.cutSeq ≠ 0) && !a.closedFrom.contains (d.1, a.cutSeq))
        || (draining && a.dies.any target && !a.narrowedFrom.contains (d.1, a.drainCut))

/-- The cut of a boundary, step 1 of R31: at a boundary that applies a step advance, and at the one that ends the tick of
admission. -/
def doCut (j : Nat) (s : State) : State :=
  match agOf s j, getJob s j with
  | some (_, a), some x =>
    if a.state ≠ .running ∨ !(a.cutDue || advanceDue s j) then s
    else
      let s1 := modJobAg j (fun y => { y with cutDue := false }) s
      if cutSkipped s j a then bump .agSkipped (jobPart j) s1
      else
        let step := if advanceDue s j then next64 x.j else x.j
        forEach a.dies (cutDie j (next64 a.cutSeq) step) (modJobAg j (fun y => { y with cutSeq := next64 a.cutSeq }) s1)
  | _, _ => s

/-- Cuts of every job. -/
def boundaryCuts (s : State) : State := forEach (s.jobs.map (·.1)) doCut s

/-! ## The copy (R345) -/

/-- AG_COPY_OPEN: at the intake edge after the cut. -/
def copyOpens (j : Nat) (s : State) : State :=
  match agOf s j with
  | some (_, a) =>
    if s.tk.phase = .step ∧ !a.copyOpen ∧ a.dies.any (·.copying) then
      modJobAg j (fun x => { x with copyOpen := true, copyFrom := s.tk.tick }) s
    else s
  | none => s

/-- The copy is open while a die still has blocks to copy; its end is reported to the other members (R344). -/
def copyEnds (j : Nat) (s : State) : State :=
  match agOf s j with
  | none => s
  | some (_, a) =>
    if a.dies.any (·.copying) then s
    else castCtrl j (.copyReport j s.wn.pkg a.cutSeq) (modJobAg j (fun x => { x with copyOpen := false }) s)

/-- AG_COPY_CLOSE: the last block of a die lands inside the AFTERGLOW window; every block not copied before is copied now. -/
def copyCloses (j die : Nat) (s : State) : State :=
  match agOf s j, agDie s j die with
  | some (_, a), some d =>
    if !a.copyOpen ∨ !d.copying ∨ !windowOpen s 5 then s
    else copyEnds j (modAgDie j die (fun x => { x with copying := false, closed := true })
      (copyBlocks j die (undrifted s j die fun _ => true) s))
  | _, _ => s

/-- A copy is abandoned: its slots stay OPEN, its drift maps are cleared (R345). -/
def dropCopy (a : AgCtx) : AgCtx :=
  { a with copyOpen := false, dies := a.dies.map fun d => if d.copying then { d with copying := false, drift := [] } else d }

/-- AG_COPY_TIMEOUT: the copy, or a restore, has not ended by W of the COPY_TICKS-th tick (R345, R354). A restore that runs
out tears the job down (log 29). -/
def copyTimeout (j : Nat) (s : State) : State :=
  match agOf s j with
  | some (_, a) =>
    if s.tk.phase = .step ∨ s.tk.phase = .late ∨ s.tk.tick + 1 < a.copyFrom + a.copyTicksMax then s
    else
      let late := fun (t : State) => raise .agCopyTimeout (jobPart j) j
        (modJobAg j (fun x => { x with lastStatus := .agCopyTimeout }) t)
      if a.copyOpen then late (copyEnds j (modJobAg j dropCopy s))
      else if a.state = .restoring ∧ a.resumeTick = none then late (faultJob j .agCopyTimeout s)
      else s
  | none => s

/-! ## Seals (R349) -/

/-- The lead holds a member's seal of a cut; with every learner package's the cut is complete (R349). -/
def holdSeal (j pkg cut : Nat) (s : State) : State :=
  let s1 := modJobAg j (fun a => { a with sealFrom := a.sealFrom ++ [(pkg, cut)] }) s
  match agOf s1 j with
  | none => s1
  | some (_, a) =>
    if a.newestCut < cut ∧ (learnerDies s1 j).all (fun d => a.sealFrom.contains (d.1, cut)) then
      let step := (a.dies.findSome? fun d => (sealedSlot d fun x => decide (x.cut = cut)).map fun b => (d.slot b).j).getD
        (((getJob s1 j).map (·.j)).getD 0)
      castCtrl j (.cutComplete j cut step) (modJobAg j (fun x =>
        { x with newestCut := cut, newestJ := step, sealFrom := x.sealFrom.filter fun y => decide (cut ≤ y.2) }) s1)
    else s1

/-- Seals one die's closed slot, or makes it INVALID when its previous step is spoiled (R349). Units not written since the
cut have the slot as their source from here (R94). -/
def sealDie (j : Nat) (spoiled : List Nat) (d : AgDie) (s : State) : State :=
  match openWhich d with
  | none => s
  | some b =>
    let sl := d.slot b
    if !d.closed ∨ s.tk.tick < sl.cutTick + 1 then s
    else
      let dead := spoiled.any fun x => decide (x + 1 = sl.j)
      let sl' := if dead then { sl with state := SealState.invalid } else { sl with state := .done, sealTick := s.tk.tick }
      let s1 := writeRecord j s.wn.pkg d.die b sl' (modAgDie j d.die (fun x => { x.put b sl' with closed := false }) s)
      if dead then s1
      else forEach (learnUnits s1 j d.die).zipIdx (fun c t => match physOf t c.1.1 c.1.2 with
        | some k => modUnit k (fun u =>
            if u.written then u else { u with source := .slot sl.rd sl.region (65536 * (6 + 72 * c.2)) }) t
        | none => t) s1

/-- AG_SEAL: part of step 1 of R31. -/
def agSeal (j : Nat) (s : State) : State :=
  match agOf s j, getJob s j with
  | some (_, a), some x =>
    if s.tk.phase = .step ∨ s.tk.phase = .late ∨ !compUp s 7 then s
    else
      let s1 := forEach a.dies (sealDie j x.spoiled) s
      match agOf s1 j with
      | none => s1
      | some (_, a1) =>
        let all := a1.cutSeq ≠ 0 ∧ a1.dies ≠ [] ∧
          a1.dies.all (fun d => (sealedSlot d fun y => decide (y.cut = a1.cutSeq)).isSome)
        let before := a.dies.all (fun d => (sealedSlot d fun y => decide (y.cut = a1.cutSeq)).isSome)
        if all ∧ !before then
          let s2 := bump .agCuts (jobPart j) s1
          if leadPkg s2 j = s2.wn.pkg then holdSeal j s2.wn.pkg a1.cutSeq s2
          else sendCtrl (leadPkg s2 j) (.cutReport j s2.wn.pkg a1.cutSeq) s2
        else s1
  | _, _ => s

/-! ## The drained form (R352) -/

/-- Scale byte of a block of second moments. -/
def drainScale (vs : List Val) : Nat :=
  if vs.any fun v => !v.isFin then 255
  else
    let top := vs.foldl (fun (m : Val) v => if m.lt v.abs then v.abs else m) (.fin false 0 0)
    match top with
    | .fin _ m e =>
      if m = 0 then 0
      else
        let l := Mag.log ⟨m, 1, e⟩
        let up := if 2 ^ Nat.log2 m = m then l else l + 1
        (min 254 (max 0 (127 + up - 15))).toNat
    | _ => 255

/-- E5M2 code of a second moment under a scale byte. -/
def drainElem (scale : Nat) : Val → Nat
  | .nan => 0x7E
  | .inf s => if s then 0xFC else 0x7C
  | .fin s m e => (narrowMag 3 .rne s ⟨m, 1, e - ((scale : Int) - 127)⟩).1

/-- BF16 code that a drained element restores to. -/
def undrainElem (scale code : Nat) : Nat :=
  if scale = 255 then 0x7FC0
  else match decElem 3 code with
    | .nan => 0x7FC0
    | .inf s => if s then 0xFF80 else 0x7F80
    | .fin s m e => (narrowMag 5 .rne s ⟨m, 1, e + ((scale : Int) - 127)⟩).1

/-- Splits bytes into pieces of `n`. -/
def chunksOf (n : Nat) (l : List Byte) : List (List Byte) := (List.range (l.length / n)).map fun i => (l.drop (n * i)).take n

/-- A run of at most 64 moment records in drained form. -/
def drainGroup (recs : List (List Byte)) : List Byte :=
  let second := recs.map fun r => (List.range 32).map fun i => decElem 5 (leNat ((r.drop (64 + 2 * i)).take 2))
  let scales := second.map drainScale
  (recs.flatMap fun r => r.take 64)
    ++ ((second.zip scales).flatMap fun x => x.1.map fun v => BitVec.ofNat 8 (drainElem x.2 v))
    ++ scales.map (BitVec.ofNat 8)

/-- A moment region in drained form, padded to whole blocks (log 28). -/
def drainMoments (bytes : List Byte) : List Byte :=
  let recs := chunksOf 128 bytes
  let out := (List.range ((recs.length + 63) / 64)).flatMap fun g => drainGroup ((recs.drop (64 * g)).take 64)
  sliceZ out 0 ((out.length + 65535) / 65536 * 65536)

/-- Bytes of a moment region of `n` records in drained form. -/
def drainedLength (n : Nat) : Nat := (n * 97 + 65535) / 65536 * 65536

/-- Restores the records of a drained moment region. -/
def undrainMoments (n : Nat) (bytes : List Byte) : List Byte :=
  (List.range ((n + 63) / 64)).flatMap fun g =>
    let k := min 64 (n - 64 * g)
    let b := bytes.drop (6208 * g)
    (List.range k).flatMap fun r =>
      let scale := ((b.drop (96 * k + r)).headD 0#8).toNat
      (b.drop (64 * r)).take 64
        ++ ((b.drop (64 * k + 32 * r)).take 32).flatMap fun c => leBytes 2 (undrainElem scale c.toNat)

/-- Lengths of a die's moment regions. -/
def momentLens (s : State) (j die : Nat) : List Nat :=
  (dieMoments s j die).map fun r => ((regionOf s r.1 r.2).map Region.len).getD 0

/-- Bytes of a die's Stratus blocks. -/
def stratusLen (s : State) (j die : Nat) : Nat := match dieStratus s j die with
  | some r => 65536 * regionBlocks s r
  | none => 0

/-- First bytes of consecutive pieces of given lengths. -/
def offsetsOf : Nat → List Nat → List (Nat × Nat)
  | _, [] => []
  | o, n :: t => (o, n) :: offsetsOf (o + n) t

/-- Rounds up to whole blocks. -/
def toBlocks (n : Nat) : Nat := (n + 65535) / 65536 * 65536

/-- The drained form of a sealed slot (R352). -/
def drainImageBytes (s : State) (j die : Nat) (b : Bool) (sl : SlotSt) : List Byte :=
  let units := (learnUnits s j die).length
  let m0 := 65536 * (6 + 72 * units)
  let lens := momentLens s j die
  let dsl := { sl with drained := true }
  sealRecord (sealWords j s.wn.pkg die b dsl) (slotBytes s sl 128 1024) ++ slotBytes s sl 128 (131072 - 128)
    ++ slotBytes s sl 131072 262144
    ++ ((List.range units).flatMap fun u => slotBytes s sl (65536 * (6 + 72 * u)) (65536 * 64))
    ++ (((offsetsOf m0 (lens.map toBlocks)).zip lens).flatMap fun x => drainMoments (slotBytes s sl x.1.1 x.2))
    ++ slotBytes s sl (m0 + (lens.map toBlocks).sum) (stratusLen s j die)

/-- The 512 KiB of lane 64 that 64 lanes of BF16 weights give (R79, R302). -/
def sumsOf (lanes : List (List Byte)) : List Byte :=
  (List.range 32768).flatMap fun k =>
    leBytes 4 (canonSum (lanes.map fun l => widen 5 (leNat ((l.drop (2 * k)).take 2)))).toNat

/-- The slot contents that a drained image expands to (R352, R357). -/
def expandImage (s : State) (j die : Nat) (img : List Byte) : List Byte :=
  let units := (learnUnits s j die).length
  let lens := momentLens s j die
  let m0 := 393216 + 4194304 * units
  let dl := lens.map fun n => drainedLength (n / 128)
  (img.take 393216)
    ++ ((List.range units).flatMap fun u =>
        let lanes := chunksOf 65536 ((img.drop (393216 + 4194304 * u)).take 4194304)
        lanes.flatMap id ++ sumsOf lanes)
    ++ (((offsetsOf m0 dl).zip lens).flatMap fun x => sliceZ (undrainMoments (x.2 / 128) (img.drop x.1.1)) 0 (toBlocks x.2))
    ++ sliceZ (img.drop (m0 + dl.sum)) 0 (stratusLen s j die)

/-- Expands a drained image into slot A of a die, which holds its cut SEALED from there (R357, R362). -/
def expandInto (j die : Nat) (img : List Byte) (s : State) : State :=
  match agDie s j die with
  | none => s
  | some d =>
    let w := fun i => leNat ((img.drop (8 * i)).take 8)
    let n := (slotBlocks s j die).length
    let sl : SlotSt :=
      { d.slotA with state := .done, drained := false, cut := w 1, j := w 2, cutTick := w 3, policyEpoch := w 4 % 2 ^ 48,
                     sealTick := w 5, blocks := n }
    let s1 := writePlace sl.rd sl.region 0 (expandImage s j die img) s
    writeRecord j s.wn.pkg die false sl (modAgDie j die (fun x => { x with slotA := sl }) s1)

/-! ## The drain (R351, R353) -/

/-- Starts the drain of a cut. -/
def startDrain (j cut : Nat) (s : State) : State :=
  modJobAg j (fun a => { a with narrowing := true, drainFrom := s.tk.tick, drainCut := cut, drainSeen := cut, drainAt := none,
                                dies := a.dies.map fun d => { d with narrowed := false } }) s

/-- Whether a drain of some member has neither sealed nor failed, as far as this package knows (R351): its own, one that is to
start, or, until DRAIN_TICKS have passed, one of a member whose buddy has not sealed all its dies. -/
def drainLive (s : State) (j : Nat) (a : AgCtx) : Bool :=
  a.narrowing || a.draining || a.drainAt.isSome
    || (decide (a.drainCut ≠ 0) && decide (s.tk.tick < a.drainFrom + a.drainTicksMax)
        && ((learnerDies s j).filter fun d => decide (d.1 ≠ s.wn.pkg)).any fun d =>
          decide (a.recoveryCut < a.drainCut) && !a.buddySeals.contains (d.1, d.2, a.drainCut))

/-- A drain that the lead has named starts at the intake edge of its tick (R351). -/
def drainDue (j : Nat) (a : AgCtx) (s : State) : State := match a.drainAt with
  | some (cut, t) => if t ≤ s.tk.tick then startDrain j cut s else s
  | none => s

/-- AG_DRAIN_START (R351): at the intake edge after a cut is complete; in a job that spans packages the lead names the start, two
ticks ahead (log 115). -/
def drainStart (j : Nat) (s : State) : State :=
  match agOf s j with
  | none => s
  | some (_, a) =>
    if s.tk.phase ≠ .step then s
    else if leadPkg s j = s.wn.pkg then
      if s.tk.phase = .step ∧ a.drainSeen < a.newestCut then
        if a.drainEvery = 0 ∨ a.newestCut % max 1 a.drainEvery ≠ 0 ∨ drainLive s j a then
          bump .agDrainSkipped (jobPart j) (modJobAg j (fun x => { x with drainSeen := a.newestCut }) s)
        else if otherPkgs s j = [] then startDrain j a.newestCut s
        else castCtrl j (.drainStart j a.newestCut (s.tk.tick + 2)) (modJobAg j (fun x =>
          { x with drainSeen := a.newestCut, drainAt := some (a.newestCut, s.tk.tick + 2) }) s)
      else drainDue j a s
    else drainDue j a s

/-- A drain fails (R353). -/
def failDrain (j : Nat) (st : Status) (s : State) : State :=
  raise st (jobPart j) j (modJobAg j (fun a => { a with narrowing := false, draining := false, lastStatus := st }) s)

/-- Whether bytes of a slot can be read. -/
def slotReadable (s : State) (sl : SlotSt) (n : Nat) : Bool := match readPlace s ⟨sl.rd, sl.region, 0⟩ n with
  | .ok _ => true
  | .error _ => false

/-- Head of an Afterglow message. -/
def agHead (j die : Nat) : Head := ⟨j, 0, 0, die, 0, 0, 0, 0, 0, 0, 0, true⟩

/-- AG_NARROW_DONE: a die's image is narrowed inside the AFTERGLOW window and goes to the buddy (R351). -/
def narrowDone (j die : Nat) (s : State) : State :=
  match agOf s j, agDie s j die with
  | some (_, a), some d =>
    match sealedSlot d fun x => decide (x.cut = a.drainCut) with
    | none => s
    | some b =>
      let sl := d.slot b
      if !a.narrowing ∨ d.narrowed ∨ !windowOpen s 5 then s
      else if !slotReadable s sl (65536 * sl.blocks) then
        failDrain j .agDrainFailed (noteRead ⟨sl.rd, sl.region, 0⟩ (65536 * sl.blocks) s)
      else
        let img := drainImageBytes s j die b sl
        let di := { d.drainImage with state := SealState.done, drained := true, cut := sl.cut, j := sl.j, cutTick := sl.cutTick }
        let s1 := writePlace di.rd di.region 0 img (modAgDie j die (fun x => { x with narrowed := true, drainImage := di }) s)
        let s2 := sendMsg a.buddyPkg 7 5 die 56 { agHead j die with seq := sl.cut } img s1
        let s3 := modJobAg j (fun x =>
          let all := x.dies.all (·.narrowed)
          { x with narrowing := !all, draining := all }) s2
        if (agOf s3 j).any (fun x => x.2.draining) then castCtrl j (.narrowReport j s3.wn.pkg a.drainCut) s3 else s3
  | _, _ => s

/-- AG_DRAIN_TIMEOUT (R353). -/
def drainTimeout (j : Nat) (failed : Bool) (s : State) : State :=
  match agOf s j with
  | some (_, a) =>
    if !a.narrowing ∧ !a.draining then s
    else if failed then failDrain j .agDrainFailed s
    else if a.drainFrom + a.drainTicksMax ≤ s.tk.tick then failDrain j .agDrainTimeout s
    else s
  | none => s

/-- A buddy has sealed a die's slot of a cut: the member's drain ends with its last die, and the lead records the recovery
cut once every learner die of every member is held (R353). -/
def holdBuddy (j pkg die cut : Nat) (s : State) : State :=
  let s1 := modJobAg j (fun a => { a with buddySeals := a.buddySeals ++ [(pkg, die, cut)] }) s
  match agOf s1 j with
  | none => s1
  | some (_, a) =>
    let mine := a.draining && a.dies.all fun d => a.buddySeals.contains (s1.wn.pkg, d.die, a.drainCut)
    let s2 := if mine then bump .agDrains (jobPart j) (modJobAg j (fun x => { x with draining := false }) s1) else s1
    let dies := learnerDies s2 j
    if leadPkg s2 j = s2.wn.pkg ∧ a.recoveryCut < cut ∧ dies.all (fun d => a.buddySeals.contains (d.1, d.2, cut)) then
      modJobAg j (fun x =>
        { x with recoveryCut := cut, buddySeals := x.buddySeals.filter fun y => decide (cut ≤ y.2.2) }) s2
    else s2

/-- Changes a buddy slot pair. -/
def modBuddy (j pkg die : Nat) (f : Buddy → Buddy) (s : State) : State :=
  modJobAg j (fun a => { a with buddies := a.buddies.map fun b => if b.pkg = pkg ∧ b.die = die then f b else b }) s

/-- The buddy slot that holds a cut SEALED. -/
def buddySlot (b : Buddy) (cut : Nat) : Option SlotSt :=
  if b.slotA.state = .done ∧ b.slotA.cut = cut then some b.slotA
  else if b.slotB.state = .done ∧ b.slotB.cut = cut then some b.slotB
  else none

/-- Drain data of a member's die arrive here as its buddy (R353): messages come in order; the first opens the slot that does
not hold the newest seal, the last seals it when every one has passed its CRC. While a slot is OPEN, BLOCKS counts the
64-byte lines that have landed. -/
def buddyIn (j cut off : Nat) (data : List Byte) (last ok : Bool) (b : Buddy) (s : State) : State :=
  let w := targetSlot b.slotA b.slotB
  let sl0 := if w then b.slotB else b.slotA
  let sl1 : SlotSt := if off = 0 then { sl0 with state := .opened, drained := true, cut := cut, sealTick := 0, blocks := 0 } else sl0
  let put := fun (x : SlotSt) (t : State) => modBuddy j b.pkg b.die (fun y => if w then { y with slotB := x } else { y with slotA := x }) t
  if sl1.state ≠ .opened ∨ sl1.cut ≠ cut ∨ off ≠ 64 * sl1.blocks ∨ !ok then put { sl1 with cut := 0 } s
  else
    let s1 := writePlace sl1.rd sl1.region off data s
    let sl2 := { sl1 with blocks := sl1.blocks + (data.length + 63) / 64 }
    if !last then
      let open_ := { sl2 with j := leNat (slotBytes s1 sl2 16 8), cutTick := leNat (slotBytes s1 sl2 24 8) }
      put sl2 (if off = 0 then writeRecord j b.pkg b.die w { open_ with blocks := leNat (slotBytes s1 sl2 48 8) / 2 ^ 16 } s1 else s1)
    else
      let sl3 := { sl2 with state := SealState.done, j := leNat (slotBytes s1 sl2 16 8), cutTick := leNat (slotBytes s1 sl2 24 8),
                            policyEpoch := leNat (slotBytes s1 sl2 32 8) % 2 ^ 48, sealTick := s.tk.tick,
                            blocks := leNat (slotBytes s1 sl2 48 8) / 2 ^ 16 }
      let s2 := writeRecord j b.pkg b.die w sl3 (put sl3 s1)
      let s3 := sendCtrl b.pkg (.buddySeal j b.pkg b.die cut) s2
      if leadPkg s3 j = s3.wn.pkg then holdBuddy j b.pkg b.die cut s3
      else if leadPkg s3 j = b.pkg then s3
      else sendCtrl (leadPkg s3 j) (.buddySeal j b.pkg b.die cut) s3

/-- AFTERGLOW_MSG (R353, R357): drain data for a buddy slot here; a message without data asks for that slot again; data of a
die of this package is its fetched buddy slot, expanded into slot A with the last message (log 28). -/
def afterglowIn (j pkg die cut off : Nat) (data : List Byte) (last ok : Bool) (s : State) : State :=
  match agOf s j with
  | none => s
  | some (_, a) =>
    if pkg = s.wn.pkg then
      match agDie s j die with
      | none => s
      | some d =>
        if a.state ≠ .restoring ∨ !ok then s
        else
          let s1 := writePlace d.drainImage.rd d.drainImage.region off data s
          if last then expandInto j die (slotBytes s1 d.drainImage 0 (off + data.length)) s1 else s1
    else match a.buddies.find? fun b => decide (b.pkg = pkg) && decide (b.die = die) with
      | none => s
      | some b =>
        if data = [] then match buddySlot b cut with
          | some sl => match regionOf s sl.rd sl.region with
            | some e => sendMsg pkg 7 5 56 die { agHead j die with seq := cut } (regionBytes s sl.rd e 0 e.len) s
            | none => s
          | none => s
        else buddyIn j cut off data last ok b s

/-! ## The commands -/

/-- AG_COPY_OPEN (R345). -/
def execAgCopyOpen (j : Nat) (s : State) : Host.Outcome State Fault Refusal := running s (copyOpens j)

/-- AG_COPY_CLOSE (R346). -/
def execAgCopyClose (j die : Nat) (s : State) : Host.Outcome State Fault Refusal := running s (copyCloses j die)

/-- AG_COPY_TIMEOUT (R345). -/
def execAgCopyTimeout (j : Nat) (s : State) : Host.Outcome State Fault Refusal := running s (copyTimeout j)

/-- AG_SEAL (R349). -/
def execAgSeal (j : Nat) (s : State) : Host.Outcome State Fault Refusal := running s (agSeal j)

/-- AG_DRAIN_START (R351). -/
def execAgDrainStart (j : Nat) (s : State) : Host.Outcome State Fault Refusal := running s (drainStart j)

/-- AG_NARROW_DONE (R351). -/
def execAgNarrowDone (j die : Nat) (s : State) : Host.Outcome State Fault Refusal := running s (narrowDone j die)

/-- AG_DRAIN_TIMEOUT (R353). -/
def execAgDrainTimeout (j : Nat) (failed : Bool) (s : State) : Host.Outcome State Fault Refusal :=
  running s (drainTimeout j failed)

/-- AFTERGLOW_MSG (R353). -/
def execAfterglowMsg (j pkg die cut off : Nat) (data : List Byte) (last crcOk : Bool) (s : State) :
    Host.Outcome State Fault Refusal := running s (afterglowIn j pkg die cut off data last crcOk)

end Sys2Proof.Machine
end

