-- ==== Sys2Proof/Machine/Cancel.lean ====
section
/-!
DEFINITION. Request records as they arrive (R186): a SUBMIT waits in the intake FIFO, a CANCEL acts in its arrival cycle (R213,
R214).
-/

namespace Sys2Proof.Machine

/-- Rings whose WRITE_INDEX has advanced have their header written once (R288). -/
def ringHeaders (old : State) (s : State) : State :=
  forEach (s.lrn.rings.filter fun r => decide ((tabFind r.1 old.lrn.rings).map ExpRing.write ≠ some r.2.write)) (fun r => expHeader r.1) s

/-- The END records of a job's experience rings that have come with a token are written after it (R288). -/
def flushExpEnds (j : Nat) (s : State) : State :=
  match learnOf s j with
  | some l => ringHeaders s (expEndsOut l.expEnds (modLearn j (fun x => { x with expEnds := [] }) s))
  | none => s

/-- Cancels a live request: its outcome, and the state (R214). `commitWins` when the cancel came in the commit-point cycle in
which a token of the request was delivered. -/
def cancelReq (r : Req) (commitWins : Bool) (s : State) : Status × State :=
  match r.ended with
  | some (k, _, _) => (if k = .cancelled then .alreadyCancelled else .alreadyComplete, s)
  | none =>
    let s1 := if r.state = .queued ∨ r.step.isNone then s else dropStep r .cancelled s
    if commitWins then
      (.ok, flushRing none r.job (waitRecs r.job [endRec r .cancelled 0 .cancelled]
        (flushExpEnds r.job (endReq r.part r.id .cancelled 0 .cancelled false s1))))
    else (.ok, endReq r.part r.id .cancelled 0 .cancelled true s1)

/-- The first outcome OK of a cancel by tag, else its first outcome, else REQ_UNKNOWN (log 20). -/
def tagOutcome (l : List Status) : Status := if l.contains .ok then .ok else l.headD .reqUnknown

/-- A CANCEL record of a partition (R186, R213, R214); its ACK record is written at the next intake edge. -/
def doCancel (p : Nat) (c : Card) (atPoint : Bool) (s : State) : State :=
  let inCommit := atPoint && decide (s.tk.phase = .late)
  let one := fun (r : Req) (t : State) =>
    cancelReq r (inCommit && decide (r.lastTick = t.tk.tick) && decide (r.tokens ≠ 0)) t
  let (st, s1) : Status × State :=
    if rqCancelReserved c then (.reservedNonzero, s)
    else if rqId c ≠ 0 then
      match findReq s p (rqId c) with
      | some r => one r s
      | none => match (getPart s p).ended.find? fun e => decide (e.1 = rqId c) with
        | some e => (if e.2 = .cancelled then .alreadyCancelled else .alreadyComplete, s)
        | none => (.reqUnknown, s)
    else
      let hit := fun (x : Card × Nat × Bool) => !x.2.2 && decide (rqJob x.1 = rqJob c) && decide (rqTag x.1 = rqTag c)
      let gone := (getPart s p).intake.any fun x => x.2.2 && decide (rqJob x.1 = rqJob c) && decide (rqTag x.1 = rqTag c)
      let n := ((getPart s p).intake.filter hit).length
      let s0 := modPart p (fun y => { y with intake := y.intake.map fun x => if hit x then (x.1, x.2.1, true) else x }) s
      let rs := s.gen.reqs.filter fun r => decide (r.part = p) && decide (r.job = rqJob c) && decide (rqTag r.card = rqTag c)
      let (outs, s2) := rs.foldl (fun acc r => let (o, t) := one r acc.2; (acc.1 ++ [o], t))
        (if n = 0 then [] else [Status.ok], s0)
      (tagOutcome (outs ++ if gone then [.alreadyCancelled] else []), s2)
  putAck p (rqJob c) (rqId c) st (rqTag c) none s1

/-- A CANCEL finds a credit only while the intake FIFO has room (R40, R186). -/
def cancelCmd (p : Nat) (c : Card) (atPoint : Bool) (s : State) : State :=
  if rqKind c ≠ 1 then s
  else if (getPart s p).intakeCredits ≠ 0 then doCancel p c atPoint s
  else emit (.postRefused .noCredit 1 p) s

/-- A SUBMIT arrives at a partition's intake FIFO (R186); without a credit the post is refused with NO_CREDIT (R40). -/
def submitCmd (p : Nat) (c : Card) (ns : Nat) (s : State) : State :=
  if rqKind c = 1 then cancelCmd p c false s
  else if (getPart s p).intakeCredits ≠ 0 then
    modPart p (fun y => { y with intake := y.intake ++ [(c, s.tk.startNs + ns, false)], intakeCredits := y.intakeCredits - 1 }) s
  else emit (.postRefused .noCredit 1 p) s

/-! ## The commands -/

/-- REQ_ARRIVE (R186). -/
def execReqArrive (p : Nat) (r : Card) (ns : Nat) (s : State) : Host.Outcome State Fault Refusal :=
  running s (submitCmd p r ns)

/-- CANCEL (R214). -/
def execCancel (p : Nat) (r : Card) (atPoint : Bool) (s : State) : Host.Outcome State Fault Refusal :=
  running s (cancelCmd p r atPoint)

end Sys2Proof.Machine
end

