-- ==== Sys2Proof/Machine/Sampler.lean ====
section
/-!
DEFINITION. The sampler engine (R151, R205 to R208): SCAN and FINAL cards.
-/

namespace Sys2Proof.Machine

/-! ## The logarithm and the Gumbel noise (R151) -/

/-- Terms of the series of atanh z in fixed point of 256 bits, `p` = z^(2i+1). -/
def atanhSeries (z2 : Nat) : Nat → Nat → Nat → Nat
  | 0, _, _ => 0
  | k + 1, i, p => p / (2 * i + 1) + atanhSeries z2 k (i + 1) (p * z2 / 2 ^ 256)

/-- L[t]: ln(1 + t / 1,024) rounded to FP32. -/
def lnEnd (t : Nat) : W32 :=
  let z := t * 2 ^ 256 / (2048 + t)
  (mag32 .rne false ⟨2 * atanhSeries (z * z / 2 ^ 256) 90 0 z, 1, -256⟩).1

/-- ln by the table of 1,024 segments, for a positive finite argument; −∞ of zero. -/
def fLn (x : W32) : W32 :=
  match val32 x with
  | .nan => nan32
  | .inf s => if s then nan32 else x
  | .fin s m e =>
    if m = 0 then negInf32
    else if s then nan32
    else
      let l := Nat.log2 m
      let t := m * 1024 / 2 ^ l - 1024
      let r := to32 (.fin false (m * 1024 % 2 ^ l) (-(l : Int)))
      let b := fFma (fSub (lnEnd (t + 1)) (lnEnd t)) r (lnEnd t)
      fFma (fOfInt (e + (l : Int))) (lnEnd 1024) b

/-- The noise g of a word y. -/
def gumbel (y : W32) : W32 :=
  let u := fMul (mag32 .zero false ⟨2 * y.toNat + 1, 1, -1⟩).1 0x2F800000#32
  let v := fNeg (fLn u)
  fNeg (fLn (if fLt 0#32 v then v else 1#32))

/-- Noise of the tokens of one sampler tile, by token index in the tile. -/
def tileNoise (seed : W64) (position vtile : Nat) : List W32 :=
  let cols := (List.range 64).map fun j => (drawMany 64 (seedState (rngKey seed 0 0) (sampleStream position vtile j))).1
  (List.range 4096).map fun k => gumbel ((cols.getD (k % 64) []).getD (k / 64) 0#32)

/-! ## Fields (R206) -/

/-- SRC. -/
def smSrc (c : Card) : Nat := fld c.w2 15 0

/-- VT0. -/
def smVt0 (c : Card) : Nat := fld c.w2 21 16

/-- NT. -/
def smNt (c : Card) : Nat := fld c.w2 26 22

/-- MASKED. -/
def smMasked (c : Card) : Bool := flag c.w2 27

/-- MASK. -/
def smMask (c : Card) : Nat := fld c.w2 47 32

/-- DST. -/
def smDst (c : Card) : Nat := fld c.w2 63 48

/-- SLOT. -/
def smSlot (c : Card) : Nat := fld c.w3 15 0

/-- VOCAB of a SCAN. -/
def smVocab (c : Card) : Nat := fld c.w3 34 16

/-- PSTRIDE of a FINAL. -/
def smStride (c : Card) : Nat := fld c.w2 31 16

/-- PARTS of a FINAL. -/
def smParts (c : Card) : Nat := fld c.w2 33 32

/-- VOCAB of the card's job. -/
def jobVocab (s : State) (j : Nat) : Nat := match genOf s j with
  | some g => g.vocab
  | none => 0

/-- Tokens of a SCAN that have scores: from the first of its tiles to VOCAB or the end of its tiles. -/
def scanTokens (c : Card) : Nat := max 1 (min (smVocab c) (4096 * (smVt0 c + smNt c)) - 4096 * smVt0 c)

/-- Checks at post of a sampler card (R206). -/
def samplerCheck (s : State) (c : Card) : Chk :=
  if c.opcode = 0 then
    firstBad [
      poolRange (smSrc c) ((scanTokens c + 15) / 16), poolRange (smDst c) 257,
      (if smMasked c then poolRange (smMask c + 8 * smVt0 c) ((scanTokens c + 511) / 512) else none),
      badField (decide (smNt c = 0) || decide (27 < smNt c)) 2 22,
      bad (stepping s c.job (smSlot c)).isNone .kvSlotInvalid,
      badField (decide (smVocab c ≠ jobVocab s c.job)) 3 16,
      badField (decide ((smVocab c + 4095) / 4096 < smVt0 c + smNt c)) 2 22]
  else
    firstBad [
      firstBad ((List.range (smParts c)).map fun i => poolRange (smSrc c + i * smStride c) 257), poolRange (smDst c) 1,
      badField (decide (smParts c = 0)) 2 32,
      bad (stepping s c.job (smSlot c)).isNone .kvSlotInvalid]

/-! ## What a card takes from the slot's record -/

/-- GREEDY applies (R205). -/
def rqGreedy (c : Card) : Bool := decide ((rqTemp c).toNat % 2 ^ 31 = 0)

/-- Top-k or top-p applies, so that SCAN keeps candidates: H is 257 (R206). -/
def rqKeeps (c : Card) : Bool := decide (rqTopK c ≠ 0) || fLt (rqTopP c) 0x3F800000#32

/-- Position being generated: the one after the step's positions (R193, log 21). -/
def stepPosition (r : Req) : Nat := match r.step with
  | some (a, n) => a + n
  | none => r.pos

/-! ## SCAN -/

/-- A candidate: token, s, g. -/
structure Cand where
  idx : Nat
  score : W32
  noise : W32
deriving DecidableEq, Repr

/-- Whether `a` sorts before `b`: by s descending, then by index ascending (R205). -/
def candBefore (a b : Cand) : Bool := fLt b.score a.score || (!fLt a.score b.score && decide (a.idx < b.idx))

/-- Sorted insertion, keeping at most `n`. -/
def candIns (a : Cand) : Nat → List Cand → List Cand
  | 0, _ => []
  | _ + 1, [] => [a]
  | n + 1, b :: t => if candBefore a b then (a :: b :: t).take (n + 1) else b :: candIns a n t

/-- The `n` largest candidates in sort order. -/
def candSort (n : Nat) (l : List Cand) : List Cand := l.foldl (fun acc a => candIns a n acc) []

/-- Bit `i` of a bitmap at a pool line (R206, R209). -/
def maskBit (s : State) (cl line i : Nat) : Bool := (memByte s.mem (poolKey cl (64 * line + i / 8))).toNat / 2 ^ (i % 8) % 2 == 1

/-- s of token `i` of a SCAN (R205, steps 1 and 2). -/
def scanScore (s : State) (cl : Nat) (c : Card) (r : Req) (i : Nat) : W32 :=
  if smVocab c ≤ i ∨ (smMasked c ∧ maskBit s cl (smMask c) i = false) then negInf32
  else
    let x := memW32 s.mem (poolKey cl (64 * smSrc c + 4 * (i - 4096 * smVt0 c)))
    if rqGreedy r.card then x else fDiv x (rqTemp r.card)

/-- The candidates of one tile with a finite score. -/
def scanTile (s : State) (cl : Nat) (c : Card) (r : Req) (t : Nat) : List Cand :=
  let noise := if rqGreedy r.card then [] else tileNoise (rqSeed r.card) (stepPosition r) t
  ((List.range 4096).map fun k =>
      (⟨4096 * t + k, scanScore s cl c r (4096 * t + k), noise.getD k 0#32⟩ : Cand)).filter fun a => fFin a.score

/-- The tile's sum of exp(s_i − M), a canonical_sum over token index; a masked token adds +0 (R207). -/
def tileSum (m : W32) (t : Nat) (l : List Cand) : W32 :=
  canonSum ((List.range 4096).map fun k => match l.find? fun a => decide (a.idx = 4096 * t + k) with
    | some a => fExp (fSub a.score m)
    | none => 0#32)

/-- Key of a candidate (R151, R205). -/
def candKey (greedy : Bool) (a : Cand) : W32 := if greedy then a.score else fAdd a.score a.noise

/-- The candidate with the largest key; among equal keys the lowest index, candidates in ascending index. -/
def bestCand (greedy : Bool) (l : List Cand) : Option Cand :=
  l.foldl (fun b a => match b with
    | none => some a
    | some x => if fLt (candKey greedy x) (candKey greedy a) then some a else b) none

/-- Bytes of one candidate entry (R207). -/
def candBytes (a : Cand) : List Byte :=
  w64Bytes [BitVec.ofNat 64 (a.idx + a.score.toNat * 2 ^ 32), BitVec.ofNat 64 a.noise.toNat]

/-- Header of a candidate block (R207). -/
def scanHeader (vt0 nt slot position : Nat) (m sum key : W32) (idx count : Nat) : List W64 :=
  [BitVec.ofNat 64 (vt0 + nt * 2 ^ 6 + slot * 2 ^ 16 + position * 2 ^ 32), BitVec.ofNat 64 (m.toNat + sum.toNat * 2 ^ 32),
   BitVec.ofNat 64 (key.toNat + idx * 2 ^ 32), BitVec.ofNat 64 count]

/-- What a SCAN computes: the work, and the sampler's note on its block. -/
def scanWork (cl : Nat) (s : State) (c : Card) (r : Req) : Work × ScanNote :=
  let greedy := rqGreedy r.card
  let tiles := (List.range (smNt c)).map fun i => (smVt0 c + i, scanTile s cl c r (smVt0 c + i))
  let all := tiles.flatMap (·.2)
  let m := all.foldl (fun b a => if fLt b a.score then a.score else b) negInf32
  let sum := if all = [] then 0#32 else canonSum (tiles.map fun t => tileSum m t.1 t.2)
  let best := bestCand greedy all
  let key := match best with
    | some a => candKey greedy a
    | none => negInf32
  let cands := if rqKeeps r.card then candSort 1024 all else []
  let hd := scanHeader (smVt0 c) (smNt c) (smSlot c) (stepPosition r) m sum key
    (match best with
     | some a => a.idx
     | none => 0) cands.length
  let rest := if rqKeeps r.card then
      cands.flatMap candBytes ++ List.replicate (16 * (1024 - cands.length)) 0#8
    else []
  (⟨.ok, Flags.none, bytesAt (poolKey cl (64 * smDst c)) (w64Bytes (hd ++ List.replicate 4 0#64) ++ rest),
    39 + 264 * smNt c + if rqKeeps r.card then 257 else 1⟩,
   ⟨hd, all.length, match best with
     | some a => a.score
     | none => negInf32⟩)

/-- Length of a SCAN. -/
def scanLength (s : State) (c : Card) : Nat :=
  39 + 264 * smNt c + match stepping s c.job (smSlot c) with
    | some r => if rqKeeps r.card then 257 else 1
    | none => 1

/-- Work of a card whose slot does not step any more. -/
def slotGone (t : Nat) : Work := ⟨.kvSlotInvalid, Flags.none, [], t⟩

/-- What a SCAN of a slot that steps, or does no more, computes; the sampler keeps the note on its block. -/
def scanStep (cl : Nat) (s : State) (q : QCard) : Work × State :=
  match stepping s q.card.job (smSlot q.card) with
  | none => (slotGone (scanLength s q.card), s)
  | some r =>
    let (w, n) := scanWork cl s q.card r
    (w, modCl cl (fun c => { c with scans := tabIns (smDst q.card) n c.scans }) s)

/-- Issues a SCAN. -/
def issueScan (cl : Nat) (s : State) : State := issueWork cl 4 0 (fun t q => 1000 * scanLength t q.card) (scanStep cl) s

/-! ## FINAL -/

/-- A candidate block as FINAL reads it. -/
structure Block where
  line : Nat
  header : List W64
  note : Option ScanNote

/-- A word of a block's header. -/
def Block.word (b : Block) (i : Nat) : W64 := b.header.getD i 0#64

/-- M of a block. -/
def Block.max (b : Block) : W32 := (b.word 1).truncate 32

/-- S of a block. -/
def Block.sum (b : Block) : W32 := (b.word 1 >>> 32).truncate 32

/-- COUNT of a block, at most 1,024. -/
def Block.count (b : Block) : Nat := min 1024 (fld (b.word 3) 10 0)

/-- The blocks of a FINAL. -/
def finalBlocks (s : State) (cl : Nat) (c : Card) : List Block :=
  (List.range (smParts c)).map fun i =>
    let line := smSrc c + i * smStride c
    let hd := (List.range 4).map fun k => memW64 s.mem (poolKey cl (64 * line + 8 * k))
    ⟨line, hd, (tabFind line (getCl s cl).scans).filter fun n => decide (n.header = hd)⟩

/-- Length of a FINAL: C is the total COUNT of its blocks. -/
def finalLength (s : State) (cl : Nat) (c : Card) : Nat := 72 + 2 * ((finalBlocks s cl c).map Block.count).sum

/-- Whether the blocks cover the tiles in order and name the card's slot and position (R206). -/
def blocksCover (vocab slot position : Nat) : Nat → List Block → Bool
  | n, [] => decide (n = (vocab + 4095) / 4096)
  | n, b :: t =>
    decide (fld (b.word 0) 5 0 = n) && decide (fld (b.word 0) 10 6 ≠ 0) && decide (fld (b.word 0) 31 16 = slot)
      && decide (fld (b.word 0) 49 32 = position) && decide (fld (b.word 3) 10 0 ≤ 1024)
      && blocksCover vocab slot position (n + fld (b.word 0) 10 6) t

/-- Candidates of a block. -/
def blockCands (s : State) (cl : Nat) (b : Block) : List Cand :=
  (List.range b.count).map fun i =>
    let k := poolKey cl (64 * (b.line + 1) + 16 * i)
    ⟨fld (memW64 s.mem k) 17 0, (memW64 s.mem k >>> 32).truncate 32, (memW64 s.mem (k + 8)).truncate 32⟩

/-- The shortest prefix whose cumulative probability reaches `p` (R205, step 4). -/
def topPrefix (p sum smax : W32) : W32 → List Cand → List Cand
  | _, [] => []
  | cum, a :: t =>
    let c := fAdd cum (fDiv (fExp (fSub a.score smax)) sum)
    if fLe p c then [a] else a :: topPrefix p sum smax c t

/-- Sum of exp(s − s_max) over sorted survivors, in sort order. -/
def sortedSum (smax : W32) (l : List Cand) : W32 := l.foldl (fun a c => fAdd a (fExp (fSub c.score smax))) 0#32

/-- The final survivors of top-k and top-p over sorted candidates. -/
def survivors (c : Card) (l : List Cand) : List Cand :=
  let a := l.take (if rqTopK c ≠ 0 then rqTopK c else 1024)
  match a with
  | [] => []
  | x :: _ => if fLt (rqTopP c) 0x3F800000#32 then topPrefix (rqTopP c) (sortedSum x.score a) x.score 0#32 a else a

/-- The token result of FINAL for a request `r`: status, and the two words. `v` is a free value for what a candidate block
that no SCAN of this cluster has left does not tell (log 18). -/
def finalResult (s : State) (cl : Nat) (r : Card) (v : W64) (blocks : List Block) : Status × List W64 :=
  let m := blocks.foldl (fun b x => if fLt b x.max then x.max else b) negInf32
  if fFin m = false then (.smMaskEmpty, [])
  else
    let sum := canonSum (blocks.map fun b => fMul b.sum (fExp (fSub b.max m)))
    let greedy := rqGreedy r
    let finite := (blocks.map fun b => match b.note with
      | some n => n.finite
      | none => if b.count = 1024 ∧ flag v 63 then 1025 else b.count).sum
    let full := fun (score : W32) => fSub (fSub score m) (fLn sum)
    let out := fun (tok : Nat) (trunc : Bool) (lpf lps : W32) =>
      (Status.ok, [BitVec.ofNat 64 (tok + (if trunc then 2 ^ 18 else 0) + if greedy then 2 ^ 19 else 0),
                   BitVec.ofNat 64 (lpf.toNat + lps.toNat * 2 ^ 32)])
    if rqKeeps r then
      let sv := survivors r (candSort 3072 (blocks.flatMap (blockCands s cl)))
      match sv with
      | [] => (.smMaskEmpty, [])
      | x :: _ =>
        let trunc := decide (sv.length < finite)
        let pick := sv.foldl (fun b a =>
          if fLt (candKey greedy b) (candKey greedy a) ∨ (candKey greedy a = candKey greedy b ∧ a.idx < b.idx) then a else b) x
        let lpf := full pick.score
        let lps := if greedy then 0#32 else if trunc then fSub (fSub pick.score x.score) (fLn (canonSum (sv.map fun c => fExp (fSub c.score x.score)))) else lpf
        out pick.idx trunc lpf lps
    else
      let best := blocks.foldl (fun b x =>
        match b with
        | none => some x
        | some y =>
          if fLt ((y.word 2).truncate 32) ((x.word 2).truncate 32) then some x else b) (none : Option Block)
      match best with
      | none => (.smMaskEmpty, [])
      | some b =>
        let score := match b.note with
          | some n => n.bestScore
          | none => if greedy then (b.word 2).truncate 32 else v.truncate 32
        let lpf := full score
        out (fld (b.word 2) 49 32) false lpf (if greedy then 0#32 else lpf)

/-- What a FINAL computes; it checks its blocks at issue (R206). -/
def finalStep (cl : Nat) (s : State) (q : QCard) : Work × State :=
  let len := finalLength s cl q.card
  match stepping s q.card.job (smSlot q.card) with
  | none => (slotGone len, s)
  | some r =>
    let blocks := finalBlocks s cl q.card
    if blocksCover (jobVocab s q.card.job) (smSlot q.card) (stepPosition r) 0 blocks = false then
      (⟨.smScanMismatch, Flags.none, [], len⟩, s)
    else
      let (v, t) := if blocks.all fun b => b.note.isSome then (0#64, s) else takeFree s
      let (st, ws) := finalResult s cl r.card v blocks
      (⟨st, Flags.none,
        if st = .ok then bytesAt (poolKey cl (64 * smDst q.card)) (w64Bytes (ws ++ List.replicate 6 0#64)) else [], len⟩, t)

/-- Issues a FINAL. -/
def issueFinal (cl : Nat) (s : State) : State := issueWork cl 4 1 (fun t q => 1000 * finalLength t cl q.card) (finalStep cl) s

/-- A card that names a sequence slot retires: a failure ends the sequence (R191). -/
def retireNamed (cl key : Nat) (r : Run) (s : State) : State :=
  let s1 := retireEngine cl key r s
  if r.status = .ok ∨ r.status = .kvSlotInvalid then s1
  else match cardSlot r.card with
    | some slot => failSlot r.card.job slot r.status s1
    | none => s1

/-- SCAN (R206). -/
def execScan (cl : Nat) (s : State) : Host.Outcome State Fault Refusal := running s (issueScan cl)

/-- FINAL (R208). -/
def execFinal (cl : Nat) (s : State) : Host.Outcome State Fault Refusal := running s (issueFinal cl)

end Sys2Proof.Machine
end

