-- ==== Sys2Proof/Machine/Mask.lean ====
section
/-!
DEFINITION. The grammar mask engine (R209 to R212): INIT, MASK and ADVANCE cards.
-/

namespace Sys2Proof.Machine

/-- STATE of a mask card. -/
def gmState (c : Card) : Nat := fld c.w2 15 0

/-- GRAMMAR. -/
def gmGrammar (c : Card) : Nat := fld c.w2 19 16

/-- ALLOW. -/
def gmAllow (c : Card) : Nat := fld c.w2 23 20

/-- DST. -/
def gmDst (c : Card) : Nat := fld c.w2 47 32

/-- VOCAB. -/
def gmVocab (c : Card) : Nat := fld c.w3 18 0

/-- SLOT. -/
def gmSlot (c : Card) : Nat := fld c.w3 34 19

/-- A grammar as its tables lie in the pool (R209). -/
structure Grammar where
  start : Nat
  stackMax : Nat
  stateLine : Nat
  transLine : Nat
deriving DecidableEq, Repr

/-- The header of the grammar with a handle. -/
def grammarOf (s : State) (cl h : Nat) : Option Grammar :=
  (tabFind h (getCl s cl).grammars).map fun line =>
    let w := fun (i : Nat) => memW64 s.mem (poolKey cl (64 * line + 8 * i))
    ⟨fld (w 0) 51 36, fld (w 1) 6 0, fld (w 2) 15 0, fld (w 2) 31 16⟩

/-- A transition (R209). -/
structure Trans where
  lo : Nat
  hi : Nat
  next : Nat
  op : Nat
  cond : Bool
  push : Nat
  top : Nat
deriving DecidableEq, Repr

/-- Transition `k` of a grammar. -/
def transAt (s : State) (cl : Nat) (g : Grammar) (k : Nat) : Trans :=
  let w0 := memW64 s.mem (poolKey cl (64 * g.transLine + 16 * k))
  let w1 := memW64 s.mem (poolKey cl (64 * g.transLine + 16 * k + 8))
  ⟨fld w0 17 0, fld w0 35 18, fld w0 51 36, fld w0 53 52, flag w0 54, fld w1 15 0, fld w1 31 16⟩

/-- State entry `n` of a grammar: its transitions in table order, and ACCEPT. -/
def stateAt (s : State) (cl : Nat) (g : Grammar) (n : Nat) : List Trans × Bool :=
  let w := memW64 s.mem (poolKey cl (64 * g.stateLine + 8 * n))
  ((List.range (fld w 36 24)).map fun i => transAt s cl g (fld w 23 0 + i), flag w 37)

/-- STATE and DEPTH of a state record (R210). -/
def recState (s : State) (cl line : Nat) : Nat × Nat :=
  let w := memW64 s.mem (poolKey cl (64 * line))
  (fld w 15 0, fld w 22 16)

/-- Key of stack symbol `d` of a state record. -/
def symKey (cl line d : Nat) : Nat := poolKey cl (64 * line + 32 + 2 * d)

/-- The top of the stack, none when it is empty. -/
def stackTop (s : State) (cl line depth : Nat) : Option Nat :=
  if depth = 0 then none else some (memNat s.mem (symKey cl line (depth - 1)) 2)

/-- COND and TOPSYM of a transition hold (R212). -/
def condHolds (t : Trans) (top : Option Nat) : Bool :=
  !t.cond || decide (top = some t.top) || (decide (t.top = 0xFFFF) && top.isNone)

/-- A transition is applicable (R212). -/
def applicable (g : Grammar) (depth : Nat) (top : Option Nat) (t : Trans) : Bool :=
  condHolds t top && (!(decide (t.op = 2) || decide (t.op = 3)) || decide (1 ≤ depth))
    && (!decide (t.op = 1) || decide (depth < g.stackMax))

/-- A PUSH that holds some token and is inapplicable only for want of depth (R212). -/
def wantsDepth (g : Grammar) (depth : Nat) (top : Option Nat) (t : Trans) : Bool :=
  decide (t.op = 1) && condHolds t top && decide (g.stackMax ≤ depth) && decide (t.lo ≤ t.hi)

/-- Checks at post of a mask card (R211). -/
def maskCheck (s : State) (cl : Nat) (c : Card) : Chk :=
  let x := getCl s cl
  firstBad [
    (if gmGrammar c ≠ 0 then poolRange (gmState c) 4 else none),
    (match c.opcode with
     | 1 => poolRange (gmDst c) 512
     | 2 => poolRange (gmDst c) 1
     | _ => none),
    badField (decide (gmGrammar c = 0) && (decide (c.opcode ≠ 1) || decide (gmAllow c = 0))) 2 16,
    badField (decide (gmGrammar c ≠ 0) && (tabFind (gmGrammar c) x.grammars).isNone) 2 16,
    badField (decide (gmAllow c ≠ 0) && (tabFind (gmAllow c) x.allows).isNone) 2 20,
    badField (decide (gmVocab c ≠ jobVocab s c.job)) 3 0,
    bad (stepping s c.job (gmSlot c)).isNone .kvSlotInvalid]

/-- TCOUNT of the current state. -/
def gmCount (s : State) (cl : Nat) (c : Card) : Nat :=
  match grammarOf s cl (gmGrammar c) with
  | some g => (stateAt s cl g (recState s cl (gmState c)).1).1.length
  | none => 0

/-- Length (R211). -/
def gmLength (s : State) (cl : Nat) (c : Card) : Nat :=
  match c.opcode with
  | 0 => 12
  | 1 => 8 + gmCount s cl c + 512 + if gmAllow c = 0 then 0 else 512
  | _ => 16 + gmCount s cl c

/-- End token of the card's job. -/
def jobEos (s : State) (j : Nat) : Nat := match genOf s j with
  | some g => g.eos
  | none => 0

/-- Work of a mask card that has no grammar left to read: its handle was unloaded. -/
def gmNone (t : Nat) : Work := ⟨.cardFieldInvalid, Flags.none, [], t⟩

/-- Eight bits of a bitmap as a byte. -/
def bitsByte (f : Nat → Bool) (i : Nat) : Byte :=
  BitVec.ofNat 8 ((List.range 8).foldl (fun a b => a + if f (8 * i + b) then 2 ^ b else 0) 0)

/-- INIT (R211). -/
def initWork (cl : Nat) (s : State) (q : QCard) : Work :=
  match grammarOf s cl (gmGrammar q.card) with
  | none => gmNone 12
  | some g => ⟨.ok, Flags.none, bytesAt (poolKey cl (64 * gmState q.card)) (leBytes 8 g.start), 12⟩

/-- MASK (R211, R212). -/
def maskWork (cl : Nat) (s : State) (q : QCard) : Work :=
  let c := q.card
  let (st, depth) := recState s cl (gmState c)
  let top := stackTop s cl (gmState c) depth
  let g := grammarOf s cl (gmGrammar c)
  let (ts, acc) : List Trans × Bool := match g with
    | some x => ((stateAt s cl x st).1, (stateAt s cl x st).2)
    | none => ([], false)
  let live := match g with
    | some x => ts.filter (applicable x depth top)
    | none => []
  let gram := fun (i : Nat) => g.isNone || live.any (fun t => decide (t.lo ≤ i) && decide (i ≤ t.hi))
    || (acc && decide (i = jobEos s c.job))
  let allow := fun (i : Nat) => match tabFind (gmAllow c) (getCl s cl).allows with
    | some line => maskBit s cl line i
    | none => decide (gmAllow c = 0)
  let bytes := (List.range 32768).map (bitsByte fun i => gram i && allow i)
  let empty := bytes.all fun b => decide (b = 0#8)
  let ovf := match g with
    | some x => ts.any (wantsDepth x depth top)
    | none => false
  ⟨if empty then (if ovf then .smStackOvf else .smMaskEmpty) else .ok, Flags.none,
   bytesAt (poolKey cl (64 * gmDst c)) bytes, gmLength s cl c⟩

/-- The writes of a taken transition (R209, R210, R212). -/
def takeTrans (cl line depth : Nat) (t : Trans) : List (Nat × Byte) :=
  let d := match t.op with
    | 1 => depth + 1
    | 2 => depth - 1
    | _ => depth
  let sym := match t.op with
    | 1 => bytesAt (symKey cl line depth) (leBytes 2 t.push)
    | 3 => bytesAt (symKey cl line (depth - 1)) (leBytes 2 t.push)
    | _ => []
  bytesAt (poolKey cl (64 * line)) (leBytes 8 (t.next + d * 2 ^ 16)) ++ sym

/-- ADVANCE (R212). -/
def advanceWork (cl : Nat) (s : State) (q : QCard) : Work :=
  let c := q.card
  let t := gmLength s cl c
  match grammarOf s cl (gmGrammar c) with
  | none => gmNone t
  | some g =>
    let (st, depth) := recState s cl (gmState c)
    let (ts, acc) := stateAt s cl g st
    let tok := fld (memW64 s.mem (poolKey cl (64 * gmDst c))) 17 0
    if acc ∧ tok = jobEos s c.job then ⟨.ok, Flags.none, [], t⟩
    else match ts.find? fun x => applicable g depth (stackTop s cl (gmState c) depth) x && decide (x.lo ≤ tok)
        && decide (tok ≤ x.hi) with
      | some x => ⟨.ok, Flags.none, takeTrans cl (gmState c) depth x, t⟩
      | none => ⟨.smTokenRejected, Flags.none, [], t⟩

/-- Runs a mask card's work while its slot steps. -/
def gmStep (cl : Nat) (w : State → QCard → Work) (s : State) (q : QCard) : Work :=
  if (stepping s q.card.job (gmSlot q.card)).isNone then slotGone (gmLength s cl q.card) else w s q

/-- GM_INIT (R211). -/
def execGmInit (cl : Nat) (s : State) : Host.Outcome State Fault Refusal :=
  running s (issueEngine cl 5 0 400 (gmStep cl (initWork cl)))

/-- GM_MASK (R212). -/
def execGmMask (cl : Nat) (s : State) : Host.Outcome State Fault Refusal :=
  running s (issueEngine cl 5 1 400 (gmStep cl (maskWork cl)))

/-- ADVANCE (R212). -/
def execAdvance (cl : Nat) (s : State) : Host.Outcome State Fault Refusal :=
  running s (issueEngine cl 5 2 400 (gmStep cl (advanceWork cl)))

end Sys2Proof.Machine
end

