-- ==== Sys2Proof/Machine/Kv.lean ====
section
/-!
DEFINITION. The KV engine (R128, R215, R218): APPEND and WALK cards.
-/

namespace Sys2Proof.Machine

/-- SLOT of a KV card. -/
def kvSlot (c : Card) : Nat := fld c.w2 15 0

/-- POS. -/
def kvPos (c : Card) : Nat := fld c.w2 33 16

/-- COUNT. -/
def kvCount (c : Card) : Nat := fld c.w2 42 34

/-- KVFMT. -/
def kvFmt (c : Card) : Nat := fld c.w2 46 43

/-- SRC of an APPEND. -/
def kvSrc (c : Card) : Nat := fld c.w3 15 0

/-- DST of a WALK. -/
def kvDst (c : Card) : Nat := fld c.w3 31 16

/-- POSLINES. -/
def kvLines (c : Card) : Nat := fld c.w3 47 32

/-- Pages that the card's range touches: first index and number. -/
def kvPages (c : Card) : Nat × Nat := (kvPos c / 64, (kvPos c + kvCount c - 1) / 64 - kvPos c / 64 + 1)

/-- The map entries of the card's range. -/
def kvMap (r : Req) (c : Card) : List (Option Nat) := (List.range (kvPages c).2).map fun i => r.pages[(kvPages c).1 + i]?

/-- Length (R218). -/
def kvLength (c : Card) : Nat := if c.opcode = 0 then 8 + kvCount c * kvLines c else 16 + (kvPages c).2

/-- Checks at post of a KV card, in the order of R218. -/
def kvCheck (s : State) (c : Card) : Chk :=
  let range := if c.opcode = 0 then poolRange (kvSrc c) (kvCount c * kvLines c) else poolRange (kvDst c) (((kvPages c).2 * 8 + 63) / 64)
  match firstBad [range, badField (decide (kvCount c = 0) || decide (256 < kvCount c)) 2 34] with
  | some e => some e
  | none =>
    match stepping s c.job (kvSlot c), genOf s c.job with
    | some r, some g =>
      let (first, n) := r.step.getD (0, 0)
      let app := decide (c.opcode = 0)
      let pages := kvMap r c
      firstBad [
        badField (decide (kvFmt c ≠ g.kvFmt)) 2 43,
        badField (decide (kvLines c ≠ g.posLines)) 3 32,
        bad (decide (g.maxLen < kvPos c + kvCount c)) .kvPosRange,
        bad (app && (decide (kvPos c < first) || decide (first + n < kvPos c + kvCount c))) .kvPosOrder,
        bad (app && pages.any Option.isNone) .kvNoPage,
        bad (app && pages.any fun p => match p.bind (getPage s) with
          | some x => x.shared
          | none => false) .kvPageShared,
        bad (!app && decide (first + n < kvPos c + kvCount c)) .kvPosRange,
        tooLong (kvLength c)]
    | _, _ => bad true .kvSlotInvalid

/-- Byte of a position's lines in the KV region (R215). -/
def kvOffset (g : GenSt) (page pos : Nat) : Nat := (page - g.pageBase) * 4096 * g.posLines + pos % 64 * 64 * g.posLines

/-- APPEND: the positions' lines go to the sequence's pages on the card's die (R128, R218). -/
def appendWork (cl : Nat) (s : State) (q : QCard) : Work :=
  let c := q.card
  match stepping s c.job (kvSlot c), genOf s c.job with
  | some r, some g =>
    match kvRegion s c.job (clDie cl) with
    | none => ⟨.ok, Flags.none, [], kvLength c⟩
    | some (rd, h) => match regionOf s rd h with
      | none => ⟨.ok, Flags.none, [], kvLength c⟩
      | some e =>
        let n := kvLines c
        let at_ := fun (i : Nat) => kvOffset g ((r.pages[(kvPos c + i) / 64]?).getD 0) (kvPos c + i)
        if (List.range (kvCount c)).any fun i => anyFailed s (regionChans rd e (at_ i) n) then
          ⟨.mtChannelFailed, Flags.none, [], kvLength c⟩
        else
          ⟨.ok, Flags.none, (List.range (kvCount c)).flatMap fun i =>
            regionWrites rd e (at_ i) (memBytes s.mem (poolKey cl (64 * (kvSrc c + i * n))) (64 * n)), kvLength c⟩
  | _, _ => slotGone (kvLength c)

/-- WALK: one 8-byte entry a page, its near address on the card's die and its FILL (R218). -/
def walkWork (cl : Nat) (s : State) (q : QCard) : Work :=
  let c := q.card
  match stepping s c.job (kvSlot c), genOf s c.job with
  | some r, some g =>
    let entry := fun (p : Option Nat) => match p, kvRegion s c.job (clDie cl) with
      | some p, some (_, h) => BitVec.ofNat 64 (h * 2 ^ 40 + kvOffset g p 0 + (match getPage s p with
        | some x => x.filled
        | none => 0) * 2 ^ 48)
      | _, _ => 0#64
    ⟨.ok, Flags.none, bytesAt (poolKey cl (64 * kvDst c)) (w64Bytes ((kvMap r c).map entry)), kvLength c⟩
  | _, _ => slotGone (kvLength c)

/-- FILL after an APPEND of positions `pos` to `pos + n − 1` (R218). -/
def advanceFill (r : Req) (pos n : Nat) (s : State) : State :=
  forEach (List.range n) (fun i t => match r.pages[(pos + i) / 64]? with
    | some p => match getPage t p with
      | some x => setPage p { x with filled := max x.filled ((pos + i) % 64 + 1) } t
      | none => t
    | none => t) s

/-- A KV card retires; an APPEND advances FILL and its whole lines clear POISON (R179, R218). -/
def retireKv (cl : Nat) (r : Run) (s : State) : State :=
  let lines := r.writes.map fun w => w.1 / 64
  let s1 := retireNamed cl 16 r { s with mt := { s.mt with poison := s.mt.poison.filter fun k => !lines.contains k } }
  if r.card.opcode = 0 ∧ r.status = .ok ∧ r.discard = false then
    match slotReq s r.card.job (kvSlot r.card) with
    | some q => advanceFill q (kvPos r.card) (kvCount r.card) s1
    | none => s1
  else s1

/-- APPEND (R218). -/
def execAppend (cl : Nat) (s : State) : Host.Outcome State Fault Refusal := running s (issueEngine cl 8 0 400 (appendWork cl))

/-- WALK (R218). -/
def execWalk (cl : Nat) (s : State) : Host.Outcome State Fault Refusal := running s (issueEngine cl 8 1 400 (walkWork cl))

end Sys2Proof.Machine
end

