-- ==== Sys2Proof/Machine/Restore.lean ====
section
/-!
DEFINITION. Afterglow (R354 to R362): rollback, takeover, shrink, pre-emption and resume, and export.
-/

namespace Sys2Proof.Machine

/-! ## Discarding work (R43, R337, R356) -/

/-- The next cluster epoch (R92). -/
def nextEpoch (e : Nat) : Nat := if e = 65535 then 1 else e + 1

/-- Resets the queues of a cluster: queued cards are discarded with a status, credits return, and open chains, lists and
work under way go (R43, R337). -/
def resetCluster (st : Status) (cl : Nat) (s : State) : State :=
  let x := getCl s cl
  let queued := x.queues.flatMap fun q => q.2.cards.map (·.card)
  let next := match x.exec9 with
    | some q => [q.card]
    | none => []
  let others := x.runs.map (fun r => r.2.card) ++ x.tier.map (·.card) ++ x.colls.map (·.card)
  let s1 := forEach (queued ++ next ++ others) (fun c t => complete cl c (Report.of st c.unit) t) s
  let s2 := forEach (List.range 8) (fun u t => modUnit (8 * cl + u) (fun y => { y with acc := none, fenced := false }) t) s1
  modCl cl (fun c =>
    { c with queues := [], owed := [], runs := [], tier := [], colls := [], collCredits := 4, list := none,
             exec9 := none, prefetch := [], chains := [], past := [], writeBuf := [],
             arrivals := [], deferred := [], published := false, updDone := false }) s2

/-- Clusters of a job and class on this package, ascending. -/
def jobClusters (s : State) (j cls : Nat) : List Nat :=
  match getJob s j with
  | some x => ((x.clusters.filter fun c => decide (c.2 = cls)).map (·.1)).foldl (fun l c => setIns c l) []
  | none => []

/-- Every cluster of a job on this package. -/
def allClusters (s : State) (j : Nat) : List Nat :=
  match getJob s j with
  | some x => (x.clusters.map (·.1)).foldl (fun l c => setIns c l) []
  | none => []

/-- Discards a job's collectives on this package. -/
def discardColls (j : Nat) (s : State) : State :=
  forEach (s.sq.colls.filter fun x => decide (x.job = j)) (fun x t => dropColl x.job x.group x.seq t) s

/-- A unit is given new contents: it refills from its source, where there is one, and is STALE until then unless it is under suspicion, in test or
retired (R92, R94). -/
def refillUnit (src : Source) (u : UnitSt) : UnitSt :=
  let fresh := { u with source := src, written := false, acc := none, refill := some (Refill.waiting (!src.none)) }
  match u.state with
  | .available => { fresh with state := .stale }
  | .stale => fresh
  | .fused => u
  | _ => fresh

/-- A cluster is given new contents: its epoch rises and each unit refills from its source (R92). -/
def renewCluster (cl : Nat) (src : Nat → Source) (s : State) : State :=
  forEach (List.range 8) (fun i t =>
    let u := getUnit t (8 * cl + i)
    if u.logical < 8 then setUnit (8 * cl + i) (refillUnit (src u.logical) u) t else t)
    (modCl cl (fun c => { c with epoch := nextEpoch c.epoch }) s)

/-! ## Restoring a cut (R354) -/

/-- Which slot a restore takes: that of a step, or that of a cut. -/
def wantSlot (a : AgCtx) (sl : SlotSt) : Bool :=
  match a.restoreCut, a.rollbackTo with
  | some c, _ => decide (sl.cut = c)
  | none, some j => decide (sl.j = j)
  | none, none => false

/-- The slot of a die that the restore takes. -/
def restoreSlot (a : AgCtx) (d : AgDie) : Option SlotSt := (sealedSlot d (wantSlot a)).map d.slot

/-- Every learner die holds the slot SEALED. -/
def slotsReady (a : AgCtx) : Bool := a.dies.all fun d => (restoreSlot a d).isSome

/-- The LEARN units begin to refill from their slots, under a new cluster epoch (R354, step 2). -/
def refillLearn (j : Nat) (a : AgCtx) (s : State) : State :=
  let s1 := forEach a.dies (fun d t => match restoreSlot a d with
    | none => t
    | some sl =>
      let units := learnUnits t j d.die
      forEach (dieClusters t j d.die 1) (fun cl u => renewCluster cl (fun n =>
        .slot sl.rd sl.region (65536 * (6 + 72 * ((units.findIdx? fun x => decide (x = (cl, n))).getD 0)))) u) t) s
  modJobAg j (fun x => { x with refilling := true }) s1

/-- A job begins a restore: state RESTORING, its step's open results gone. -/
def enterRestore (j : Nat) (step cut : Option Nat) (s : State) : State :=
  let groups := fun (x : Job) => x.groups.map fun g => (g.1, { g.2 with aborted := g.2.aborted.filter (· < 2 ^ 32) })
  modJob j (fun x => { x with groups := groups x, upd := x.upd.map fun u =>
      { u with partials := [], posters := [], normSent := false, doneFrom := [], notice := none } })
    (modJobAg j (fun a => { a with state := .restoring, rollbackTo := step, restoreCut := cut, refilling := false,
                                   restored := [], resumeTick := none, copyFrom := s.tk.tick + 1 }) s)

/-- Slots OPEN for a step after the one restored become INVALID (R349, R365). -/
def voidSlots (j step : Nat) (s : State) : State :=
  match agOf s j with
  | none => s
  | some (_, a) =>
    let s1 := forEach a.dies (fun d t => match openWhich d with
      | none => t
      | some b =>
        if (d.slot b).j ≤ step then t
        else
          let sl := { d.slot b with state := SealState.invalid }
          writeRecord j t.wn.pkg d.die b sl
            (modAgDie j d.die (fun x => { x.put b sl with copying := false, closed := false }) t)) s
    copyEnds j s1

/-- Whether a die can restore a step: it holds the slot SEALED, or its copy will close and seal (R354, R365). -/
def dieCan (step : Nat) (d : AgDie) : Bool :=
  (sealedSlot d fun x => decide (x.j = step)).isSome
    || (match openWhich d with
        | some b => decide ((d.slot b).j = step) && (d.copying || d.closed)
        | none => false)

/-- A publish whose capture began at or after a cut ends; one in force already tears the job down (R355). -/
def voidPublish (j cutTick : Nat) (s : State) : State :=
  match (getJob s j).bind (·.ctx) with
  | none => s
  | some n => match getCtx s n with
    | none => s
    | some c =>
      let s1 := if c.phase = .collect ∨ c.phase = .held then modCtx n (fun x => { x.rest with lastEpoch := x.lastEpoch }) s else s
      let s2 := if cutTick < c.capTick then abortPublish j s1 else s1
      if cutTick < c.activeCap then faultJob j .ctPublishAborted s2 else s2

/-- Tick of the cut that begins a step, as a die's slots give it. -/
def cutTickOf (a : AgCtx) (step : Nat) : Nat :=
  (a.dies.findSome? fun d =>
    if d.slotA.j = step ∧ d.slotA.state ≠ .empty then some d.slotA.cutTick
    else if d.slotB.j = step ∧ d.slotB.state ≠ .empty then some d.slotB.cutTick else none).getD 0

/-- JOB_ROLLBACK (R337, R354): at the boundary after poison or an abort. Without a copy of the step the job is torn down. A
restore whose slots were not yet sealed, or are being fetched, begins its refill here once they are. -/
def rollback (j : Nat) (s : State) : State :=
  match getJob s j with
  | none => s
  | some x =>
    if s.tk.phase = .step ∨ s.tk.phase = .late ∨ x.ending.isSome then s
    else match agOf s j, leastOf (x.spoiled.filter fun k => decide (k ≤ x.j)) with
      | none, some _ => faultJob j .sqPoison s
      | none, none => s
      | some (_, a), some step =>
        if a.state ≠ .running ∧ a.state ≠ .restoring then s
        else
          let s1 := modJob j (fun y => { y with spoiled := y.spoiled.filter fun k => decide (x.j < k) }) s
          if !(a.dies.all (dieCan step)) then
            faultJob j .agNoSlot (modJobAg j (fun y => { y with lastStatus := .agNoSlot }) s1)
          else
            let s2 := discardColls j (forEach (jobClusters s1 j 1) (resetCluster .sqPoison) s1)
            let s3 := enterRestore j (some step) none (voidPublish j (cutTickOf a step) (voidSlots j step s2))
            match agOf s3 j with
            | some (_, b) => if slotsReady b then refillLearn j b s3 else s3
            | none => s3
      | some (_, a), none =>
        if a.state = .restoring ∧ !a.refilling ∧ slotsReady a then refillLearn j a s
        else if a.state = .restoring ∧ !a.refilling ∧ a.restoreCut.isNone ∧ !(a.dies.all (dieCan (a.rollbackTo.getD 0))) then
          faultJob j .agNoSlot (modJobAg j (fun y => { y with lastStatus := .agNoSlot }) s)
        else s

/-! ### What the slot gives back -/

/-- Directory entries of a slot (R272): key of the stack and frame. -/
def dirEntries (die : Nat) (bytes : List Byte) : List (Nat × FrameEnt) :=
  (chunksOf 16 bytes).filterMap fun e =>
    let a := leNat (e.take 8)
    let b := leNat (e.drop 8)
    let f := fun (n lo w : Nat) => n / 2 ^ lo % 2 ^ w
    if b = 0 then none
    else some (64 * (32 * die + f a 42 5) + f a 36 6,
      { layer := f a 0 16, tag := f a 16 16, kind := f a 32 4, popped := f a 47 1 == 1, pin := f a 48 1 == 1,
        baseLine := f b 0 34, lines := f b 34 24 })

/-- Puts a die's directory in place (R354). -/
def putDirectory (die : Nat) (bytes : List Byte) (s : State) : State :=
  let keep := s.lrn.stratus.filter fun e => decide (e.1 / 64 / 32 ≠ die)
  let t := (dirEntries die bytes).foldl (fun (t : Tab (List FrameEnt)) e => tabIns e.1 (tabGet [] t e.1 ++ [e.2]) t) keep
  { s with lrn := { s.lrn with stratus := t } }

/-- T, FROZEN and T_MAX of the groups as a slot's schedule table holds them. -/
def slotGroups (s : State) (sl : SlotSt) (gs : List Group) : List Group :=
  gs.zipIdx.map fun g =>
    let w := leNat (slotBytes s sl (4096 + 64 + 64 * g.2) 8)
    { g.1 with t := w % 2 ^ 32, tMax := w / 2 ^ 33 % 2 == 1 }

/-- A record of an experience ring as its bytes give it, for a CONSUME_INDEX that moves back (log 29). -/
def ringRecord (s : State) (r : ExpRing) (i : Nat) : Nat × Nat × Nat × Nat × Bool × Bool :=
  match regionOf s r.rd r.region with
  | none => (0, 0, 0, 0, true, true)
  | some e =>
    let w := fun n => regionWord s r.rd e (expOffset r i + 8 * n)
    let active := ((jobCtx s r.job).map (·.epochActive)).getD 0
    let tag := fld (w 1) 33 18
    let full := active - (active % 65536 + 65536 - tag) % 65536
    (fld (w 0) 33 32, fld (w 0) 31 0, if fld (w 0) 33 32 = 1 then full else active, (w 4).toNat, true, true)

/-- The epochs of records that tell none, from the TOKEN of the same request before or after them (R232, log 29). -/
def recEpochs (l : List (Nat × Nat × Nat × Nat × Bool × Bool)) : List (Nat × Nat × Nat × Nat × Bool × Bool) :=
  l.zipIdx.map fun (x, i) =>
    let token := fun (y : Nat × Nat × Nat × Nat × Bool × Bool) => decide (y.1 = 1) && decide (y.2.1 = x.2.1)
    let near := match (l.take i).reverse.find? token with
      | some y => some y
      | none => (l.drop i).find? token
    (x.1, x.2.1, if x.1 = 1 then x.2.2.1 else (near.map (·.2.2.1)).getD x.2.2.1, x.2.2.2)

/-- Sets a ring's CONSUME_INDEX to max(cut value, WRITE_INDEX − RECORDS) (R354, step 5). -/
def rewindRing (k cutIndex : Nat) (s : State) : State :=
  match getRing s k with
  | none => s
  | some r =>
    let c := if 2 ^ r.log2 < ago64 r.write cutIndex then ago64 r.write (2 ^ r.log2) else cutIndex
    let n := ago64 r.write c
    let m := ago64 r.write r.consume
    let read := (List.range (n - m)).map fun i => ringRecord s r (c + i)
    let back := (recEpochs (read ++ r.recs)).take (n - m)
    let recs := back ++ r.recs.drop (m - n)
    let stale := match recs.head?, jobCtx s r.job with
      | some x, some y => staleTag y.epochActive x.2.2.1
      | _, _ => false
    expHeader k (modRing k (fun x => { x with consume := c, recs := recs, lastStale := stale }) s)

/-- Restores one learner die from its slot: moments, Stratus directory and bytes, and its rings (R354). -/
def restoreDie (j : Nat) (d : AgDie) (sl : SlotSt) (s : State) : State :=
  let units := (learnUnits s j d.die).length
  let m0 := 65536 * (6 + 72 * units)
  let lens := momentLens s j d.die
  let s1 := forEach ((dieMoments s j d.die).zip (offsetsOf m0 (lens.map toBlocks))) (fun x t =>
    writePlace x.1.1 x.1.2 0 (slotBytes t sl x.2.1 (((regionOf t x.1.1 x.1.2).map Region.len).getD 0)) t) s
  let s2 := putDirectory d.die (slotBytes s sl 131072 262144) s1
  let s3 := match dieStratus s2 j d.die, (learnOf s2 j).bind fun l => (l.stratus.find? fun x => decide (x.1 = d.die)).map fun x =>
      (l.mbInflight, x.2.2.1) with
    | some (rd, h), some (mb, bytes) =>
      forEach (s2.lrn.stratus.filter fun e => decide (e.1 / 64 / 32 = d.die)) (fun e t =>
        let base := (mb * (e.1 / 64 % 32) + e.1 % 64) * bytes
        writePlace rd h base (slotBytes t sl (m0 + (lens.map toBlocks).sum + base) (64 * stackTopLine e.2)) t) s2
    | _, _ => s2
  let rings := s3.lrn.rings.filter fun r => decide (r.2.job = j) && decide (clDie r.2.consumer = d.die)
  forEach rings.zipIdx (fun r t =>
    if leNat (slotBytes t sl (128 + 16 * r.2) 8) % 256 = r.1.1 then rewindRing r.1.1 (leNat (slotBytes t sl (136 + 16 * r.2) 8)) t
    else t) s3

/-- A member has restored: the lead, once every learner package has, names the resume tick 2 ticks ahead (R354). -/
def holdRestored (j pkg : Nat) (s : State) : State :=
  let s1 := modJobAg j (fun a => { a with restored := setIns pkg a.restored }) s
  match agOf s1 j with
  | none => s1
  | some (_, a) =>
    if leadPkg s1 j = s1.wn.pkg ∧ a.resumeTick.isNone ∧ (learnerDies s1 j).all (fun d => a.restored.contains d.1) then
      castCtrl j (.resumeAt j (s1.tk.tick + 2)) (modJobAg j (fun x => { x with resumeTick := some (s1.tk.tick + 2) }) s1)
    else s1

/-- AG_RESTORE_DONE (R354): every unit has refilled; the rest of the cut comes back, J and every T are the cut's with the
advance that followed it applied again. An uncorrectable line tears the job down (R365). -/
def restoreDone (j : Nat) (s : State) : State :=
  match agOf s j, getJob s j with
  | some (_, a), some x =>
    let filled := (jobClusters s j 1).all fun cl => (List.range 8).all fun i => (getUnit s (8 * cl + i)).refill.isNone
    if a.state ≠ .restoring ∨ !a.refilling ∨ a.restored.contains s.wn.pkg ∨ !windowOpen s 5 ∨ !filled ∨ x.ending.isSome then s
    else
      let slots := a.dies.filterMap fun d => (restoreSlot a d).map fun sl => (d, sl)
      if slots.any fun e => !slotReadable s e.2 (65536 * e.2.blocks) then
        faultJob j .mtUncorrectable (modJobAg j (fun y => { y with lastStatus := .mtUncorrectable })
          (forEach slots (fun e => noteRead ⟨e.2.rd, e.2.region, 0⟩ (65536 * e.2.blocks)) s))
      else
        let s1 := forEach slots (fun e t => restoreDie j e.1 e.2 t) s
        let s2 := match slots.head? with
          | none => s1
          | some (_, sl) =>
            let s3 := modUpd j (fun u =>
              let gs := slotGroups s1 sl u.groups
              { u with groups := if sl.j = 0 then gs.map Group.eval else gs.map Group.next }) s1
            writeSched j (modJob j (fun y => { y with j := sl.j }) s3)
        let s4 := bump .agRollbacks (jobPart j) s2
        if leadPkg s4 j = s4.wn.pkg then holdRestored j s4.wn.pkg s4
        else sendCtrl (leadPkg s4 j) (.restoreReport j s4.wn.pkg)
          (modJobAg j (fun y => { y with restored := setIns s4.wn.pkg y.restored }) s4)
  | _, _ => s

/-- Jobs whose resume tick has come run again from this intake edge (R354). -/
def agResumes (s : State) : State :=
  forEach (s.lrn.ags.filter fun a => match a.2.resumeTick with
    | some t => decide (t ≤ s.tk.tick)
    | none => false) (fun a t =>
    modJob a.2.job (fun x => { x with held := false }) (modAg a.1 (fun x =>
      { x with state := .running, resumeTick := none, rollbackTo := none, restoreCut := none, refilling := false, busy := false,
               lostPkg := none }) t)) s

/-! ## Holding a job (R356 to R358) -/

/-- Drops the steps of a job's sequences that are not done; they run again after the hold. -/
def holdSteps (j : Nat) (s : State) : State :=
  { s with gen := { s.gen with reqs := s.gen.reqs.map fun r =>
      if r.job = j ∧ r.ready.isNone ∧ !r.stepDone then { r with step := none, lateStep := false } else r } }

/-- Holds a job: no card runs, queued cards are discarded with AG_HELD (R356). -/
def holdJob (j : Nat) (s : State) : State :=
  let s1 := discardColls j (forEach (allClusters s j) (resetCluster .agHeld) s)
  modJobAg j (fun a => { a with state := .held, holdDue := false })
    (modJob j (fun x => { x with held := true, spoiled := [] }) (holdSteps j s1))

/-- A held job restores a cut: dies that do not hold it ask their buddy for its slot (R357). -/
def takeCut (j cut : Nat) (s : State) : State :=
  let s1 := enterRestore j none (some cut) (copyEnds j (modJobAg j dropCopy s))
  match agOf s1 j with
  | none => s1
  | some (_, a) =>
    let s2 := forEach a.dies (fun d t =>
      if (restoreSlot a d).isSome then t
      else sendMsg a.buddyPkg 7 5 d.die 56 { agHead j d.die with seq := cut } [] t) s1
    match agOf s2 j with
    | some (_, b) => if slotsReady b then refillLearn j b s2 else s2
    | none => s2

/-- Ranks' replicas: the stage-table rows of a job by replica (R262). -/
def replicaRows (l : LearnSt) : List (List (Nat × Nat × Nat × Nat)) :=
  (List.range l.replicas).map fun r => (l.stage.drop (r * l.stages)).take l.stages

/-- Stage-table rows that a shrink drops: those of every replica with a row on the lost rank. -/
def lostRows (l : LearnSt) (rank : Nat) : List (Nat × Nat × Nat × Nat) :=
  ((replicaRows l).filter fun r => r.any fun x => decide (x.1 = rank)).flatMap id

/-- Whether a cluster of a package rank is dropped with a lost rank (R358). -/
def droppedAt (l : LearnSt) (lost : Nat) (m : Nat × Nat) : Bool :=
  decide (m.1 = lost) || (lostRows l lost).any fun x => decide (x.1 = m.1) && x.2.1 / 2 ^ clDie m.2 % 2 == 1

/-- Whether a job may shrink by a lost rank (R358). -/
def shrinkOk (s : State) (j lost : Nat) : Bool :=
  match getJob s j, learnOf s j with
  | some x, some l =>
    let rows := replicaRows l
    let keep := rows.filter fun r => !(r.any fun y => decide (y.1 = lost))
    let owners := match x.upd with
      | some u => u.owners.any fun o => decide (o.2.2 / 2048 = lost)
      | none => false
    let groups := x.groups.any fun g => g.2.members.all (droppedAt l lost)
    let lostPkg := x.packages.getD lost 0
    let entries := match jobCtx s j with
      | some c => c.entries.any fun e => decide (e.dstPkg ≠ lostPkg) && decide (e.srcPkg ≠ lostPkg)
          && droppedAt l lost ((x.packages.findIdx? fun k => decide (k = e.srcPkg)).getD 0, e.srcCl)
          || (decide (e.dstPkg ≠ lostPkg) && decide (e.srcPkg = lostPkg))
      | none => false
    decide (keep ≠ []) && !owners && !groups && !entries && !l.consumers.any fun c => decide (c.1 = lost)
  | _, _ => false

/-- Drops the members of a group; survivors are renumbered in ascending rank, and their sequence numbers go with them. -/
def shrinkGroup (l : LearnSt) (lost : Nat) (g : SqGroup) : SqGroup :=
  let kept := g.members.zipIdx.filter fun m => !droppedAt l lost m.1
  let ranks := kept.map (·.2)
  let newSeqs := ranks.zipIdx.foldl (fun (t : Tab Nat) r => tabSet 0 t r.2 (tabGet 0 g.seqs r.1)) []
  let newTiles := ranks.zipIdx.foldl (fun (t : Tab Nat) r =>
    (g.tileSeqs.filter fun e => decide (e.1 / 2048 = r.1)).foldl (fun t e => tabSet 0 t (2048 * r.2 + e.1 % 2048) e.2) t) []
  { g with members := kept.map (·.1), scratch := ranks.map fun r => g.scratch.getD r (0, 0), seqs := newSeqs, tileSeqs := newTiles }

/-- Drops what goes with a lost package (R358). The lost package's place in the list of packages takes the lead's number, so
that ranks keep their places. -/
def shrinkJob (j lostPkg : Nat) (s : State) : State :=
  match getJob s j, learnOf s j with
  | some x, some l =>
    let lost := (x.packages.findIdx? fun k => decide (k = lostPkg)).getD 0
    let gone := ((x.clusters.filter fun c => decide (c.2 = 1) && droppedAt l lost (x.rank, c.1)).map (·.1))
    let kept := l.stage.filter fun y => !(lostRows l lost).contains y
    let lead := ((leastOf (x.packages.filter fun k => decide (k ≠ lostPkg)))).getD s.wn.pkg
    let s1 := forEach gone (fun cl t => modCl cl (fun c => { c with owner := none }) (resetCluster .agHeld cl t)) s
    let s2 := modJob j (fun y =>
      let clusters := y.clusters.filter fun c => !gone.contains c.1
      let groups := tabMap (fun _ g => shrinkGroup l lost g) y.groups
      { y with clusters := clusters, members := y.members.filter fun m => decide (m.1 ≠ lost)
               packages := y.packages.map fun k => if k = lostPkg then lead else k
               groups := groups, dropped := y.dropped ++ (lostPkg, 2048) ::
               (y.members.filter fun m => decide (m.2.2 = 1) && droppedAt l lost (m.1, m.2.1)).map fun m => (x.packages.getD m.1 0, m.2.1)
               learn := y.learn.map fun z => { z with stage := kept, replicas := kept.length / max 1 z.stages } }) s1
    let s3 := match x.ctx with
      | some n => modCtx n (fun c => { c with entries := c.entries.filter fun e =>
          !(decide (e.srcPkg = lostPkg) || decide (e.dstPkg = lostPkg)
            || (decide (e.srcPkg = s.wn.pkg) && gone.contains e.srcCl)) }) s2
      | none => s2
    modJobAg j (fun a => { a with dies := a.dies.filter fun d => dieClusters s3 j d.die 1 ≠ [] }) s3
  | _, _ => s

/-- The newest cut that every learner package but the lost one has reported (R358); 0 for none. -/
def survivorCut (s : State) (j : Nat) : Nat :=
  match agOf s j with
  | none => 0
  | some (_, a) =>
    let dies := learnerDies s j
    ((a.sealFrom.map (·.2)).filter fun c => dies.all fun d => a.sealFrom.contains (d.1, c)).foldl max a.newestCut

/-- Takeovers and shrinks named for this boundary (R356). -/
def boundaryHolds (s : State) : State :=
  forEach (s.lrn.ags.filter fun a => a.2.holdDue) (fun a t =>
    let t1 := holdJob a.2.job t
    match a.2.restoreCut with
    | some c => takeCut a.2.job c t1
    | none => t1) s

/-- The lead's hold comes to a member. -/
def holdIn (j lost cut : Nat) (shrink : Bool) (s : State) : State :=
  modJobAg j (fun a => { a with holdDue := true, restoreCut := if cut = 0 then none else some cut, lostPkg := some lost, busy := true })
    (if shrink then shrinkJob j lost s else s)

/-! ## Requests (R364) -/

/-- Answers a request of AG_REQ in AG_REQ_STATUS of the requester's view. -/
def agAnswer (who : Who) (st : Status) (s : State) : Wr :=
  ⟨st, none, modView (viewOf s who) (fun x => { x with agLast := st }) (fun x => { x with agLast := st }) s⟩

/-- The common checks of a request: rights, then the job, then another request of the same job. -/
def agRequest (who : Who) (j : Nat) (pkgOnly : Bool) (f : AgCtx → Job → State → Wr) (s : State) : Wr :=
  if !(packageRights s who || (!pkgOnly && rightsOver s who (jobPart j))) then agAnswer who .agReqDenied s
  else match agOf s j, getJob s j with
    | some (_, a), some x => if a.busy then agAnswer who .agBusy s else f a x s
    | _, _ => agAnswer who .agReqInvalid s

/-- PREEMPT (R359). -/
def preemptReq (a : AgCtx) (x : Job) (who : Who) (j : Nat) (s : State) : Wr :=
  if a.state ≠ .running ∨ x.ending.isSome then agAnswer who .agReqInvalid s
  else agAnswer who .ok (modJobAg j (fun y => { y with preemptAsked := true, busy := true }) s)

/-- Whether a pre-emption may take effect at this boundary (R359); a package without learner dies seals no cut. -/
def preemptReady (s : State) (j : Nat) (a : AgCtx) : Bool :=
  !(s.sq.colls.any fun x => decide (x.job = j)) && !a.copyOpen && !(a.dies.any (·.copying))
    && (decide (a.newestCut = a.cutSeq) || a.dies.isEmpty)
    && (jobClusters s j 1).all fun cl => (List.range 8).all fun i => !(getUnit s (8 * cl + i)).written

/-- AG_PREEMPT_APPLY (R359): from this boundary the job runs no card; its publishes end. -/
def preemptApply (j : Nat) (s : State) : State :=
  match agOf s j with
  | some (_, a) =>
    if s.tk.phase = .step ∨ s.tk.phase = .late ∨ !compUp s 7 ∨ !a.preemptAsked ∨ !preemptReady s j a then s
    else modJobAg j (fun y => { y with preemptAsked := false, state := .saving })
      (modJob j (fun y => { y with held := true }) (abortPublish j s))
  | none => s

/-! ### Saving (R359, R360) -/

/-- Units of a cluster that hold contents. -/
def usedUnits (s : State) (cl : Nat) : List Nat :=
  (List.range 8).filter fun i =>
    let u := getUnit s (8 * cl + i)
    decide (u.logical < 8) && (decide (u.source ≠ .nothing) || u.acc.isSome)

/-- The highest logical unit with contents. -/
def topUnit (s : State) (cl : Nat) : Nat := ((usedUnits s cl).map fun i => (getUnit s (8 * cl + i)).logical).foldl max 0

/-- One entry of the chain table of an engine record (log 29). -/
def chainEntry (c : Chain) (arrivals : Nat) : List Byte :=
  w64Bytes [BitVec.ofNat 64 (coBase c.openCard + coLines c.openCard * 2 ^ 16 + coRows c.openCard * 2 ^ 32 + coTiles c.openCard * 2 ^ 48),
    BitVec.ofNat 64 (c.posted + c.done * 2 ^ 16 + arrivals * 2 ^ 32 + c.mode * 2 ^ 48), BitVec.ofNat 64 (coNm c.openCard),
    BitVec.ofNat 64 (coNmBytes c.openCard), 0#64, 0#64, 0#64, 0#64]

/-- Accumulators and descriptor of a unit: 256 entries of 66 lanes, then the open accumulation (log 29). -/
def accBytes (u : UnitSt) : List Byte :=
  let file := (List.range 16896).map fun i => fileAt u.file (i / 66) (if i % 66 = 65 then 65 else if i % 66 = 64 then 64 else physLane u (i % 66))
  let d := match u.acc with
    | some a => [1, a.shape, a.rows, a.lfmt, a.bfmt, a.tag, a.chunks]
    | none => []
  w32Bytes file ++ sliceZ (d.flatMap (leBytes 4)) 0 2048

/-- The engine record of a cluster (R360), 1 MiB. -/
def engineRecord (s : State) (j cl cut : Nat) : List Byte :=
  let x := getCl s cl
  let credits := (List.range 18).flatMap fun k => leBytes 2 (getQ x k).credits
  let cards := (List.range 18).flatMap fun k => (getQ x k).cards.flatMap fun q => w64Bytes (cardWords q.card)
  let chains := (List.range 63).flatMap fun i => match tabFind (i + 1) x.chains with
    | some c => chainEntry c (tabGet 0 x.arrivals (i + 1))
    | none => List.replicate 64 0#8
  let accs := (List.range 8).flatMap fun l => match physOf s cl l with
    | some k => accBytes (getUnit s k)
    | none => List.replicate 69632 0#8
  let gens := (List.range 768).flatMap fun i =>
    let src := i / 64
    let lane := if src < 8 then physLane (getUnit s (8 * cl + src)) (i % 64) else i % 64
    if 10 ≤ src ∧ 16 ≤ lane then List.replicate 128 0#8 else sliceZ (w32Bytes (freeGen s cl src lane)) 0 128
  sliceZ (w64Bytes [BitVec.ofNat 64 j, BitVec.ofNat 64 cl, BitVec.ofNat 64 cut, BitVec.ofNat 64 (topUnit s cl)] ++ credits) 0 4096
    ++ sliceZ cards 0 65536 ++ sliceZ chains 0 4096 ++ sliceZ (x.writeBuf.map (·.2)) 0 65536 ++ accs ++ gens
    ++ List.replicate (1048576 - 794624) 0#8

/-- Declared job-area pages of a cluster (R434). -/
def poolPagesOf (s : State) (j cl : Nat) : Nat := match getJob s j with
  | some x => match x.clusters.findIdx? fun c => decide (c.1 = cl) with
    | some i => x.poolPages.getD i 0
    | none => 0
  | none => 0

/-- Bytes that a cluster saves. -/
def saveBytes (s : State) (j cut cl : Nat) : List Byte :=
  memBytes s.mem (poolKey cl 0) 65536 ++ memBytes s.mem (poolKey cl 262144) (4096 * poolPagesOf s j cl)
    ++ engineRecord s j cl cut

/-- Saves the clusters of a die and class into its context region, from byte 4,096 on, and the Stratus directory behind them
(R359, log 29). -/
def saveRegion (j cut : Nat) (r : Nat × Nat × Nat) (s : State) : State :=
  let cls := dieClusters s j r.1 r.2.1
  let dir := if r.2.1 = 1 then sliceZ (dirBytes s r.1) 0 262144 else []
  writePlace (homeRd r.1) r.2.2 4096 ((cls.flatMap (saveBytes s j cut)) ++ dir) s

/-- AG_CONTEXT_SAVE_DONE (R359): inside the AFTERGLOW window every cluster is saved; they are released at the boundary. -/
def contextSave (j : Nat) (s : State) : State :=
  match agOf s j with
  | some (_, a) =>
    if a.state ≠ .saving ∨ a.releaseDue ∨ !windowOpen s 5 then s
    else
      let s1 := forEach a.ctxReg (saveRegion j a.newestCut) s
      let saved := (allClusters s j).map fun cl =>
        (cl, getCl s cl, (List.range 8).map fun i => (8 * cl + i, getUnit s (8 * cl + i)))
      modJobAg j (fun y => { y with saved := saved, releaseDue := true }) s1
  | none => s

/-- A cluster without a job: its engines are at rest, its epoch stays (R103). -/
def freeCluster (cl : Nat) (s : State) : State :=
  let s1 := modCl cl (fun c =>
    { c with owner := none, permits := 0, queues := [], owed := [], runs := [], tier := [], colls := [],
             collCredits := 4, list := none, exec9 := none, prefetch := [], chains := [], past := [], writeBuf := [], arrivals := [], tables := [], grammars := [], allows := [], scans := [], gens := [],
             deferred := [], published := false, updDone := false, capped := false, sleep := none }) s
  forEach (List.range 8) (fun i t => modUnit (8 * cl + i) (fun u => { u with acc := none, fenced := false }) t) s1

/-- The clusters of saved jobs are released at the boundary (R359). -/
def boundaryReleases (s : State) : State :=
  forEach (s.lrn.ags.filter fun a => a.2.releaseDue) (fun a t =>
    let cls := allClusters t a.2.job
    let t1 := forEach cls (fun cl u =>
      zeroMem (poolKey cl 0) 0x400000 (freeCluster cl u)) t
    let stratus := t1.lrn.stratus.filter fun e => !cls.contains (e.1 / 64)
    modAg a.1 (fun y => { y with state := .preempted, releaseDue := false, busy := false })
      { t1 with lrn := { t1.lrn with stratus := stratus } }) s

/-- Whether each cluster of a pre-empted job still enables its highest used unit (R361). -/
def ctxFits (s : State) (a : AgCtx) : Bool :=
  a.saved.all fun c =>
    let top := (c.2.2.filter fun u => decide (u.2.logical < 8) && (decide (u.2.source ≠ .nothing) || u.2.acc.isSome)).foldl
      (fun m u => max m (u.2.logical + 1)) 0
    decide (top ≤ enabledCount s c.1)

/-- The physical lane that now stands for what physical lane `l` of a saved unit stood for (R57, R156): a lane that stood for none
has no successor. -/
def relane (old new : UnitSt) (l : Nat) : Option Nat :=
  if l = 64 then some 64
  else if l = 65 then (if old.spareInUse then some (physLane new old.spareFor) else none)
  else if old.spareInUse ∧ old.spareFor = l then none
  else some (physLane new l)

/-- The entries of a saved table, key 66 × row + lane, on the lanes that now stand for theirs. -/
def relaneTab {α : Type} (old new : UnitSt) (t : Tab α) : Tab α :=
  t.foldl (fun u e => match relane old new (e.1 % 66) with
    | some l => tabIns (66 * (e.1 / 66) + l) e.2 u
    | none => u) []

/-- The saved free-mode generators of a cluster, restored per logical unit and logical lane; the other engines' lanes are their own
(R156). -/
def regen (s : State) (cl : Nat) (units : List (Nat × UnitSt)) (t : Tab (List W32)) : Tab (List W32) :=
  t.foldl (fun u e =>
    let src := e.1 / 66
    if 8 ≤ src then tabIns e.1 e.2 u
    else match tabFind (8 * cl + src) units with
      | none => u
      | some old => match physOf s cl old.logical with
        | none => u
        | some k => match relane old (getUnit s k) (e.1 % 66) with
          | some l => tabIns (66 * (k % 8) + l) e.2 u
          | none => u) []

/-- Writes one cluster back: engine state, pool and units; its epoch rises and its units refill (R361). -/
def resumeCluster (j : Nat) (a : AgCtx) (c : Nat × Cluster × List (Nat × UnitSt)) (s : State) : State :=
  let cl := c.1
  let cls := (c.2.1.owner.map (·.1)).getD 0
  let now := getCl s cl
  let s1 := setCl cl { c.2.1 with gens := regen s cl c.2.2 c.2.1.gens, epoch := nextEpoch now.epoch, pm := now.pm, wakeAt := now.wakeAt, coreDown := now.coreDown } s
  let place := (a.ctxReg.find? fun r => decide (r.1 = clDie cl) && decide (r.2.1 = cls)).map fun r => r.2.2
  let before := ((dieClusters s j (clDie cl) cls).filter fun x => decide (x < cl)).map fun x => 1114112 + 4096 * poolPagesOf s j x
  let n := 4096 * poolPagesOf s j cl
  let s2 := match place.bind fun h => (regionOf s1 (clRd cl) h).map fun e => (h, e) with
    | none => s1
    | some (_, e) =>
      let o := 4096 + before.sum
      putMem (bytesAt (poolKey cl 262144) (regionBytes s1 (clRd cl) e (o + 65536) n))
        (putMem (bytesAt (poolKey cl 0) (regionBytes s1 (clRd cl) e o 65536)) s1)
  forEach (List.range 8) (fun i t =>
    let k := 8 * cl + i
    let u := getUnit t k
    if 8 ≤ u.logical then t
    else match c.2.2.find? fun x => decide (x.2.logical = u.logical) with
      | none => t
      | some x => setUnit k { refillUnit x.2.source u with
          acc := x.2.acc, file := relaneTab x.2 u x.2.file, rowScalar := relaneTab x.2 u x.2.rowScalar,
          operand := relaneTab x.2 u x.2.operand, wfmt := x.2.wfmt } t) s2

/-- RESUME (R361): a job whose clusters are free again runs from the next intake edge. A cluster that another job has taken
meanwhile refuses it as busy (log 29), and permits beyond the partition's share as LW_CIRRUS_NO_SHARE (R67, log 98). -/
def resumeReq (a : AgCtx) (_x : Job) (who : Who) (j : Nat) (s : State) : Wr :=
  if a.state ≠ .preempted then agAnswer who .agReqInvalid s
  else if !ctxFits s a then agAnswer who .agCtxUnfit (modJobAg j (fun y => { y with lastStatus := .agCtxUnfit }) s)
  else if a.saved.any fun c => (getCl s c.1).owner.isSome then agAnswer who .agBusy s
  else if ptFld (ptEntry s (jobPart j)) 0 43 32 < permitsHeld s (jobPart j) + (a.saved.map fun c => c.2.1.permits).sum then
    agAnswer who .lwCirrusNoShare s
  else
    let s1 := forEach a.saved (resumeCluster j a) s
    let s2 := forEach (a.ctxReg.filter fun r => decide (r.2.1 = 1)) (fun r t =>
      let o := 4096 + ((dieClusters t j r.1 1).map fun x => 1114112 + 4096 * poolPagesOf t j x).sum
      match regionOf t (homeRd r.1) r.2.2 with
      | some e => putDirectory r.1 (regionBytes t (homeRd r.1) e o 262144) t
      | none => t) s1
    agAnswer who .ok (modJobAg j (fun y => { y with state := .running, saved := [], resumeTick := some (s.tk.tick + 1) }) s2)

/-- RECOVER (R357): written on the lead; without a recovery cut the job is torn down. -/
def recoverReq (a : AgCtx) (x : Job) (who : Who) (j pkg : Nat) (s : State) : Wr :=
  if leadPkg s j ≠ s.wn.pkg ∨ pkg = s.wn.pkg ∨ !x.packages.contains pkg then agAnswer who .agReqInvalid s
  else if a.recoveryCut = 0 then
    agAnswer who .agNoRecoveryCut (faultJob j .agNoRecoveryCut (modJobAg j (fun y => { y with lastStatus := .agNoRecoveryCut }) s))
  else
    agAnswer who .ok (castCtrl j (.hold j pkg a.recoveryCut false) (modJobAg j (fun y =>
      { y with holdDue := true, restoreCut := some a.recoveryCut, lostPkg := some pkg, busy := true }) s))

/-- SHRINK (R358): in STARTUP, TEST or RECOVERY service; a refused one leaves the job held. -/
def shrinkReq (a : AgCtx) (x : Job) (who : Who) (j pkg : Nat) (s : State) : Wr :=
  if leadPkg s j ≠ s.wn.pkg ∨ pkg = s.wn.pkg ∨ !x.packages.contains pkg then agAnswer who .agReqInvalid s
  else
    let lost := (x.packages.findIdx? fun k => decide (k = pkg)).getD 0
    if a.service = 0 ∨ !shrinkOk s j lost then
      agAnswer who .agShrinkRefused (castCtrl j (.hold j pkg 0 false) (modJobAg j (fun y =>
        { y with holdDue := true, restoreCut := none, lostPkg := some pkg, lastStatus := .agShrinkRefused }) s))
    else
      let s1 := shrinkJob j pkg s
      let cut := survivorCut s1 j
      if cut = 0 then agAnswer who .agNoSlot (faultJob j .agNoSlot (modJobAg j (fun y => { y with lastStatus := .agNoSlot }) s1))
      else agAnswer who .ok (castCtrl j (.hold j pkg cut true) (modJobAg j (fun y =>
        { y with holdDue := true, restoreCut := some cut, lostPkg := some pkg, busy := true }) s1))

/-! ### Export (R362) -/

/-- The cut that an export takes: the recovery cut, or on a member that does not know it the newest that all its buddy
slots hold. -/
def exportCut (a : AgCtx) : Nat :=
  if a.recoveryCut ≠ 0 then a.recoveryCut
  else
    let cuts := a.buddies.flatMap fun b => [b.slotA, b.slotB].filterMap fun x => if x.state = .done then some x.cut else none
    (cuts.filter fun c => a.buddies.all fun b => (buddySlot b c).isSome).foldl max 0

/-- The layer table of an export: one entry per TENSOR; KSEG of the placement is a free value (log 8). -/
def layerTable : List (Nat × Nat × Nat × Bool) → State → List Byte × State
  | [], s => ([], s)
  | t :: ts, s =>
    let (v, s1) := takeFree s
    let (rest, s2) := layerTable ts s1
    (w64Bytes [BitVec.ofNat 64 (t.1 + 5 * 2 ^ 16), BitVec.ofNat 64 (t.2.1 % 2 ^ 20 + t.2.2.1 % 2 ^ 32 * 2 ^ 20),
      BitVec.ofNat 64 (v.toNat % 2 ^ 20), 0#64] ++ rest, s2)

/-- Shard entries and contents from a byte offset on: package rank, die, bytes. -/
def shardTable : Nat → List (Nat × Nat × List Byte) → List Byte × List Byte
  | _, [] => ([], [])
  | off, x :: t =>
    let n := (x.2.2.length + 4095) / 4096 * 4096
    let (es, bs) := shardTable (off + n) t
    (w64Bytes [BitVec.ofNat 64 (off + x.1 * 2 ^ 48), BitVec.ofNat 64 (x.2.2.length + x.2.1 * 2 ^ 48)] ++ sha384 x.2.2 ++ es,
      sliceZ x.2.2 0 n ++ bs)

/-- A checkpoint image (R251, R362) with a zero signature block. -/
def checkpointImage (j : Nat) (x : Job) (epoch : Nat) (step : Nat) (shards : List (Nat × Nat × List Byte)) (s : State) :
    List Byte × State :=
  let ts := match x.upd with
    | some u => u.tensors
    | none => []
  let so := sigOffset ts.length shards.length
  let data0 := (so + 128 + 4095) / 4096 * 4096
  let (layers, s1) := layerTable ts s
  let (table, body) := shardTable data0 shards
  let head := w64Bytes [BitVec.ofNat 64 (0x4B504C43 + 2 ^ 32 + 3 * 2 ^ 48), BitVec.ofNat 64 (ts.length + shards.length * 2 ^ 16),
    BitVec.ofNat 64 (epoch % 2 ^ 48), BitVec.ofNat 64 x.name, BitVec.ofNat 64 j, BitVec.ofNat 64 so, BitVec.ofNat 64 step,
    x.placement]
  (sliceZ (head ++ layers ++ table) 0 data0 ++ body, s1)

/-- The buddy slots of this package that hold the cut of an export. -/
def exportHeld (a : AgCtx) : List (Buddy × SlotSt) := a.buddies.filterMap fun b => (buddySlot b (exportCut a)).map fun sl => (b, sl)

/-- The checkpoint image of those slots. -/
def exportedImage (a : AgCtx) (x : Job) (j : Nat) (s : State) : List Byte × State :=
  let held := exportHeld a
  let shards := held.map fun b =>
    (((x.packages.findIdx? fun k => decide (k = b.1.pkg)).getD 0), b.1.die,
      match regionOf s b.2.rd b.2.region with
      | some g => regionBytes s b.2.rd g 0 g.len
      | none => [])
  let sl := (held.head?.map (·.2)).getD ⟨0, 0, .empty, false, 0, 0, 0, 0, 0, 0⟩
  checkpointImage j x sl.policyEpoch sl.j shards s

/-- EXPORT (R362): this package's buddy slots of the recovery cut, as a checkpoint image, into an export region. MODEL_ID is
the job's name and handle (log 29). -/
def exportReq (a : AgCtx) (x : Job) (who : Who) (j rd h : Nat) (s : State) : Wr :=
  match regionOf s rd h with
  | none => agAnswer who .agReqInvalid s
  | some e =>
    if e.part ≠ jobPart j ∨ e.cls ≠ 5 ∨ e.sealed ∨ e.owner ≠ 56 + rd then agAnswer who .agReqInvalid s
    else if exportCut a = 0 ∨ exportHeld a = [] then agAnswer who .agNoRecoveryCut s
    else if (exportHeld a).any (fun b => b.2.rd ≠ rd) then agAnswer who .agReqInvalid s
    else
      let (img, s1) := exportedImage a x j s
      if e.len < img.length then agAnswer who .mtAddrInvalid s
      else agAnswer who .ok (writePlace rd h 0 img s1)

/-! ## The commands -/

/-- JOB_ROLLBACK (R354). -/
def execJobRollback (j : Nat) (s : State) : Host.Outcome State Fault Refusal := running s (rollback j)

/-- AG_RESTORE_DONE (R354). -/
def execAgRestoreDone (j : Nat) (s : State) : Host.Outcome State Fault Refusal := running s (restoreDone j)

/-- AG_PREEMPT_APPLY (R359). -/
def execAgPreemptApply (j : Nat) (s : State) : Host.Outcome State Fault Refusal := running s (preemptApply j)

/-- AG_CONTEXT_SAVE_DONE (R359). -/
def execAgContextSaveDone (j : Nat) (s : State) : Host.Outcome State Fault Refusal := running s (contextSave j)

end Sys2Proof.Machine
end

