-- ==== Sys2Proof/Machine/Reg.lean ====
section
/-!
DEFINITION. The register window (R423 to R425): where each register stands, and how a write that is discarded is
recorded (R428).
-/

namespace Sys2Proof.Machine

/-- The registers of the window. The docstring of each gives its name in the manual. -/
inductive Reg where
  /-- TK_CONFIG. -/
  | tkConfig
  /-- TK_CONFIG_NEXT. -/
  | tkConfigNext
  /-- TK_APPLY_AT. -/
  | tkApplyAt
  /-- TK_TICK. -/
  | tkTick
  /-- TK_STATUS. -/
  | tkStatus
  /-- TK_SYNC. -/
  | tkSync
  /-- TK_OFFSET. -/
  | tkOffset
  /-- TK_OVERRUN. -/
  | tkOverrun
  /-- TK_OVERRUN_OVF. -/
  | tkOverrunOvf
  /-- LW_CAPS. -/
  | lwCaps
  /-- LW_CIRRUS_SHARE. -/
  | lwCirrusShare
  /-- LW_CIRRUS_DEFER. -/
  | lwCirrusDefer
  /-- LW_CIRRUS_MAIN. -/
  | lwCirrusMain
  /-- LW_EXC_COUNT. -/
  | lwExcCount
  /-- LW_COUNT_OVF. -/
  | lwCountOvf
  /-- CK_UNIT. -/
  | ckUnit
  /-- CK_CLUSTER_EPOCH. -/
  | ckClusterEpoch
  /-- CK_UNITS. -/
  | ckUnits
  /-- CK_REPAIR. -/
  | ckRepair
  /-- CK_MAINT_REQ. -/
  | ckMaintReq
  /-- CK_MAINT_STATUS. -/
  | ckMaintStatus
  /-- CK_RETRIED. -/
  | ckRetried
  /-- CK_RELOCATED. -/
  | ckRelocated
  /-- CK_TOL_DATA. -/
  | ckTolData
  /-- CK_ECC_CORR. -/
  | ckEccCorr
  /-- CK_COUNT_OVF. -/
  | ckCountOvf
  /-- VX_UPD_CAPS. -/
  | vxUpdCaps
  /-- VX_ADVANCES. -/
  | vxAdvances
  /-- VX_NORM_NONFINITE. -/
  | vxNormNonfinite
  /-- VX_UPD_OVF. -/
  | vxUpdOvf
  /-- SM_TENANT. -/
  | smTenant
  /-- SM_LAT_WINDOW. -/
  | smLatWindow
  /-- SM_LAT. -/
  | smLat
  /-- SM_TOKENS. -/
  | smTokens
  /-- SM_COUNT_OVF. -/
  | smCountOvf
  /-- RG_CAPS. -/
  | rgCaps
  /-- RG_PINNED_TILES. -/
  | rgPinnedTiles
  /-- RG_COUNT_OVF. -/
  | rgCountOvf
  /-- KV_CAPS. -/
  | kvCaps
  /-- KV_SHARE. -/
  | kvShare
  /-- KV_USE. -/
  | kvUse
  /-- KV_PREFIX_HIT. -/
  | kvPrefixHit
  /-- KV_PREFIX_SKIP. -/
  | kvPrefixSkip
  /-- KV_EVICT. -/
  | kvEvict
  /-- KV_PAGE_WAIT. -/
  | kvPageWait
  /-- KV_COUNT_OVF. -/
  | kvCountOvf
  /-- CT_CAPS. -/
  | ctCaps
  /-- CT_PART. -/
  | ctPart
  /-- CT_CTX. -/
  | ctCtx
  /-- CT_LIB. -/
  | ctLib
  /-- CT_LOAD_REQ. -/
  | ctLoadReq
  /-- CT_LOAD_STATUS. -/
  | ctLoadStatus
  /-- CT_PUBLISHES. -/
  | ctPublishes
  /-- CT_FAILED. -/
  | ctFailed
  /-- CT_SATURATED. -/
  | ctSaturated
  /-- CT_RESENT. -/
  | ctResent
  /-- CT_HELD. -/
  | ctHeld
  /-- CT_COUNT_OVF. -/
  | ctCountOvf
  /-- CT_EXP. -/
  | ctExp
  /-- CT_EXP_STALE. -/
  | ctExpStale
  /-- CT_EXP_WAIT. -/
  | ctExpWait
  /-- CT_EXP_NOTEACH. -/
  | ctExpNoteach
  /-- CT_EXP_NOREWARD. -/
  | ctExpNoreward
  /-- CT_EXP_ANNOT_REJ. -/
  | ctExpAnnotRej
  /-- CT_EXP_OVF. -/
  | ctExpOvf
  /-- SQ_CAPS. -/
  | sqCaps
  /-- SQ_VL. -/
  | sqVl
  /-- SQ_PART. -/
  | sqPart
  /-- SQ_PORT. -/
  | sqPort
  /-- SQ_ABORT_LAST. -/
  | sqAbortLast
  /-- SQ_INNET. -/
  | sqInnet
  /-- SQ_FALLBACK. -/
  | sqFallback
  /-- SQ_ABORTS. -/
  | sqAborts
  /-- SQ_POISONS. -/
  | sqPoisons
  /-- SQ_RETRANS. -/
  | sqRetrans
  /-- SQ_LINK_ERR. -/
  | sqLinkErr
  /-- SQ_COUNT_OVF. -/
  | sqCountOvf
  /-- AG_CAPS. -/
  | agCaps
  /-- AG_JOB. -/
  | agJob
  /-- AG_REQ. -/
  | agReq
  /-- AG_REQ_STATUS. -/
  | agReqStatus
  /-- AG_CUTS. -/
  | agCuts
  /-- AG_SKIPPED. -/
  | agSkipped
  /-- AG_STALLS. -/
  | agStalls
  /-- AG_DRAINS. -/
  | agDrains
  /-- AG_DRAIN_SKIPPED. -/
  | agDrainSkipped
  /-- AG_ROLLBACKS. -/
  | agRollbacks
  /-- AG_COUNT_OVF. -/
  | agCountOvf
  /-- HZ_CAPS. -/
  | hzCaps
  /-- HZ_PORT. -/
  | hzPort
  /-- HZ_STREAM. -/
  | hzStream
  /-- HZ_PEER. -/
  | hzPeer
  /-- HZ_CTRL. -/
  | hzCtrl
  /-- HZ_CTRL_STATUS. -/
  | hzCtrlStatus
  /-- HZ_HOLDOVER. -/
  | hzHoldover
  /-- HZ_OBS_MISSING. -/
  | hzObsMissing
  /-- HZ_OBS_SUPERSEDED. -/
  | hzObsSuperseded
  /-- HZ_RX_DROP. -/
  | hzRxDrop
  /-- HZ_COUNT_OVF. -/
  | hzCountOvf
  /-- PT_PART. -/
  | ptPart
  /-- PT_STAGE. -/
  | ptStage
  /-- PT_STAGE_CHANNELS. -/
  | ptStageChannels
  /-- PT_REQ. -/
  | ptReq
  /-- PT_REQ_STATUS. -/
  | ptReqStatus
  /-- PT_VIEW. -/
  | ptView
  /-- PT_ADMITTED. -/
  | ptAdmitted
  /-- PT_COMPLETED. -/
  | ptCompleted
  /-- PT_FAULTED. -/
  | ptFaulted
  /-- PT_TORN_DOWN. -/
  | ptTornDown
  /-- PT_COUNT_OVF. -/
  | ptCountOvf
  /-- SC_AUTH_FAILS. -/
  | scAuthFails
  /-- SC_COUNT_OVF. -/
  | scCountOvf
  /-- SC_ATTEST_REQ. -/
  | scAttestReq
  /-- SC_ATTEST_STATUS. -/
  | scAttestStatus
  /-- SC_DEVICE_ID. -/
  | scDeviceId
  /-- WN_BOOT. -/
  | wnBoot
  /-- WN_PKG. -/
  | wnPkg
  /-- WN_DISCARD_LAST. -/
  | wnDiscardLast
  /-- WN_COMPONENT. -/
  | wnComponent
  /-- WN_HOT_REQ. -/
  | wnHotReq
  /-- WN_HOT_STATUS. -/
  | wnHotStatus
  /-- WN_LOG. -/
  | wnLog
  /-- WN_TRACE_EN. -/
  | wnTraceEn
  /-- WN_TRACE_SEQ. -/
  | wnTraceSeq
  /-- WN_JOB_SUBMIT. -/
  | wnJobSubmit
  /-- WN_JOB_STATUS. -/
  | wnJobStatus
  /-- WN_DISCARDS. -/
  | wnDiscards
  /-- WN_RESTARTS. -/
  | wnRestarts
  /-- WN_COUNT_OVF. -/
  | wnCountOvf
  /-- PM_CLUSTER. -/
  | pmCluster
  /-- PM_DIE. -/
  | pmDie
  /-- PM_PART. -/
  | pmPart
  /-- PM_THROTTLE. -/
  | pmThrottle
  /-- PM_CAP_TICKS. -/
  | pmCapTicks
  /-- PM_THROTTLE_TICKS. -/
  | pmThrottleTicks
  /-- PM_COUNT_OVF. -/
  | pmCountOvf
  /-- PM_SUPPLY. -/
  | pmSupply
  /-- MT_REGION. -/
  | mtRegion
  /-- MT_CAPS. -/
  | mtCaps
  /-- MT_CHANNEL. -/
  | mtChannel
  /-- MT_CORR. -/
  | mtCorr
  /-- MT_UNCORR. -/
  | mtUncorr
  /-- MT_EDC_RETRY. -/
  | mtEdcRetry
  /-- MT_PREFETCH_LATE. -/
  | mtPrefetchLate
  /-- MT_COUNT_OVF. -/
  | mtCountOvf
  /-- MT_ERR_LAST. -/
  | mtErrLast
  /-- MT_STRATUS. -/
  | mtStratus
deriving DecidableEq, Repr

/-- Registers of the TK block in the order in which the manual presents them: bytes of an element, elements. -/
def tkRegs : List (Reg × Nat × Nat) :=
  [(.tkConfig, 8, 1), (.tkConfigNext, 8, 1), (.tkApplyAt, 8, 1), (.tkTick, 8, 1), (.tkStatus, 8, 1),
   (.tkSync, 8, 1), (.tkOffset, 8, 1), (.tkOverrun, 8, 128), (.tkOverrunOvf, 16, 1)]

/-- Registers of the LW block in the order in which the manual presents them: bytes of an element, elements. -/
def lwRegs : List (Reg × Nat × Nat) :=
  [(.lwCaps, 8, 1), (.lwCirrusShare, 8, 16), (.lwCirrusDefer, 8, 16), (.lwCirrusMain, 8, 16),
   (.lwExcCount, 8, 16), (.lwCountOvf, 8, 1)]

/-- Registers of the CK block in the order in which the manual presents them: bytes of an element, elements. -/
def ckRegs : List (Reg × Nat × Nat) :=
  [(.ckUnit, 8, 14336), (.ckClusterEpoch, 8, 1792), (.ckUnits, 8, 1), (.ckRepair, 8, 1), (.ckMaintReq, 8, 1),
   (.ckMaintStatus, 8, 1), (.ckRetried, 8, 16), (.ckRelocated, 8, 16), (.ckTolData, 8, 16), (.ckEccCorr, 8, 16),
   (.ckCountOvf, 8, 1)]

/-- Registers of the VX block in the order in which the manual presents them: bytes of an element, elements. -/
def vxRegs : List (Reg × Nat × Nat) :=
  [(.vxUpdCaps, 8, 1), (.vxAdvances, 8, 16), (.vxNormNonfinite, 8, 16), (.vxUpdOvf, 8, 1)]

/-- Registers of the SM block in the order in which the manual presents them: bytes of an element, elements. -/
def smRegs : List (Reg × Nat × Nat) :=
  [(.smTenant, 16, 4096), (.smLatWindow, 8, 1), (.smLat, 16, 4096), (.smTokens, 8, 4096), (.smCountOvf, 512, 1)]

/-- Registers of the RG block in the order in which the manual presents them: bytes of an element, elements. -/
def rgRegs : List (Reg × Nat × Nat) :=
  [(.rgCaps, 8, 1), (.rgPinnedTiles, 8, 16), (.rgCountOvf, 8, 1)]

/-- Registers of the KV block in the order in which the manual presents them: bytes of an element, elements. -/
def kvRegs : List (Reg × Nat × Nat) :=
  [(.kvCaps, 8, 1), (.kvShare, 8, 16), (.kvUse, 8, 16), (.kvPrefixHit, 8, 16), (.kvPrefixSkip, 8, 16),
   (.kvEvict, 8, 16), (.kvPageWait, 8, 16), (.kvCountOvf, 8, 1)]

/-- Registers of the CT block in the order in which the manual presents them: bytes of an element, elements. -/
def ctRegs : List (Reg × Nat × Nat) :=
  [(.ctCaps, 8, 1), (.ctPart, 8, 16), (.ctCtx, 32, 256), (.ctLib, 32, 1024), (.ctLoadReq, 8, 1),
   (.ctLoadStatus, 8, 1), (.ctPublishes, 8, 16), (.ctFailed, 8, 16), (.ctSaturated, 8, 16), (.ctResent, 8, 16),
   (.ctHeld, 8, 16), (.ctCountOvf, 16, 1), (.ctExp, 32, 256), (.ctExpStale, 8, 16), (.ctExpWait, 8, 16),
   (.ctExpNoteach, 8, 16), (.ctExpNoreward, 8, 16), (.ctExpAnnotRej, 8, 16), (.ctExpOvf, 16, 1)]

/-- Registers of the SQ block in the order in which the manual presents them: bytes of an element, elements. -/
def sqRegs : List (Reg × Nat × Nat) :=
  [(.sqCaps, 8, 1), (.sqVl, 8, 129), (.sqPart, 8, 16), (.sqPort, 8, 256), (.sqAbortLast, 16, 16),
   (.sqInnet, 8, 16), (.sqFallback, 8, 16), (.sqAborts, 8, 16), (.sqPoisons, 8, 16), (.sqRetrans, 8, 256),
   (.sqLinkErr, 8, 256), (.sqCountOvf, 80, 1)]

/-- Registers of the AG block in the order in which the manual presents them: bytes of an element, elements. -/
def agRegs : List (Reg × Nat × Nat) :=
  [(.agCaps, 8, 1), (.agJob, 32, 256), (.agReq, 8, 1), (.agReqStatus, 8, 1), (.agCuts, 8, 16),
   (.agSkipped, 8, 16), (.agStalls, 8, 16), (.agDrains, 8, 16), (.agDrainSkipped, 8, 16), (.agRollbacks, 8, 16),
   (.agCountOvf, 16, 1)]

/-- Registers of the HZ block in the order in which the manual presents them: bytes of an element, elements. -/
def hzRegs : List (Reg × Nat × Nat) :=
  [(.hzCaps, 8, 1), (.hzPort, 8, 16), (.hzStream, 16, 4096), (.hzPeer, 32, 4096), (.hzCtrl, 8, 1),
   (.hzCtrlStatus, 8, 1), (.hzHoldover, 8, 16), (.hzObsMissing, 8, 16), (.hzObsSuperseded, 8, 16),
   (.hzRxDrop, 8, 16), (.hzCountOvf, 8, 1)]

/-- Registers of the PT block in the order in which the manual presents them: bytes of an element, elements. -/
def ptRegs : List (Reg × Nat × Nat) :=
  [(.ptPart, 8, 16), (.ptStage, 128, 16), (.ptStageChannels, 128, 1), (.ptReq, 8, 1), (.ptReqStatus, 8, 1),
   (.ptView, 8, 1), (.ptAdmitted, 8, 16), (.ptCompleted, 8, 16), (.ptFaulted, 8, 16), (.ptTornDown, 8, 16),
   (.ptCountOvf, 8, 1)]

/-- Registers of the SC block in the order in which the manual presents them: bytes of an element, elements. -/
def scRegs : List (Reg × Nat × Nat) :=
  [(.scAuthFails, 8, 1), (.scCountOvf, 8, 1), (.scAttestReq, 8, 1), (.scAttestStatus, 8, 1), (.scDeviceId, 16, 1)]

/-- Registers of the WN block in the order in which the manual presents them: bytes of an element, elements. -/
def wnRegs : List (Reg × Nat × Nat) :=
  [(.wnBoot, 16, 1), (.wnPkg, 8, 1), (.wnDiscardLast, 8, 1), (.wnComponent, 8, 9), (.wnHotReq, 8, 1),
   (.wnHotStatus, 8, 1), (.wnLog, 8, 64), (.wnTraceEn, 8, 1024), (.wnTraceSeq, 8, 1), (.wnJobSubmit, 8, 1),
   (.wnJobStatus, 8, 1), (.wnDiscards, 8, 17), (.wnRestarts, 8, 9), (.wnCountOvf, 8, 1)]

/-- Registers of the PM block in the order in which the manual presents them: bytes of an element, elements. -/
def pmRegs : List (Reg × Nat × Nat) :=
  [(.pmCluster, 8, 1792), (.pmDie, 8, 64), (.pmPart, 16, 16), (.pmThrottle, 8, 1), (.pmCapTicks, 8, 16),
   (.pmThrottleTicks, 8, 1), (.pmCountOvf, 8, 1), (.pmSupply, 8, 1)]

/-- Registers of the MT block in the order in which the manual presents them: bytes of an element, elements. -/
def mtRegs : List (Reg × Nat × Nat) :=
  [(.mtRegion, 32, 2048), (.mtCaps, 8, 1), (.mtChannel, 8, 128), (.mtCorr, 8, 128), (.mtUncorr, 8, 128),
   (.mtEdcRetry, 8, 128), (.mtPrefetchLate, 8, 16), (.mtCountOvf, 64, 1), (.mtErrLast, 16, 1),
   (.mtStratus, 16, 56)]

/-- A register in its place: base offset, bytes of an element, elements. -/
structure RegDef where
  reg : Reg
  base : Nat
  bytes : Nat
  count : Nat
deriving DecidableEq, Repr

/-- Alignment of an element (R424): its bytes rounded up to a power of two, at least 8. -/
def regAlign (bytes : Nat) : Nat := if bytes ≤ 8 then 8 else 2 ^ (Nat.log2 (bytes - 1) + 1)

/-- Places registers from an offset on (R424). -/
def placeRegs : Nat → List (Reg × Nat × Nat) → List RegDef
  | _, [] => []
  | at_, (r, e, n) :: t =>
    let b := (at_ + regAlign e - 1) / regAlign e * regAlign e
    ⟨r, b, e, n⟩ :: placeRegs (b + e * n) t

/-- The registers of a block (R423): the WN block's start at 0x10000. -/
def blockRegs : Nat → List RegDef
  | 0 => placeRegs 0x010000 wnRegs
  | 1 => placeRegs 0x100000 tkRegs
  | 2 => placeRegs 0x200000 lwRegs
  | 3 => placeRegs 0x300000 ckRegs
  | 4 => placeRegs 0x400000 vxRegs
  | 5 => placeRegs 0x500000 smRegs
  | 6 => placeRegs 0x600000 rgRegs
  | 7 => placeRegs 0x700000 kvRegs
  | 8 => placeRegs 0x800000 ctRegs
  | 9 => placeRegs 0x900000 sqRegs
  | 10 => placeRegs 0xA00000 agRegs
  | 11 => placeRegs 0xB00000 hzRegs
  | 12 => placeRegs 0xC00000 ptRegs
  | 13 => placeRegs 0xD00000 scRegs
  | 14 => placeRegs 0xE00000 pmRegs
  | 15 => placeRegs 0xF00000 mtRegs
  | _ => []

/-- The register, element and word at a window offset, if there is one. -/
def regAt (off : Nat) : Option (Reg × Nat × Nat) :=
  ((blockRegs (off / 0x100000)).find? fun d => decide (d.base ≤ off) && decide (off < d.base + d.bytes * d.count)).map
    fun d => (d.reg, (off - d.base) / d.bytes, (off - d.base) % d.bytes / 8)

/-- Window offset of word `w` of element `i` of a register. -/
def regOff (r : Reg) (i w : Nat) : Nat :=
  match ((List.range 16).flatMap blockRegs).find? fun d => decide (d.reg = r) with
  | some d => d.base + d.bytes * i + 8 * w
  | none => 0

/-! ## Discarded accesses (R12, R425, R428) -/

/-- Records a discarded access of a view in WN_DISCARD_LAST and counts it in WN_DISCARDS. -/
def recordDiscard (who : Who) (off kind : Nat) (s : State) : State :=
  let v := viewOf s who
  let d := (off % 2 ^ 24, kind, s.tk.tick % 2 ^ 32)
  let s1 := modView v (fun x => { x with discard := d }) (fun x => { x with discard := d }) s
  if v ≤ 16 then bump .wnDiscards v s1 else s1

/-- Ends a register write: the writer sees the status, and a discard is recorded. -/
def endWrite (who : Who) (off : Nat) (w : Wr) : State :=
  let s1 := match w.drop with
    | some k => recordDiscard who off k w.s
    | none => w.s
  emit (.outcome who w.st) s1

/-- The window answers: ticks run, the requester exists, and component 8 has not failed (R418). -/
def windowUp (s : State) (who : Who) : Bool :=
  decide (s.edge.power = .running) && present s who
    && (match tabFind 8 s.wn.comps with
        | some c => decide (c.state ≠ 2)
        | none => true)

/-- A write command of the table that stands for a store to word `w` of element `i` of a register. -/
def writeCmd (who : Who) (r : Reg) (i w : Nat) (f : State → Wr) (s : State) : State :=
  if windowUp s who then endWrite who (regOff r i w) (f s) else s

end Sys2Proof.Machine
end

