-- ==== Sys2Proof/Machine/Horizon.lean ====
section
/-!
DEFINITION. Horizon ports (R367 to R384): streams, observations, actions, holdover, the wind-down ramp, and the commands
and registers that configure them.
-/

namespace Sys2Proof.Machine

/-! ## Streams and ports -/

/-- A stream at reset (R383). -/
def streamReset : Stream :=
  { part := 0, port := 0, state := .closed, holdMode := 1, actionKind := 0, actionBytes := 64, obsBytes := 0, decayN := 1,
    holdLimit := 0, windK := 0, holdRun := 0, peer := 0#256, safe := [], park := [], last := [], nextAct := none, base := [],
    lastTag := 0, sent := 0, rampStep := 0, finalSent := false, obs := [], latched := 0#32, missing := true, openDue := false,
    closeDue := false, limitDue := false, served := none, bindDue := none }

/-- Stream `i`. -/
def getStream (s : State) (i : Nat) : Stream := tabGet streamReset s.streams i

/-- Changes a stream; one outside 0–4,095 does not exist. -/
def modStream (i : Nat) (f : Stream → Stream) (s : State) : State :=
  if i < 4096 then { s with streams := tabIns i (f (getStream s i)) s.streams } else s

/-- Streams that are not CLOSED, ascending. -/
def openStreams (s : State) : List Nat := (s.streams.filter fun e => decide (e.2.state ≠ .closed)).map (·.1)

/-- An environment port before start-up. -/
def envPortReset : EnvPort := ⟨⟨0#48, 0#32, 0#128, 0, 0, false⟩, false⟩

/-- Environment port `n`. -/
def getEnvPort (s : State) (n : Nat) : EnvPort := tabGet envPortReset s.envPorts n

/-- Changes an environment port. -/
def modEnvPort (n : Nat) (f : EnvPort → EnvPort) (s : State) : State :=
  if n < 16 then { s with envPorts := tabIns n (f (getEnvPort s n)) s.envPorts } else s

/-- A buffer of the action store as `n` bytes; bytes never written are 0 (log 1). -/
def actBytes (n : Nat) (l : List Byte) : List Byte := (l ++ List.replicate (n - l.length) 0#8).take n

/-- SAFE as ACTION_BYTES bytes. -/
def Stream.safeAct (x : Stream) : List Byte := actBytes x.actionBytes x.safe

/-- PARK as ACTION_BYTES bytes. -/
def Stream.parkAct (x : Stream) : List Byte := actBytes x.actionBytes x.park

/-- FP32 elements of an action. -/
def actWords (l : List Byte) : List W32 :=
  (List.range (l.length / 4)).map fun i => BitVec.ofNat 32 (leNat ((l.drop (4 * i)).take 4))

/-- fma(TO − FROM, f, FROM) for each FP32 element (R378, R380). -/
def blend (tgt frm : List Byte) (i n : Nat) : List Byte :=
  let f := fDiv (fOfNat i) (fOfNat n)
  w32Bytes (List.zipWith (fun t l => fFma (fSub t l) f l) (actWords tgt) (actWords frm))

/-! ## Observations (R373 to R375) -/

/-- R373's conditions for a datagram that is taken. -/
def obsOk (x : Stream) (port : Nat) (d : Datagram) : Bool :=
  d.udpOk && d.crcOk && decide (d.ver = 1) && decide (d.type = 0) && d.reservedZero && decide (d.stream < 4096)
    && decide (x.state ≠ .closed) && decide (x.port = port) && decide (x.peer.toNat % 2 ^ 128 = d.srcIp.toNat)
    && decide (x.peer.toNat / 2 ^ 176 % 2 ^ 16 = d.srcPort) && decide (d.payload.length ≤ x.obsBytes)

/-- A datagram on an environment port (R373). What R367's framing rules drop is not counted. -/
def obsIn (port : Nat) (d : Datagram) (s : State) : State :=
  if !(getEnvPort s port).up || !d.framingOk then s
  else if obsOk (getStream s d.stream) port d then
    modStream d.stream (fun x => { x with obs := x.obs ++ [(d.seq, d.tick, d.payload)] }) s
  else bump .hzRxDrop port s

/-- The observation with the highest SEQ modulo 2^32 against the one latched before; of equal ones the first received
(R374). -/
def newestObs (prev : W32) (l : List (W32 × W64 × List Byte)) : Option (W32 × W64 × List Byte) :=
  l.foldl (fun b o => match b with
    | none => some o
    | some c => if (c.1 - prev).toNat < (o.1 - prev).toNat then some o else b) none

/-- An observation record (R375): a missing one is the header alone, with the tick in force in word 0. -/
def obsRecord (tick bytes sup : Nat) : Option (W32 × W64 × List Byte) → List Byte
  | none => w64Bytes [BitVec.ofNat 64 tick, BitVec.ofNat 64 (2 ^ 32 + min sup 65535 * 2 ^ 48), 0#64, 0#64]
  | some o => w64Bytes [o.2.1, BitVec.ofNat 64 (o.1.toNat + min sup 65535 * 2 ^ 48), 0#64, 0#64] ++ actBytes bytes o.2.2

/-- Offset of a stream's pair of records in its region: after the streams that share the region and come before it in the
section (log 32). -/
def obsOffset (b : HzBind) : List HzBind → Nat
  | [] => 0
  | x :: t => if x.stream = b.stream then 0 else (if x.region = b.region then 2 * (32 + x.obs) else 0) + obsOffset b t

/-- Writes a record into the observation region at slot TICK mod 2, and counts an arrival of the stream's chain (R375). -/
def putRecord (j : Nat) (b : HzBind) (tick : Nat) (data : List Byte) (s : State) : State :=
  match getJob s j with
  | none => s
  | some x =>
    let off := obsOffset b x.streams + tick % 2 * (32 + b.obs)
    chainArrive (b.cluster % 2048) b.chain (writePlace (b.region / 256) (b.region % 256) off data s)

/-- Sends a record to the serving cluster: of this package, or of another over the partition's HORIZON lane (R369, R375). -/
def sendRecord (j i tick : Nat) (data : List Byte) (s : State) : State :=
  match getJob s j with
  | none => s
  | some x => match x.streams.find? fun b => decide (b.stream = i) with
    | none => s
    | some b =>
      let rank := b.cluster / 2048
      if rank = x.rank then putRecord j b tick data s
      else match x.packages[rank]? with
        | some pkg => sendMsg pkg 8 6 (56 + (getStream s i).port / 2) (b.cluster % 2048 / 32) 
            ⟨j, 0, 0, b.cluster % 2048 / 32, b.cluster % 32, b.chain, tick % 2 ^ 32, 0, 0, i, 0, true⟩ data s
        | none => s

/-- Latches one stream at an intake edge (R374, R375). -/
def latchStream (i : Nat) (s : State) : State :=
  let x := getStream s i
  let best := newestObs x.latched x.obs
  let sup := x.obs.length - 1
  let s1 := modStream i (fun y => { y with obs := [], missing := best.isNone, latched := (best.map (·.1)).getD y.latched }) s
  let s2 := if best.isNone then bump .hzObsMissing x.part s1 else bumpBy .hzObsSuperseded x.part sup s1
  match x.served with
  | some j => sendRecord j i s.tk.tick (obsRecord s.tk.tick x.obsBytes sup best) s2
  | none => s2

/-- Every stream that is not CLOSED latches its observation (R374, R380). -/
def hzIntake (s : State) : State := forEach (openStreams s) latchStream s

/-! ## Posts (R376, R384) -/

/-- STREAM of an HZ_POST. -/
def hzStreamOf (c : Card) : Nat := fld c.w2 11 0

/-- LINE of an HZ_POST. -/
def hzLine (c : Card) : Nat := fld c.w2 31 16

/-- Lines of a stream's action. -/
def hzLines (s : State) (c : Card) : Nat := ((getStream s (hzStreamOf c)).actionBytes + 63) / 64

/-- Checks of an HZ_POST at post (R103). -/
def hzCheck (s : State) (c : Card) : Chk := poolRange (hzLine c) (hzLines s c)

/-- A post of a job reaches the home port engine: its status (R376). -/
def settlePost (j i issued tag : Nat) (data : List Byte) (s : State) : Status × State :=
  let x := getStream s i
  if x.served ≠ some j ∨ x.state ≠ .live then (.hzNotServing, s)
  else if s.tk.tick ≠ issued ∨ s.tk.phase ≠ .step then (.hzActionLate, s)
  else if x.nextAct.isSome then (.hzActionDup, s)
  else (.ok, modStream i (fun y => { y with nextAct := some (data, tag) }) s)

/-- HZ_POST at its place in the list: the control core hands the action to the home port engine, with the tick of its issue
and the low 16 bits of the epoch in force (R376). -/
def doHzPost (cl : Nat) (poolBad : Bool) (q : QCard) (s : State) : State :=
  let c := q.card
  let n := (getStream s (hzStreamOf c)).actionBytes
  if poolBad then retire9 cl q .poolUncorrectable (8 + hzLines s c) s
  else putTier cl { runOf q with
    host := 2
    writes := bytesAt 0 (memBytes s.mem (poolKey cl (64 * hzLine c)) n)
    chunks := epochInForce s c.job % 2 ^ 16
    cycles := 8 + hzLines s c
    issueTick := s.tk.tick } s

/-- Whether a stream's home port is on another package than this, as far as this package can tell: the job names it, spans
packages, and does not serve it here (log 32). -/
def remoteHome (s : State) (j i : Nat) : Bool :=
  match getJob s j with
  | some x => decide (1 < x.packages.length) && decide ((getStream s i).served ≠ some j) && x.streams.any fun b => decide (b.stream = i)
  | none => false

/-- The status of a post to a home port of another package, which only that package knows: one of R376's, by a free value
(log 8). -/
def remotePostStatus (v : Nat) : Status :=
  match v % 4 with
  | 0 => .ok
  | 1 => .hzActionDup
  | 2 => .hzActionLate
  | _ => .hzNotServing

/-- A post retires when its home port engine has settled it (R376). -/
def retirePost (cl k : Nat) (s : State) : State :=
  match (getCl s cl).tier[k]? with
  | none => s
  | some r =>
    let c := r.card
    let data := r.writes.map (·.2)
    let s0 := modCl cl (fun x => { x with tier := dropAt k x.tier }) s
    if remoteHome s c.job (hzStreamOf c) then
      let (v, s1) := takeFree s0
      let s2 := forEach (otherPkgs s1 c.job) (fun pkg t => sendMsg pkg 8 6 (clDie cl) 56
        ⟨c.job, 0, 0, 56, 0, 0, r.issueTick % 2 ^ 32, 0, 0, hzStreamOf c + r.chunks * 2 ^ 32, 0, true⟩ data t) s1
      settle cl ⟨c, r.ord⟩ { Report.of (remotePostStatus v.toNat) 0 with cycles := r.cycles } s2
    else
      let (st, s1) := settlePost c.job (hzStreamOf c) r.issueTick r.chunks data s0
      settle cl ⟨c, r.ord⟩ { Report.of st 0 with cycles := r.cycles } s1

/-- HORIZON_MSG (R369): an action for a stream whose home port is here, or an observation record of a stream that a cluster
here serves. -/
def horizonIn (i : Nat) (toPort : Bool) (tick tag : Nat) (data : List Byte) (s : State) : State :=
  if toPort then
    match (getStream s i).served with
    | some j => (settlePost j i tick tag (actBytes (getStream s i).actionBytes data) s).2
    | none => s
  else match s.jobs.find? fun e => e.2.streams.any fun b => decide (b.stream = i) && decide (b.cluster / 2048 = e.2.rank) with
    | some (j, x) => match x.streams.find? fun b => decide (b.stream = i) with
      | some b => putRecord j b tick data s
      | none => s
    | none => s

/-! ## The commit point (R377 to R380) -/

/-- What a stream sends in this tick: the payload, its EPOCH_TAG, HOLDOVER, WINDDOWN and FINAL. -/
structure Sending where
  data : List Byte
  tag : Nat
  hold : Bool
  wind : Bool
  fin : Bool

/-- HOLD_RUN of a holdover tick (R372). -/
def nextRun (x : Stream) : Nat := min (x.holdRun + 1) 65535

/-- The holdover action (R378); `l0` is LAST as it stood before the run. -/
def holdAction (x : Stream) (l0 : List Byte) (run : Nat) : List Byte :=
  match x.holdMode with
  | 0 => x.last
  | 2 => if run < x.decayN then blend x.safeAct l0 run x.decayN else x.safeAct
  | _ => x.safeAct

/-- LAST before the hold run that this tick continues or begins. -/
def runBase (x : Stream) : List Byte := if x.holdRun = 0 then x.last else x.base

/-- The ramp action of step `j` of K (R380); with WIND_K 0 PARK is sent once. -/
def rampAction (x : Stream) (j : Nat) : List Byte :=
  if max 1 x.windK ≤ j ∨ x.actionKind = 1 then x.parkAct else blend x.parkAct x.base j x.windK

/-- The frame of a stream that is not CLOSED (R377). -/
def frameOf (x : Stream) : Sending :=
  match x.state, x.nextAct with
  | .live, some (d, t) => ⟨d, t, false, false, false⟩
  | .live, none => ⟨holdAction x (runBase x) (nextRun x), x.lastTag, true, false, false⟩
  | _, _ => ⟨rampAction x (x.rampStep + 1), x.lastTag, true, true, decide (max 1 x.windK ≤ x.rampStep + 1)⟩

/-- The stream after its frame. -/
def afterFrame (x : Stream) (f : Sending) : Stream :=
  { x with nextAct := none, last := f.data, lastTag := f.tag, sent := (x.sent + 1) % 2 ^ 32,
           holdRun := if f.hold then nextRun x else 0,
           base := if x.state = .live then runBase x else x.base,
           rampStep := if f.wind then x.rampStep + 1 else x.rampStep, finalSent := f.fin }

/-- The Horizon datagram of an ACTION: the header of R372 with its CRC-32C, and the payload. -/
def actionBytes (i seq tick tag run : Nat) (f : Sending) (missing : Bool) : List Byte :=
  let bit := fun (b : Bool) (n : Nat) => if b then 2 ^ n else 0
  let head := [0x11#8] ++ beBytes 1 (bit f.hold 0 + bit f.wind 1 + bit f.fin 2 + bit missing 3) ++ beBytes 2 i ++ beBytes 4 seq
    ++ beBytes 8 tick ++ beBytes 2 tag ++ beBytes 2 f.data.length ++ beBytes 2 run ++ [0#8, 0#8]
  let tail := List.replicate 4 0#8 ++ f.data
  head ++ beBytes 4 (crc32c (head ++ List.replicate 4 0#8 ++ tail)).toNat ++ tail

/-- The UDP checksum over the pseudo-header and the datagram (RFC 768 and RFC 8200): 16-bit words are added with end-around carry. -/
def udpSum (bs : List Byte) : Nat :=
  let words := (List.range ((bs.length + 1) / 2)).map fun k => beNat (((bs.drop (2 * k)).take 2 ++ [0#8]).take 2)
  let c := 65535 - words.foldl (fun a w => if a + w < 65536 then a + w else a + w - 65535) 0
  if c = 0 then 65535 else c

/-- A datagram between a stream's local and its peer's UDP port, with its checksum (R367, R383). -/
def udpDatagram (cfg : EnvPortRec) (peer : BitVec 256) (data : List Byte) : List Byte :=
  let ip := peer.toNat % 2 ^ 128
  let v4 := decide (ip < 2 ^ 32)
  let len := 8 + data.length
  let pseudo := (if v4 then beBytes 4 cfg.ipv4.toNat ++ beBytes 4 ip else beBytes 16 cfg.ipv6.toNat ++ beBytes 16 ip)
    ++ (if v4 then beBytes 2 17 ++ beBytes 2 len else beBytes 4 len ++ beBytes 4 17)
  let ports := beBytes 2 (peer.toNat / 2 ^ 192) ++ beBytes 2 (peer.toNat / 2 ^ 176) ++ beBytes 2 len
  ports ++ beBytes 2 (udpSum (pseudo ++ ports ++ [0#8, 0#8] ++ data)) ++ data

/-- A stream sends its frame; on a port whose link is down the frame is lost on the wire and the stream goes on (R381). -/
def sendAction (i : Nat) (s : State) : State :=
  let x := getStream s i
  let f := frameOf x
  let y := afterFrame x f
  let s1 := modStream i (fun _ => y) s
  let s2 := if f.hold then bump .hzHoldover x.part s1 else s1
  if (getEnvPort s x.port).up then
    emit (.action x.port i f.hold f.wind f.fin x.missing x.sent s.tk.tick f.tag y.holdRun f.data x.peer
      (udpDatagram (getEnvPort s x.port).cfg x.peer (actionBytes i x.sent s.tk.tick f.tag y.holdRun f x.missing))) s2
  else s2

/-- Partitions with a served LIVE stream that has no action ready: each misses its HORIZON deadline (R29, R30). -/
def lateStreams (s : State) : List Nat :=
  (s.streams.filter fun e => decide (e.2.state = .live) && e.2.nextAct.isNone && e.2.served.isSome).foldl
    (fun l e => setIns e.2.part l) []

/-- The ACTION frames of a commit point, in ascending stream order (R377). -/
def hzCommit (s : State) : State :=
  forEach (openStreams s) sendAction (forEach (lateStreams s) (fun p t => bump .tkOverrun (8 * p + 6) t) s)

/-! ## The boundary (R371, R379, R382) -/

/-- HOLD_RUN has reached HOLD_LIMIT (R379). -/
def limitReached (x : Stream) : Bool := decide (x.state = .live) && decide (x.holdLimit ≠ 0) && decide (x.holdLimit ≤ x.holdRun)

/-- The stream is to wind down because of HOLD_LIMIT: HZ_HOLD_LIMIT is raised once (R379). -/
def holdLimit (i : Nat) (s : State) : State :=
  let x := getStream s i
  if limitReached x ∧ x.limitDue = false then
    raise .hzHoldLimit x.part i (modStream i (fun y => { y with limitDue := true }) s)
  else s

/-- Whether a stream's configuration is legal for OPEN (R383). -/
def streamLegal (s : State) (x : Stream) : Bool :=
  decide (x.holdMode < 3) && decide (8 ≤ x.actionBytes) && decide (x.actionBytes ≤ 1024) && decide (x.actionBytes % 8 = 0)
    && decide (x.obsBytes ≤ 8192) && decide (1 ≤ x.decayN) && !(decide (x.holdMode = 2) && decide (x.actionKind = 1))
    && (getEnvPort s x.port).cfg.owned && decide ((getEnvPort s x.port).cfg.part = x.part)

/-- OPEN takes effect (R371). -/
def openStream (x : Stream) : Stream :=
  { x with state := .live, last := x.safeAct, lastTag := 0, sent := 0, holdRun := 0, base := [], nextAct := none, rampStep := 0,
           finalSent := false, obs := [], latched := 0#32, missing := true }

/-- The stream becomes WINDING: the ramp starts from LAST (R380, R384). -/
def windStream (x : Stream) : Stream := { x with state := .winding, base := x.last, rampStep := 0, finalSent := false, nextAct := none }

/-- One stream at a boundary, after step 6 of R31. -/
def streamBoundary (i : Nat) (s : State) : State :=
  let s1 := holdLimit i s
  let x := getStream s1 i
  let clear := fun (y : Stream) => { y with openDue := false, closeDue := false, limitDue := false, bindDue := none }
  match x.state with
  | .closed => modStream i (fun y => clear (if y.openDue && streamLegal s1 y then openStream y else y)) s1
  | .live =>
    if x.closeDue ∨ x.limitDue then modStream i (fun y => clear (windStream y)) s1
    else modStream i (fun y => clear { y with served := match y.served with
      | some j => some j
      | none => y.bindDue }) s1
  | .winding =>
    if x.finalSent then
      bumpBy .hzRxDrop x.port x.obs.length
        (modStream i (fun y => clear { y with state := .closed, obs := [], served := none, nextAct := none }) s1)
    else modStream i clear s1

/-- Every stream at a boundary. -/
def hzBoundary (s : State) : State := forEach (s.streams.map (·.1)) streamBoundary s

/-- Partition teardown: every LIVE stream of the partition is to move to WINDING at this boundary, and an OPEN not yet
applied lapses (R381). -/
def hzTeardown (p : Nat) (s : State) : State :=
  let f := fun (x : Stream) => if x.part = p then { x with closeDue := decide (x.state = .live), openDue := false } else x
  { s with streams := tabMap (fun _ x => f x) s.streams }

/-- A job ends: its streams lose it and stay on holdover (R381). -/
def hzRelease (j : Nat) (s : State) : State :=
  let drop := fun (o : Option Nat) => if o = some j then none else o
  let f := fun (x : Stream) => { x with served := drop x.served, bindDue := drop x.bindDue }
  { s with streams := tabMap (fun _ x => f x) s.streams }

/-- Whether a port still has a stream that is not CLOSED (R381, R392). -/
def portInUse (s : State) (n : Nat) : Bool := s.streams.any fun e => decide (e.2.port = n) && decide (e.2.state ≠ .closed)

/-! ## Registers and commands (R370, R371, R383) -/

/-- Whether the requester's view shows a stream (R394). -/
def seesStream (s : State) (who : Who) (x : Stream) : Bool := decide (viewOf s who = 16) || decide (viewOf s who = x.part)

/-- A write that tries to change a read-only field: its bits are neither zero nor the field's value (log 33). -/
def roBad (v : W64) (hi lo cur : Nat) : Bool := decide (fld v hi lo ≠ 0) && decide (fld v hi lo ≠ cur)

/-- Number of a stream's state in HZ_STREAM.STATE. -/
def HzState.code : HzState → Nat
  | .closed => 0
  | .live => 1
  | .winding => 2

/-- Word `w` of HZ_STREAM (R383). -/
def streamWord (x : Stream) (w : Nat) : Nat :=
  if w = 0 then
    x.part + x.port * 2 ^ 4 + x.state.code * 2 ^ 8 + x.holdMode * 2 ^ 10 + x.actionKind * 2 ^ 12
      + (if x.served.isSome then 2 ^ 13 else 0) + x.actionBytes * 2 ^ 16 + x.obsBytes * 2 ^ 32
  else x.decayN + x.holdLimit * 2 ^ 16 + x.windK * 2 ^ 32 + x.holdRun * 2 ^ 48

/-- A write of word `w` of HZ_STREAM[i] (R383). PART changes only with package rights. -/
def streamWrite (who : Who) (i w : Nat) (v : W64) (s : State) : Wr :=
  let x := getStream s i
  if !seesStream s who x then Wr.drops 0 s
  else if x.state ≠ .closed then Wr.no .hzStreamBusy s
  else if w = 0 then
    if fld v 11 10 = 3 then Wr.no .hzStreamInvalid s
    else
      let part := if packageRights s who then fld v 3 0 else x.part
      let ro := decide (part ≠ fld v 3 0) || roBad v 9 8 0 || roBad v 13 13 0
      let resv := decide (fld v 15 14 ≠ 0) || decide (fld v 31 27 ≠ 0) || decide (fld v 63 46 ≠ 0)
      Wr.part resv 1 (Wr.part ro 0 (Wr.ok (modStream i (fun y =>
        { y with part := part, port := fld v 7 4, holdMode := fld v 11 10, actionKind := fld v 12 12, actionBytes := fld v 26 16,
                 obsBytes := fld v 45 32 }) s)))
  else
    Wr.part (roBad v 63 48 x.holdRun) 0 (Wr.ok (modStream i (fun y =>
      { y with decayN := fld v 15 0, holdLimit := fld v 31 16, windK := fld v 47 32 }) s))

/-- Puts word `w` into a number of 64-bit words. -/
def putWord (n w v : Nat) : Nat := n % 2 ^ (64 * w) + v * 2 ^ (64 * w) + n / 2 ^ (64 * w + 64) * 2 ^ (64 * w + 64)

/-- A write of word `w` of HZ_PEER[i] (R383). -/
def peerWrite (who : Who) (i w : Nat) (v : W64) (s : State) : Wr :=
  let x := getStream s i
  if !seesStream s who x then Wr.drops 0 s
  else if x.state ≠ .closed then Wr.no .hzStreamBusy s
  else
    let n := if w = 3 then fld v 15 0 else v.toNat
    Wr.part (decide (w = 3) && decide (fld v 63 16 ≠ 0)) 1
      (Wr.ok (modStream i (fun y => { y with peer := BitVec.ofNat 256 (putWord y.peer.toNat w n) }) s))

/-- Whether a requester is a session. -/
def bySession : Who → Bool
  | .session _ => true
  | .cores _ => false

/-- A write of word `w` of SAFE or PARK (R370): sessions write them while the stream is CLOSED, and any other write is refused. -/
def actstoreWrite (who : Who) (i : Nat) (park : Bool) (w : Nat) (v : W64) (s : State) : Wr :=
  let x := getStream s i
  if !seesStream s who x then Wr.drops 0 s
  else if x.state ≠ .closed ∨ !bySession who then Wr.no .hzStreamBusy s
  else if min 1024 x.actionBytes < 8 * w + 8 then Wr.drops 2 s
  else
    let put := fun (l : List Byte) => let m := actBytes 1024 l
      m.take (8 * w) ++ leBytes 8 v.toNat ++ m.drop (8 * w + 8)
    Wr.ok (modStream i (fun y => if park then { y with park := put y.park } else { y with safe := put y.safe }) s)

/-- HZ_CTRL_STATUS of a view. -/
def setHzLast (who : Who) (st : Status) (s : State) : State :=
  modView (viewOf s who) (fun x => { x with hzLast := st }) (fun x => { x with hzLast := st }) s

/-- OPEN and CLOSE (R371, R383): rights first, then the state, then the fields. -/
def hzCtrlStatus (who : Who) (cls : Bool) (i : Nat) (s : State) : Status :=
  let x := getStream s i
  if !(packageRights s who || rightsOver s who x.part) then .hzDenied
  else if cls then (if x.state = .live then .ok else .hzStreamBusy)
  else if x.state ≠ .closed then .hzStreamBusy
  else if streamLegal s x then .ok
  else .hzStreamInvalid

/-- A write of HZ_CTRL (R383), which sessions make; the change takes effect at the next boundary. -/
def hzCtrl (who : Who) (cls : Bool) (i : Nat) (s : State) : Wr :=
  match who with
  | .cores _ => Wr.drops 0 s
  | .session _ =>
    let st := hzCtrlStatus who cls i s
    let s1 := setHzLast who st s
    if st = .ok then
      Wr.ok (modStream i (fun x => if cls then { x with closeDue := true } else { x with openDue := true }) s1)
    else Wr.no st s1

/-- A write of HZ_ACTSTORE, whose place in the window the manual does not give: the OFFSET recorded for a discarded one is a
free value (log 33). -/
def actstoreCmd (who : Who) (i : Nat) (park : Bool) (w : Nat) (v : W64) (s : State) : State :=
  if windowUp s who ∧ i < 4096 then
    let (o, s1) := takeFree s
    endWrite who (o.toNat % 2 ^ 20 + 0xB00000) (actstoreWrite who i park w v s1)
  else s

/-- ARP or neighbour solicitation: the port answers for its own addresses (R367). -/
def neighborReq (n : Nat) (v6 : Bool) (ip : BitVec 128) (s : State) : State :=
  let p := getEnvPort s n
  let own := if v6 then decide (ip = p.cfg.ipv6) else decide (ip.toNat = p.cfg.ipv4.toNat)
  if p.up && own then emit (.neighbor n p.cfg.mac) s else s

/-- A port loses its link (R381). -/
def envDown (n : Nat) (s : State) : State :=
  if (getEnvPort s n).up then
    raise .hzPortDown (getEnvPort s n).cfg.part n (modEnvPort n (fun p => { p with up := false }) s)
  else s

/-- A port's link comes up; a port of no partition keeps its link down (R368). -/
def envUp (n : Nat) (s : State) : State :=
  if (getEnvPort s n).cfg.owned then modEnvPort n (fun p => { p with up := true }) s else s

/-! ## The commands -/

/-- HORIZON_MSG (R369). -/
def execHorizonMsg (i : Nat) (toPort : Bool) (tick tag : Nat) (data : List Byte) (s : State) :
    Host.Outcome State Fault Refusal := running s (horizonIn i toPort tick tag data)

/-- HZ_OBS_RX (R373). -/
def execHzObsRx (port : Nat) (d : Datagram) (s : State) : Host.Outcome State Fault Refusal := running s (obsIn port d)

/-- HZ_POST (R376): it issues only in the HORIZON window. -/
def execHzPost (cl : Nat) (poolBad : Bool) (s : State) : Host.Outcome State Fault Refusal :=
  running s (fun t => if t.tk.phase = .step then exec9 cl 17 (doHzPost cl poolBad) t else t)

/-- HZ_HOLD_LIMIT (R379). -/
def execHzHoldLimit (i : Nat) (s : State) : Host.Outcome State Fault Refusal := running s (holdLimit i)

/-- HZ_OPEN (R371). -/
def execHzOpen (who : Who) (i : Nat) (s : State) : Host.Outcome State Fault Refusal :=
  running s (writeCmd who .hzCtrl 0 0 (hzCtrl who false i))

/-- HZ_CLOSE (R371). -/
def execHzClose (who : Who) (i : Nat) (s : State) : Host.Outcome State Fault Refusal :=
  running s (writeCmd who .hzCtrl 0 0 (hzCtrl who true i))

/-- HZ_ACTSTORE_WRITE (R370). -/
def execHzActstoreWrite (who : Who) (i : Nat) (park : Bool) (w : Nat) (v : W64) (s : State) :
    Host.Outcome State Fault Refusal := running s (actstoreCmd who i park w v)

/-- HZ_STREAM_WRITE (R383). -/
def execHzStreamWrite (who : Who) (i : Nat) (peer : Bool) (w : Nat) (v : W64) (s : State) :
    Host.Outcome State Fault Refusal :=
  running s (if peer then writeCmd who .hzPeer i w (peerWrite who i w v) else writeCmd who .hzStream i w (streamWrite who i w v))

/-- HZ_NEIGHBOR_REQ (R367). -/
def execHzNeighborReq (n : Nat) (v6 : Bool) (ip : BitVec 128) (s : State) : Host.Outcome State Fault Refusal :=
  running s (neighborReq n v6 ip)

/-- HZ_PORT_DOWN (R381). -/
def execHzPortDown (n : Nat) (s : State) : Host.Outcome State Fault Refusal := running s (envDown n)

/-- ENV_PORT_LINK_UP (R383). -/
def execEnvPortLinkUp (n : Nat) (s : State) : Host.Outcome State Fault Refusal := running s (envUp n)

end Sys2Proof.Machine
end

