-- ==== Sys2Proof/Machine/Maint.lean ====
section
/-!
DEFINITION. Maintenance (R88 to R98, R181, R467): requests, the maintenance slot, tests and their outcomes, spare remap,
retirement, refill and re-checksum.
-/

namespace Sys2Proof.Machine

/-! ## Requests (R96, R98) -/

/-- The external port that a fabric lane belongs to. -/
def lanePort (s : State) (lane : Nat) : Option Nat :=
  (s.sq.ports.find? fun e => decide (e.1 ≤ lane) && decide (lane < e.1 + e.2.width)).map (·.1)

/-- Whether a job holds the target of a request (R98). -/
def targetHeld (s : State) (kind target : Nat) : Bool :=
  if kind < 2 then (getCl s (target / 8)).owner.isSome
  else if kind = 2 then chanHeld s target
  else s.jobs.any fun e => decide (1 < e.2.packages.length)

/-- KIND and TARGET name something that exists. -/
def targetExists (kind target : Nat) : Bool :=
  match kind with
  | 0 => decide (target < 14336)
  | 1 => decide (target < 14336)
  | 2 => decide (target < 128)
  | 3 => decide (target < 256)
  | _ => false

/-- The requester's rights over a target: package rights, or ARITH_TEST of an own unit or RETRAIN of an own channel. -/
def maintRights (s : State) (who : Who) (kind target : Nat) : Bool :=
  packageRights s who || match kind with
    | 0 => (match clPart s (target / 8) with
      | some p => rightsOver s who p
      | none => false)
    | 2 => (match chanOwner s.pt.chans target with
      | some o => rightsOver s who o.1
      | none => false)
    | _ => false

/-- R98's checks of a new request, in order. -/
def maintStatus (who : Who) (kind target share : Nat) (s : State) : Status :=
  if !targetExists kind target then .ckReqInvalid
  else if !maintRights s who kind target then .ckReqDenied
  else if kind < 2 ∧ unitEnabled (getUnit s target) = false then .ckTargetRetired
  else if kind = 1 ∧ targetHeld s 1 target then .ckUnitInUse
  else if 64 ≤ shareUsed s share then .ckMaintQueueFull
  else if maintQueued s kind target then .ckReqMerged
  else if s.tk.cfg.maintUs = 0 ∧ targetHeld s kind target then .ckNoSlot
  else .ok

/-- CK_MAINT_STATUS.LAST of a view. -/
def setMaintLast (who : Who) (st : Status) (s : State) : State :=
  modView (viewOf s who) (fun x => { x with maintLast := st }) (fun x => { x with maintLast := st }) s

/-- A write of CK_MAINT_REQ, which management sessions make (R99). -/
def maintWrite (who : Who) (kind target : Nat) (s : State) : Wr :=
  match who with
  | .cores _ => Wr.drops 0 s
  | .session _ =>
    let share := if packageRights s who then 16 else viewOf s who
    let st := maintStatus who kind target share s
    let s1 := setMaintLast who st s
    if st = .ok then Wr.ok { s1 with maint := s1.maint ++ [⟨kind, target, share, false, 0⟩] }
    else Wr.no st s1

/-! ## Grants (R96 to R98, R101) -/

/-- Cycles of one step of a kind (R96). -/
def stepCycles : Nat → Nat
  | 2 => 18800
  | 3 => 9400
  | _ => 7520

/-- Near-memory regions that a running collective uses here: its scratch, and those of its members' SRC and DST. -/
def collRegions (s : State) (x : Coll) (g : SqGroup) : List (Nat × Nat) :=
  g.scratch ++ (localRanks s x.job g).flatMap fun m => match collIdx (getCl s m.2) x.group x.seq with
    | none => []
    | some k => match (getCl s m.2).colls[k]? with
      | none => []
      | some r => [r.card.w3, r.card.w4].filterMap fun a => match tierAddr s (clDie m.2) a with
        | some (.here rd h _) => some (rd, h)
        | _ => none

/-- Whether a port carries traffic between this package and another member of a collective (R322). -/
def portCarries (s : State) (x : Coll) (g : SqGroup) (p : Port) : Bool :=
  let far := (g.members.map fun m => rankPkg s x.job m.1).filter fun k => decide (k ≠ s.wn.pkg)
  !far.isEmpty && (p.switched || far.contains p.peer)

/-- The target carries traffic or reduction memory of a running collective: a lane of such a port, or a channel of such a
region (R98). -/
def collUses (s : State) (kind target : Nat) : Bool :=
  s.sq.colls.any fun x => match groupOf s x.job x.group with
    | none => false
    | some g =>
      if kind = 3 then (lanePort s target).any fun n => portCarries s x g (getPort s n)
      else if kind = 2 then (collRegions s x g).any fun r => match regionOf s r.1 r.2 with
        | some e => decide (r.1 = target / 16) && (maskChans e.chmask).contains (target % 16)
        | none => false
      else false

/-- Another unit of the same cluster is in a granted test. -/
def testNear (s : State) (target : Nat) : Bool :=
  s.maint.any fun m => decide (m.kind < 2) && m.granted && decide (m.target / 8 = target / 8) && decide (m.target ≠ target)

/-- Another channel of the device is granted a RETRAIN, or has been retrained in this tick (R97). -/
def deviceBusy (s : State) (ch : Nat) : Bool :=
  (List.range 4).any fun i =>
    let c := 4 * (ch / 4) + i
    decide (c ≠ ch) && ((getChan s c).trained || s.maint.any fun m => decide (m.kind = 2) && m.granted && decide (m.target = c))

/-- Whether a queued request is granted: `cycles` of the slot are left; a target that no job holds is exempt from the slot,
window and open-accumulation checks (R98). -/
def grantable (s : State) (m : MaintReq) (cycles : Nat) : Bool :=
  let held := targetHeld s m.kind m.target
  let unit := getUnit s m.target
  !collUses s m.kind m.target
    && !(decide (m.kind = 2) && deviceBusy s m.target)
    && (if m.kind < 2 then !testNear s m.target && !unit.marked && decide (unit.state ≠ .stale) && unitEnabled unit
          && !(held && unit.acc.isSome)
        else true)
    && (!held || (decide (stepCycles m.kind ≤ cycles) && !(decide (m.kind = 2) && decide (s.tk.tick % 4 ≠ m.target % 4))))

/-- Changes the request of a kind for a target. -/
def modMaint (kind target : Nat) (f : MaintReq → MaintReq) (s : State) : State :=
  { s with maint := s.maint.map fun m => if m.kind = kind ∧ m.target = target then f m else m }

/-- Removes the request of a kind for a target. -/
def dropMaint (kind target : Nat) (s : State) : State :=
  { s with maint := s.maint.filter fun m => !(decide (m.kind = kind) && decide (m.target = target)) }

/-- A partition that asked still has its rights over the target; a request of package rights, and that of a unit's own core,
keep theirs (R88, R98). -/
def keepsRights (s : State) (m : MaintReq) : Bool :=
  decide (16 ≤ m.share) || match m.kind with
    | 0 => decide (clPart s (m.target / 8) = some m.share)
    | 2 => decide ((chanOwner s.pt.chans m.target).map (·.1) = some m.share)
    | _ => true

/-- Whether a request that is examined is refused, by the rows of R98 that may have come to match since it was queued; a test
whose last step has run awaits its outcome. -/
def nowRefused (s : State) (m : MaintReq) : Bool :=
  let u := getUnit s m.target
  let held := targetHeld s m.kind m.target
  !(decide (m.kind < 2) && u.test.any fun t => t.finished)
    && (!keepsRights s m || (decide (m.kind < 2) && !unitEnabled u) || (decide (m.kind = 1) && held)
      || (decide (s.tk.cfg.maintUs = 0) && held))

/-- The unit after a test that leaves it in use: STALE until re-checksummed (R89, R92), or AVAILABLE after a STORE_TEST
(R467). CK_UNIT.EPOCH of a STALE unit stays as it was (log 88). -/
def afterTest (kind epoch : Nat) (u : UnitSt) : UnitSt :=
  let v := { u with test := none, marked := false }
  if kind = 1 then { v with state := .available, epoch := epoch, refill := none }
  else
    let copy := decide (u.epoch ≠ epoch) || (match u.refill with
      | some (.waiting c) => c
      | some (.running c _) => c
      | _ => false)
    { v with state := .stale, refill := some (.waiting (copy && !u.source.none)) }

/-- A request is refused when it is examined: it leaves the queue, and a unit under its test is checksummed (R98, R92). -/
def refuseReq (m : MaintReq) (s : State) : State :=
  let s1 := dropMaint m.kind m.target s
  let u := getUnit s m.target
  if m.kind < 2 ∧ u.state = .inTest ∧ u.test.any (fun t => decide (t.kind = m.kind)) then
    modUnit m.target (afterTest 0 (getCl s (m.target / 8)).epoch) s1
  else s1

/-- A queued request is examined: refused, deferred or granted. A granted unit goes in test, a granted channel stops serving
(R88, R98). -/
def grantOne (cycles : Nat) (m : MaintReq) (s : State) : State :=
  if nowRefused s m then refuseReq m s
  else if !grantable s m cycles then s
  else
    let s1 := modMaint m.kind m.target (fun x => { x with granted := true, left := cycles }) s
    if m.kind < 2 then
      modUnit m.target (fun u => { u with state := .inTest, test := match u.test with
        | some t => some t
        | none => some ⟨m.kind, 0, [], false, false⟩ }) s1
    else if m.kind = 2 then
      modChan m.target (fun c => if c.state = .failed then c else { c with state := .retrain }) s1
    else s1

/-- MAINTENANCE_SLOT (R98): every queued request passes the checks in order of arrival, those granted before with what is
left of their steps. A setting with MAINT_US 0 has no slot. -/
def maintenanceSlot (s : State) : State :=
  if s.tk.phase ≠ .drain ∨ s.tk.cfg.maintUs = 0 then s
  else
    let cycles := s.tk.cfg.maintUs * 940
    let s1 := { s with tk := { s.tk with phase := .slot },
                       maint := s.maint.map fun m => { m with granted := m.granted && decide (m.kind < 2) && !targetHeld s m.kind m.target } }
    forEach s1.maint (grantOne cycles) s1

/-- At an intake edge the requests for targets that no job holds are granted; a setting without a slot refuses those for held
ones (R98). -/
def grantUnheld (s : State) : State :=
  forEach (s.maint.filter fun m => !m.granted && (nowRefused s m || !targetHeld s m.kind m.target)) (grantOne 0) s

/-- The granted request of a kind for a target that may run a step now. -/
def stepReady (s : State) (kind target : Nat) : Option MaintReq :=
  s.maint.find? fun m => decide (m.kind = kind) && decide (m.target = target) && m.granted
    && (!targetHeld s kind target || (decide (s.tk.phase = .slot) && decide (stepCycles kind ≤ m.left)))

/-- A step takes its cycles of the slot. -/
def useStep (kind target : Nat) (s : State) : State := modMaint kind target (fun m => { m with left := m.left - stepCycles kind }) s

/-! ## Tests (R88, R467) -/

/-- ARITH_TEST_PASS: the pattern pass, the path-agreement pass, then the reverse-tree pass (R88). -/
def arithPass (unit : Nat) (f : Finding) (s : State) : State :=
  match stepReady s 0 unit, (getUnit s unit).test with
  | some _, some t =>
    if t.kind ≠ 0 ∨ t.finished then s
    else
      let t' := if t.done < 2 then { t with bad := f.lanes.foldl (fun l x => if x < 66 then setIns x l else l) t.bad }
        else { t with reverseBad := f.reverseTree }
      useStep 0 unit (modUnit unit (fun u => { u with test := some { t' with done := t.done + 1, finished := decide (t.done = 2) } }) s)
  | _, _ => s

/-- Zeroes one quarter of every store of a unit (R96, R467): 16 KiB of each lane store, the scale stores and lane 64's store
in step. -/
def zeroQuarter (unit q : Nat) (s : State) : State :=
  let s1 := forEach ((List.range 66).filter (· ≠ 64)) (fun l t =>
    zeroMem (scaleKey unit l (2048 * q)) 2048 (zeroMem (laneKey unit l (16384 * q)) 16384 t)) s
  zeroMem (laneKey unit 64 (131072 * q)) 131072 s1

/-- STORE_TEST_STEP: one of four steps of the march test (R96, R467). -/
def storeStep (unit : Nat) (f : Finding) (s : State) : State :=
  match stepReady s 1 unit, (getUnit s unit).test with
  | some _, some t =>
    if t.kind ≠ 1 ∨ t.finished then s
    else
      let t' := { t with bad := f.lanes.foldl (fun l x => if x < 66 then setIns x l else l) t.bad, done := t.done + 1,
                         finished := decide (t.done = 3) }
      useStep 1 unit (modUnit unit (fun u => { u with test := some t', source := .nothing, written := false })
        (zeroQuarter unit t.done s))
  | _, _ => s

/-- Records a repair (R91). -/
def recordRepair (unit code : Nat) (s : State) : State :=
  if s.fuses.repair.length < 2048 then { s with fuses := { s.fuses with repair := s.fuses.repair ++ [(unit, code)] } }
  else raise .ckRepairRecordFull 0xFF unit { s with repairFull := true }

/-- Copies the store and scale store of a lane to the spare's (R89). -/
def copyToSpare (unit lane : Nat) (s : State) : State :=
  putMem (bytesAt (laneKey unit 65 0) (memBytes s.mem (laneKey unit lane 0) 65536)
    ++ bytesAt (scaleKey unit 65 0) (memBytes s.mem (scaleKey unit lane 0) 8192)) s

/-- What a finding asks of a unit (R89). -/
inductive Verdict where
  | clean
  | remap (lane : Nat)
  | spareBad
  | retire
deriving DecidableEq, Repr

/-- R89's table. A spare in use stands for a data lane. -/
def verdict (u : UnitSt) (bad : List Nat) (reverse : Bool) : Verdict :=
  let data := bad.filter (· < 64)
  if reverse || bad.contains 64 then .retire
  else if bad.contains 65 && u.spareInUse then .retire
  else match data with
    | [] => if bad.contains 65 then .spareBad else .clean
    | [l] => if u.spareInUse || u.spareBad || bad.contains 65 then .retire else .remap l
    | _ => .retire

/-- The outcome of a finished test is applied (R89, R91, R467). -/
def applyOutcome (unit : Nat) (s : State) : State :=
  let u := getUnit s unit
  match u.test with
  | none => s
  | some t =>
    if !t.finished then s
    else
      let s0 := dropMaint t.kind unit s
      let epoch := (getCl s (unit / 8)).epoch
      match verdict u t.bad t.reverseBad with
      | .clean => modUnit unit (afterTest t.kind epoch) s0
      | .spareBad => modUnit unit (fun x => afterTest t.kind epoch { x with spareBad := true }) s0
      | .remap l =>
        let s1 := if t.kind = 0 then copyToSpare unit l s0 else s0
        recordRepair unit l (modUnit unit (fun x => afterTest t.kind epoch { x with spareInUse := true, spareFor := l }) s1)
      | .retire =>
        recordRepair unit 64 (modUnit unit (fun x => { x with state := .retired, test := none, marked := false, refill := none }) s0)

/-- Boundary work of maintenance: outcomes apply, suspicion takes effect, and the slot's windows end (R87, R89, R101). -/
def maintBoundary (s : State) : State :=
  let s1 := forEach (s.units.map (·.1)) applyOutcome s
  { s1 with units := tabMap (fun _ u => { u with marked := false }) s1.units
            mt := { s1.mt with chans := tabMap (fun _ c => if c.state = .retrain then { c with state := .active } else c) s1.mt.chans }
            sq := { s1.sq with ports := tabMap (fun _ p => if p.state = .cal then { p with state := .up } else p) s1.sq.ports } }

/-- TEST_OUTCOME_APPLY (R89). -/
def testOutcome (unit : Nat) (s : State) : State :=
  if s.tk.phase = .step ∨ s.tk.phase = .late then s else applyOutcome unit s

/-- Renumbers the units of a cluster that holds no job in ascending physical order (R90). -/
def renumber (cl : Nat) (s : State) : State :=
  if (getCl s cl).owner.isSome then s
  else
    ((List.range 8).foldl (fun (acc : Nat × State) i =>
      let u := getUnit acc.2 (8 * cl + i)
      if unitEnabled u then (acc.1 + 1, setUnit (8 * cl + i) { u with logical := acc.1 } acc.2)
      else (acc.1, setUnit (8 * cl + i) { u with logical := 15 } acc.2)) (0, s)).2

/-- Renumbers every cluster without a job that has a RETIRED unit still numbered (R90). -/
def renumberAll (s : State) : State :=
  forEach ((s.units.filter fun e => decide (e.2.state = .retired) && decide (e.2.logical < 8)).map (·.1 / 8)) renumber s

/-! ## RETRAIN and LINK_CAL (R96, R97, R181) -/

/-- RETRAIN in its window: deferred while accesses are outstanding; a failed training fails the channel (R180, R181). -/
def retrainStep (ch : Nat) (busy ok : Bool) (s : State) : State :=
  match stepReady s 2 ch with
  | none => s
  | some _ =>
    let rest := modChan ch (fun c => { c with state := if c.state = .retrain then .active else c.state, trained := !busy })
    if busy then rest (modMaint 2 ch (fun m => { m with granted := false }) s)
    else if ok then rest (dropMaint 2 ch s)
    else failChannel ch (dropMaint 2 ch s)

/-- LINK_CAL takes one lane of a port for its step (R96, R324). -/
def linkCal (lane : Nat) (s : State) : State :=
  match stepReady s 3 lane with
  | none => s
  | some _ =>
    let s1 := dropMaint 3 lane s
    match lanePort s lane with
    | some n => modPort n (fun p => if p.state = .up then { p with state := .cal } else p) s1
    | none => s1

/-- RETRAIN_PERIODIC (R181): once every MT_RETRAIN_PERIOD ticks each owned channel is to be retrained. -/
def retrainPeriodic (s : State) : State :=
  if s.mt.retrainPeriod = 0 ∨ s.tk.tick % s.mt.retrainPeriod ≠ 0 then s
  else forEach ((List.range 128).filter fun ch => (chanOwner s.pt.chans ch).isSome) queueRetrain s

/-! ## Refill and re-checksum (R92 to R94) -/

/-- A refill of a unit's whole store joins those of its die, after the ones started before it (R94). -/
def queueRefill (k : Nat) (s : State) : State := { s with refills := (s.refills.filter fun x => decide (x ≠ k)) ++ [k] }

/-- At an intake edge the refills and re-checksums that wait begin, in ascending units (R94). -/
def startRefills (s : State) : State :=
  forEach (s.units.map (·.1)) (fun k t => match (getUnit t k).refill with
    | some (.waiting c) =>
      whenB c (queueRefill k) (modUnit k (fun u => { u with refill := some (.running c false) }) t)
    | _ => t) s

/-- A unit's refill has started and still moves bytes. -/
def refilling (u : UnitSt) : Bool := match u.refill with
  | some (.running c _) => c
  | _ => false

/-- Refills of one die run one after another, in the order in which they were started (R94). -/
def refillTurn (s : State) (k : Nat) : Bool :=
  match s.refills.find? fun x => decide (x / 256 = k / 256) && refilling (getUnit s x) with
  | some x => decide (x = k)
  | none => true

/-- Writes one part of a refill for each data lane: `n` bytes a lane from offset `o` of the data. -/
def lanesFrom (key : Nat → Nat) (bytes : List Byte) (o n : Nat) : List (Nat × Byte) :=
  (List.range 64).flatMap fun l => bytesAt (key l) ((bytes.drop (o + l * n)).take n)

/-- The writes that put a whole unit: 64 data lanes, lane 64 and, where the data holds them, the scale stores (log 34). -/
def wholeUnit (k : Nat) (u : UnitSt) (bytes : List Byte) : List (Nat × Byte) :=
  lanesFrom (fun l => laneKey k (physLane u l) 0) bytes 0 65536
    ++ bytesAt (laneKey k 64 0) ((bytes.drop 4194304).take 524288)
    ++ lanesFrom (fun l => scaleKey k (physLane u l) 0) bytes 4718592 8192

/-- The writes that put bank `b` of a banked unit from its copy (R233, R236). -/
def bankUnit (k : Nat) (u : UnitSt) (size b : Nat) (bytes : List Byte) : List (Nat × Byte) :=
  lanesFrom (fun l => laneKey k (physLane u l) (b * size)) bytes 0 size
    ++ bytesAt (laneKey k 64 (262144 * b)) ((bytes.drop (64 * size)).take (min 262144 (8 * size)))
    ++ lanesFrom (fun l => scaleKey k (physLane u l) (b * size / 8)) bytes (72 * size) (size / 8)

/-- Where the bank copies of a unit lie (R236): rim die, region, offset of bank A's copy; bank B's lies 640 × BANK_BYTES on. -/
def copyPlace (s : State) (cl unit : Nat) : Option (Nat × Nat × Nat) :=
  match (getCl s cl).owner with
  | some (_, _, j) => (jobCtx s j).bind fun c => (c.copy.find? fun x => decide (x.1 = clDie cl)).map fun x =>
      (x.2.1, x.2.2, copyOffset s c cl unit 0)
  | none => none

/-- The refill source of a unit whose contents no image brings: the bank copy of its cluster, where it has one (R236). -/
def copySource (s : State) (cl unit : Nat) : Source :=
  if (bankOf s cl).isNone then .nothing
  else match copyPlace s cl unit with
    | some (rd, h, o) => .bankCopy rd h o
    | none => .nothing

/-- The refill of a unit from its source: the state, or the status of a read that failed. A banked unit filled from the
library also gets its bank copy, which is its source from then on (R236, R257). -/
def fillFrom (k : Nat) (s : State) : Except Status State :=
  let u := getUnit s k
  match u.source, bankOf s (k / 8) with
  | .library p i off, some (size, _) => match tabFind (64 * p + i) s.lrn.libs with
    | none => .error .ckRefillNoSource
    | some l => match readPlace s ⟨l.rd, l.region, off⟩ (80 * size) with
      | .error st => .error st
      | .ok bytes =>
        let s1 := putMem (bankUnit k u size 0 bytes) s
        match copyPlace s (k / 8) u.logical with
        | some (rd, h, o) => .ok (modUnit k (fun x => { x with source := .bankCopy rd h o }) (writePlace rd h o bytes s1))
        | none => .ok s1
  | .library p i off, none => match tabFind (64 * p + i) s.lrn.libs with
    | none => .error .ckRefillNoSource
    | some l => (readPlace s ⟨l.rd, l.region, off⟩ 5242880).map fun bytes => putMem (wholeUnit k u bytes) s
  | .bankCopy rd h o, some (size, _) => do
    let a ← readPlace s ⟨rd, h, o⟩ (80 * size)
    let b ← readPlace s ⟨rd, h, o + 640 * size⟩ (80 * size)
    pure (putMem (bankUnit k u size 0 a ++ bankUnit k u size 1 b) s)
  | .slot rd h o, _ => (readPlace s ⟨rd, h, o⟩ 4718592).map fun bytes => putMem (wholeUnit k u bytes) s
  | _, _ => .error .ckRefillNoSource

/-- Whether a cluster's contents have a near-memory source (R94): no unit's contents changed after their last copy. -/
def hasSource (s : State) (cl : Nat) : Bool :=
  (List.range 8).all fun i =>
    let u := getUnit s (8 * cl + i)
    !unitEnabled u || decide (u.source ≠ .changed)

/-- The job of a unit's cluster falls (R86, R94). -/
def faultUnitJob (k : Nat) (st : Status) (s : State) : State :=
  match (getCl s (k / 8)).owner with
  | some (_, _, j) => faultJob j st s
  | none => s

/-- Notes the reads of a refill from near memory that meet POISON (R179). -/
def noteSource (k : Nat) (s : State) : State :=
  let size := ((bankOf s (k / 8)).map (·.1)).getD 0
  match (getUnit s k).source with
  | .library p i off => match tabFind (64 * p + i) s.lrn.libs with
    | some l => noteRead ⟨l.rd, l.region, off⟩ (if size = 0 then 5242880 else 80 * size) s
    | none => s
  | .bankCopy rd h o => noteRead ⟨rd, h, o + 640 * size⟩ (80 * size) (noteRead ⟨rd, h, o⟩ (80 * size) s)
  | .slot rd h o => noteRead ⟨rd, h, o⟩ 4718592 s
  | _ => s

/-- UNIT_REFILL (R94): the unit's refill has moved its last byte. It advances only inside the CONTRAIL window, and after those
of its die that were started before it. -/
def unitRefill (k : Nat) (s : State) : State :=
  match (getUnit s k).refill with
  | some (.running true again) =>
    if !windowOpen s 3 || !refillTurn s k then s
    else
      let s1 := { s with refills := s.refills.filter fun x => decide (x ≠ k) }
      match fillFrom k s1 with
      | .ok t => modUnit k (fun u => { u with refill := some (.filled again) }) t
      | .error st => faultUnitJob k st (modUnit k (fun u => { u with refill := none }) (noteSource k s1))
  | _ => s

/-- The banks of a unit that a re-checksum runs over: first byte in a data lane, bytes, first byte of their sums (R233). -/
def sumBanks (s : State) (k : Nat) : List (Nat × Nat × Nat) :=
  match bankOf s (k / 8) with
  | some (size, _) => [(0, size, 0), (size, size, 262144)]
  | none => [(0, 65536, 0)]

/-- Whether the stored ŝ_k of a bank differ anywhere from the tree output over its lane store (R79, R93). -/
def bankDiffers (s : State) (k : Nat) (b : Nat × Nat × Nat) : Bool :=
  let u := getUnit s k
  let n := b.2.1 * 8 / fmtWidth u.wfmt
  let lanes := (List.range 64).map fun l => (laneWeights s k (physLane u l) b.1 u.wfmt n).map fun e => to32 e.v
  (List.range n).any fun e =>
    decide (canonSum (lanes.map fun l => l.getD e 0#32) ≠ memW32 s.mem (laneKey k 64 (b.2.2 + 4 * e)))

/-- A unit's contents stand as its cluster's epoch names them: STALE ends in AVAILABLE (R92). -/
def unitFresh (k : Nat) (s : State) : State :=
  modUnit k (fun u =>
    { u with refill := none, epoch := (getCl s (k / 8)).epoch, state := if u.state = .stale then .available else u.state }) s

/-- UNIT_RECHECKSUM (R93): on the first difference the unit refills and re-checksums once more; a second marks it SUSPECT. A unit
that differs and has no copy to refill from tears the job down with CK_REFILL_NO_SOURCE (DESIGN CHOICE, log 90). -/
def unitRechecksum (k : Nat) (diff : Bool) (s : State) : State :=
  let run := fun (again : Bool) =>
    if !windowOpen s 3 then s
    else if !(diff || (sumBanks s k).any (bankDiffers s k)) then unitFresh k s
    else if again then markSuspect k (modUnit k (fun u => { u with refill := none }) s)
    else if (getUnit s k).source.none then faultUnitJob k .ckRefillNoSource (modUnit k (fun u => { u with refill := none }) s)
    else queueRefill k (modUnit k (fun u => { u with refill := some (.running true true) }) s)
  match (getUnit s k).refill with
  | some (.running false again) => run again
  | some (.filled again) => run again
  | _ => s

/-! ## The commands -/

/-- ARITH_TEST_REQ (R98). -/
def execArithTestReq (who : Who) (target : Nat) (s : State) : Host.Outcome State Fault Refusal :=
  running s (writeCmd who .ckMaintReq 0 0 (maintWrite who 0 target))

/-- STORE_TEST_REQ (R98). -/
def execStoreTestReq (who : Who) (target : Nat) (s : State) : Host.Outcome State Fault Refusal :=
  running s (writeCmd who .ckMaintReq 0 0 (maintWrite who 1 target))

/-- RETRAIN_REQ (R98). -/
def execRetrainReq (who : Who) (target : Nat) (s : State) : Host.Outcome State Fault Refusal :=
  running s (writeCmd who .ckMaintReq 0 0 (maintWrite who 2 target))

/-- LINK_CAL_REQ (R98). -/
def execLinkCalReq (who : Who) (target : Nat) (s : State) : Host.Outcome State Fault Refusal :=
  running s (writeCmd who .ckMaintReq 0 0 (maintWrite who 3 target))

/-- MAINTENANCE_SLOT (R98). -/
def execMaintenanceSlot (s : State) : Host.Outcome State Fault Refusal := running s maintenanceSlot

/-- ARITH_TEST_PASS (R88). -/
def execArithTestPass (unit : Nat) (f : Finding) (s : State) : Host.Outcome State Fault Refusal := running s (arithPass unit f)

/-- STORE_TEST_STEP (R467). -/
def execStoreTestStep (unit : Nat) (f : Finding) (s : State) : Host.Outcome State Fault Refusal := running s (storeStep unit f)

/-- RETRAIN (R181). -/
def execRetrain (ch : Nat) (busy ok : Bool) (s : State) : Host.Outcome State Fault Refusal := running s (retrainStep ch busy ok)

/-- LINK_CAL (R96). -/
def execLinkCal (lane : Nat) (s : State) : Host.Outcome State Fault Refusal := running s (linkCal lane)

/-- RETRAIN_PERIODIC (R181). -/
def execRetrainPeriodic (s : State) : Host.Outcome State Fault Refusal := running s retrainPeriodic

/-- TEST_OUTCOME_APPLY (R89). -/
def execTestOutcomeApply (unit : Nat) (s : State) : Host.Outcome State Fault Refusal := running s (testOutcome unit)

/-- UNIT_RENUMBER (R90). -/
def execUnitRenumber (cl : Nat) (s : State) : Host.Outcome State Fault Refusal := running s (renumber cl)

/-- UNIT_REFILL (R94). -/
def execUnitRefill (unit : Nat) (s : State) : Host.Outcome State Fault Refusal := running s (unitRefill unit)

/-- UNIT_RECHECKSUM (R93). -/
def execUnitRechecksum (unit : Nat) (diff : Bool) (s : State) : Host.Outcome State Fault Refusal :=
  running s (unitRechecksum unit diff)

end Sys2Proof.Machine
end

