-- ==== Sys2Proof/Machine/Prologue.lean ====
section
/-!
DEFINITION. The prologue engine (R121): TRANSPOSE, GATHER and CHKROW cards.
-/

namespace Sys2Proof.Machine

/-- FMT, ROWS, COLS, SRC, DST, SSTRIDE, DSTRIDE and INDEX of a prologue card. -/
structure Pro where
  fmt : Nat
  rows : Nat
  cols : Nat
  src : Nat
  dst : Nat
  ss : Nat
  ds : Nat
  index : Nat
deriving DecidableEq, Repr

/-- The fields of the body (R121). -/
def proOf (c : Card) : Pro :=
  ⟨fld c.w2 3 0, fld c.w2 12 4, fld c.w2 21 13, fld c.w2 47 32, fld c.w2 63 48, fld c.w3 15 0, fld c.w3 31 16, fld c.w3 47 32⟩

/-- Index `i` of a GATHER's list of 16-bit row indices. -/
def gatherIndex (s : State) (cl : Nat) (p : Pro) (i : Nat) : Nat := memNat s.mem (poolKey cl (64 * p.index + 2 * i)) 2

/-- Checks at post (R121). A GATHER's source rows are those whose lines lie inside the job area (log 13). -/
def prologueCheck (s : State) (cl : Nat) (c : Card) : Chk :=
  let p := proOf c
  let n := rowLines p.fmt p.cols
  firstBad [
    (match c.opcode with
     | 0 => firstBad [rowsRange p.src p.ss p.rows n, rowsRange p.dst p.ds p.cols (rowLines p.fmt p.rows)]
     | 1 => firstBad [poolRange p.src n, rowsRange p.dst p.ds p.rows n, poolRange p.index ((2 * p.rows + 63) / 64)]
     | _ => firstBad [rowsRange p.src p.ss p.rows n, poolRange p.dst (rowLines 7 p.cols)]),
    bad (decide (7 < p.fmt)) .lwFormatInvalid,
    badField (decide (p.rows = 0) || decide (256 < p.rows)) 2 4,
    badField (decide (p.cols = 0) || decide (256 < p.cols)) 2 13,
    (if c.opcode = 1 then
      bad ((List.range p.rows).any fun i => decide (65536 < p.src + gatherIndex s cl p i * p.ss + n)) .poolRangeInvalid
     else none)]

/-- Codes of a source row. -/
def proRow (s : State) (cl : Nat) (p : Pro) (line : Nat) : List Nat :=
  (List.range p.cols).map fun j => elemAt s.mem (poolKey cl (64 * line)) p.fmt j

/-- Length (R121). -/
def proLength (c : Card) : Nat :=
  let p := proOf c
  match c.opcode with
  | 0 => 8 + 2 * ((p.rows * p.cols * fmtWidth p.fmt + 2047) / 2048)
  | 1 => 8 + p.rows * ((p.cols * fmtWidth p.fmt + 2047) / 2048)
  | _ => 8 + p.rows * ((p.cols + 63) / 64)

/-- TRANSPOSE: destination row j holds column j of the source (R121). -/
def transposeWork (cl : Nat) (s : State) (q : QCard) : Work :=
  let p := proOf q.card
  let rows := (List.range p.rows).map fun i => proRow s cl p (p.src + i * p.ss)
  let ws := (List.range p.cols).flatMap fun j =>
    bytesAt (poolKey cl (64 * (p.dst + j * p.ds))) (packRow (fmtWidth p.fmt) (rows.map fun r => r.getD j 0))
  ⟨.ok, Flags.none, ws, proLength q.card⟩

/-- GATHER: source rows by index to consecutive destination rows (R121); an index whose row runs past the pool is
rejected before issue. -/
def gatherWork (cl : Nat) (s : State) (q : QCard) : Work :=
  let p := proOf q.card
  if (List.range p.rows).any fun i => decide (65536 < p.src + gatherIndex s cl p i * p.ss + rowLines p.fmt p.cols) then
    ⟨.poolRangeInvalid, Flags.none, [], 0⟩
  else
    let ws := (List.range p.rows).flatMap fun i =>
      bytesAt (poolKey cl (64 * (p.dst + i * p.ds)))
        (packRow (fmtWidth p.fmt) (proRow s cl p (p.src + gatherIndex s cl p i * p.ss)))
    ⟨.ok, Flags.none, ws, proLength q.card⟩

/-- CHKROW: the FP32 row of sums over the rows, canonical_sum over m (R121, R80). The card names no block scales: a BF4 or BI4 row
counts by its elements alone (DESIGN CHOICE, log 93). -/
def chkrowWork (cl : Nat) (s : State) (q : QCard) : Work :=
  let p := proOf q.card
  let rows := (List.range p.rows).map fun i => (proRow s cl p (p.src + i * p.ss)).map (widen p.fmt)
  let cols := (List.range p.cols).map fun j => rows.map fun r => r.getD j 0#32
  let outs := cols.map canonSum
  ⟨.ok, Flags.each (cols.zip outs), bytesAt (poolKey cl (64 * p.dst)) (w32Bytes outs), proLength q.card⟩

/-- TRANSPOSE (R121). -/
def execTranspose (cl : Nat) (s : State) : Host.Outcome State Fault Refusal :=
  running s (issueEngine cl 2 0 600 (transposeWork cl))

/-- GATHER (R121). -/
def execGather (cl : Nat) (s : State) : Host.Outcome State Fault Refusal :=
  running s (issueEngine cl 2 1 600 (gatherWork cl))

/-- CHKROW (R121). -/
def execChkrow (cl : Nat) (s : State) : Host.Outcome State Fault Refusal :=
  running s (issueEngine cl 2 2 600 (chkrowWork cl))

end Sys2Proof.Machine
end

