-- ==== Sys2Proof/Machine/Random.lean ====
section
/-!
DEFINITION. The random engine (R150): FILL and MASK cards.
-/

namespace Sys2Proof.Machine

/-- TILES. -/
def rgTiles (c : Card) : Nat := fld c.w2 19 16

/-- Checks of a random-engine card (R150). -/
def randomCheck (c : Card) : Chk :=
  firstBad [
    poolRange (fld c.w2 15 0) ((if c.opcode = 0 then 256 else 8) * rgTiles c),
    badField (decide (rgTiles c = 0) || decide (14 < rgTiles c)) 2 16,
    badField (!flag c.w7 0 && decide (fld c.w3 31 0 ≠ 0)) 3 0,
    (rselCheck c.w7 true (rgTiles c)).map fun st => (st, 0, 0)]

/-- Length (R150). -/
def rgLength (c : Card) : Nat := 8 + 512 * rgTiles c + if flag c.w7 0 then 31 else 0

/-- Words of the card's tiles in the order tile, row, column, and the state after the draws (R150). -/
def rgWords (cl : Nat) (c : Card) (s : State) : List W32 × State :=
  let n := rgTiles c
  let r := rselOf c.w7
  if r.pinned then
    ((List.range n).flatMap fun t =>
        let cols := (List.range 64).map fun j => tileWords (clSeed s cl) r (r.rowTile + t) (fld c.w3 31 0) j 64
        (List.range 64).flatMap fun i => cols.map fun y => y.getD i 0#32,
      bumpBy .rgPinnedTiles c.part n s)
  else
    let (gens, t) := freeGrid cl 10 (List.range 16) (n * 256) s
    ((List.range (n * 64)).flatMap fun i => (List.range 64).map fun j => (gens.getD (j % 16) []).getD (4 * i + j / 16) 0#32, t)

/-- The 64-bit word of 64 mask bits, bit j from word j (R150). -/
def maskWord (thresh : Nat) (ys : List W32) : W64 :=
  BitVec.ofNat 64 (ys.zipIdx.foldl (fun a p => a + if p.1.toNat < thresh * 2 ^ 16 then 2 ^ p.2 else 0) 0)

/-- Groups of 64. -/
def rowsOf64 (ys : List W32) : Nat → List (List W32)
  | 0 => []
  | n + 1 => ys.take 64 :: rowsOf64 (ys.drop 64) n

/-- What a FILL (opcode 0) or MASK (opcode 1) card computes, and the state after its draws. -/
def rgWork (op cl : Nat) (s : State) (q : QCard) : Work × State :=
  let (ys, t) := rgWords cl q.card s
  let bs := if op = 0 then w32Bytes ys else w64Bytes ((rowsOf64 ys (64 * rgTiles q.card)).map (maskWord (fld q.card.w2 47 32)))
  (⟨.ok, Flags.none, bytesAt (poolKey cl (64 * fld q.card.w2 15 0)) bs, rgLength q.card⟩, t)

/-- Issues a FILL or MASK card. -/
def issueRandom (op cl : Nat) (s : State) : State := issueWork cl 6 op (fun _ q => 300 * rgLength q.card) (rgWork op cl) s

/-- FILL (R150). -/
def execFill (cl : Nat) (s : State) : Host.Outcome State Fault Refusal := running s (issueRandom 0 cl)

/-- RG_MASK (R150): OPCODE 1. -/
def execRgMask (cl : Nat) (s : State) : Host.Outcome State Fault Refusal := running s (issueRandom 1 cl)

end Sys2Proof.Machine
end

