-- ==== Sys2Proof/Machine/Cards.lean ====
section
/-!
DEFINITION. The cluster control core's handling of a card list (R106 to R116): the checks of R110 in order, posting, the
rejection of a card, PM_SLEEP, and the retirement of cards (R117).
-/

namespace Sys2Proof.Machine

/-! ## PM_SLEEP (R440) -/

/-- STATE. -/
def slState (c : Card) : Nat := fld c.w2 2 0

/-- WAKE_LEAD. -/
def slLead (c : Card) : Nat := fld c.w2 10 3

/-- WAKE_AT. -/
def slAt (c : Card) : Nat := fld c.w2 63 11

/-- Checks of a PM_SLEEP card (R440). -/
def sleepCheck (s : State) (cl : Nat) (c : Card) : Chk :=
  firstBad [
    badField (decide (slState c ≠ 3) && decide (slState c ≠ 4)) 2 0,
    badField (decide (slLead c = 0)) 2 3,
    badField (decide (slAt c < s.tk.tick + slLead c + 1)) 2 11,
    bad (!hasSource s cl) .ckRefillNoSource]

/-- PM_SLEEP at its place in the list: the cluster is to sleep at a boundary (R439). -/
def doSleep (cl : Nat) (q : QCard) (s : State) : State :=
  let c := q.card
  retire9 cl q .ok 8 (modCl cl (fun x =>
    { x with wakeAt := slAt c, sleep := some (slLead c, if slState c = 3 then .fog else .dusk) }) s)

/-! ## Checks of R110 -/

/-- Reserved bits of a card's body, as (word, high, low): those that its layout marks reserved or gives no field (log 35). -/
def bodyReserved (engine op : Nat) : List (Nat × Nat × Nat) :=
  match engine with
  | 0 => [(2, 23, 22), (2, 63, 41), (3, 63, 30), (5, 63, 48), (7, 1, 1)]
  | 1 => [(2, 15, 14), (2, 63, 29), (7, 1, 1)]
  | 2 => [(2, 31, 22), (3, 63, 48), (4, 63, 0), (5, 63, 0), (6, 63, 0), (7, 63, 0)]
  | 3 => [(2, 15, 14), (2, 31, 25), (6, 63, 32), (7, 1, 1)]
  | 4 => (if op = 0 then [(2, 31, 28), (3, 63, 35)] else [(2, 47, 34), (3, 63, 16)])
      ++ [(4, 63, 0), (5, 63, 0), (6, 63, 0), (7, 63, 0)]
  | 5 => [(2, 31, 24), (2, 63, 48), (3, 63, 35), (4, 63, 0), (5, 63, 0), (6, 63, 0), (7, 63, 0)]
  | 6 => [(2, 31, 20), (2, 63, 48), (3, 63, 32), (4, 63, 0), (5, 63, 0), (6, 63, 0), (7, 1, 1)]
  | 7 => [(2, 63, 59), (3, 31, 28), (4, 63, 0), (5, 63, 0), (6, 63, 0), (7, 63, 0)]
  | 8 => [(2, 63, 47), (3, 63, 48), (4, 63, 0), (5, 63, 0), (6, 63, 0), (7, 63, 0)]
  | _ =>
    let rest := [(4, 63, 0), (5, 63, 0), (6, 63, 0), (7, 63, 0)]
    match op with
    | 0 => [(2, 47, 41), (3, 63, 48), (4, 63, 34), (5, 63, 0), (6, 63, 0), (7, 63, 0)]
    | 2 => (2, 63, 6) :: (3, 63, 0) :: rest
    | 3 => (3, 63, 33) :: rest
    | 4 => (3, 63, 37) :: rest
    | 5 => (2, 63, 33) :: (3, 63, 0) :: rest
    | 6 => (2, 63, 8) :: (3, 63, 0) :: rest
    | 7 => (2, 63, 45) :: (3, 63, 32) :: rest
    | 8 => (2, 63, 39) :: rest
    | 9 => (2, 63, 39) :: rest
    | 10 => (2, 31, 24) :: (2, 63, 48) :: (3, 63, 0) :: rest
    | 11 => (2, 31, 24) :: (2, 63, 48) :: (3, 63, 0) :: rest
    | 12 => (2, 63, 55) :: (3, 63, 0) :: rest
    | 13 => (2, 63, 55) :: (3, 63, 0) :: rest
    | 14 => (2, 63, 48) :: (3, 63, 0) :: rest
    | 15 => (2, 63, 0) :: (3, 63, 0) :: rest
    | 16 => [(2, 15, 15), (2, 23, 22), (2, 63, 56), (6, 63, 48), (7, 63, 16)]
    | 17 => (2, 15, 12) :: (2, 63, 32) :: (3, 63, 0) :: rest
    | _ => (3, 63, 0) :: rest

/-- Whether an OPCODE is legal for its engine; RUN_LIST is not, inside a list (R116). -/
def opcodeLegal (engine op : Nat) : Bool :=
  match engine with
  | 0 => decide (op = 0)
  | 1 => decide (op = 0)
  | 2 => decide (op ≤ 2)
  | 3 => decide (op ≤ 10)
  | 4 => decide (op ≤ 1)
  | 5 => decide (op ≤ 2)
  | 6 => decide (op ≤ 1)
  | 7 => decide (op = 0)
  | 8 => decide (op ≤ 1)
  | _ => decide (op ≤ 18) && decide (op ≠ 1)

/-- A CHAIN_OPEN card. -/
def isOpen (c : Card) : Bool := decide (c.engine = 9) && decide (c.opcode = 0)

/-- The header's row of CARD_FIELD_INVALID (R110). -/
def headerCheck (c : Card) : Chk :=
  let free := decide (c.chain = 0)
  firstBad [
    badField (free && decide (fld c.w0 39 32 ≠ 0)) 0 32,
    badField (free && decide (fld c.w1 61 54 ≠ 0)) 1 54,
    badField (free && decide (c.waitArr ≠ 0)) 0 40,
    badField (free && c.last) 0 30,
    badField (free && c.split) 0 31,
    badField (if c.split then !([5, 6, 2, 3].contains c.sepFmt) else decide (c.sepFmt ≠ 0)) 1 48,
    badField (if c.split then decide (1 < c.sepRound) else decide (c.sepRound ≠ 0)) 1 52,
    badField (decide (c.engine ≠ 0) && decide (c.unit ≠ 0)) 0 12,
    badField (isOpen c && free) 0 24]

/-- The checks of R110 up to those of the chain. -/
def firstChecks (s : State) (cl : Nat) (c : Card) : Chk :=
  firstBad [
    bad (decide (9 < c.engine)) .cardEngineInvalid,
    bad (decide ((getCl s cl).owner ≠ some (c.cls, c.part, c.job))) .cardNotOwner,
    bad (decide (c.epoch ≠ 0) && decide (c.epoch ≠ (getCl s cl).epoch)) .cardEpochMismatch,
    reserved c ([(0, 7, 7), (1, 47, 45), (1, 63, 62)] ++ bodyReserved c.engine c.opcode),
    bad (!opcodeLegal c.engine c.opcode) .cardOpcodeInvalid,
    headerCheck c]

/-- Whether a card starts an accumulation of its chain (R114). -/
def isHeavy (c : Card) : Bool := decide (c.engine = 0) && (decide (lrAcc c = 0) || decide (lrAcc c = 1))

/-- The chain checks of R112 to R114. -/
def chainChecks (s : State) (cl : Nat) (c : Card) : Chk :=
  if c.chain = 0 then none
  else match cardChain s cl c with
    | none => if isOpen c then bad (decide (c.wait ≠ 0)) .chainWaitInvalid else bad true .chainNotOpen
    | some h => firstBad [bad (isOpen c) .chainBusy, bad (decide (65535 ≤ h.posted)) .chainTooLong,
        bad (decide (h.posted < c.wait)) .chainWaitInvalid, bad (h.heavy && isHeavy c) .chainTwoHeavy]

/-- Checks of a vector card (R120). -/
def vectorCheck (c : Card) : Chk :=
  firstBad [badField (decide (fld c.w2 28 16 = 0)) 2 16, (rselCheck c.w7 true 1).map fun st => (st, 0, 0),
    tooLong (fld c.w2 28 16)]

/-- The checks of a card's pool ranges, body and length (R110). -/
def bodyChecks (s : State) (cl : Nat) (c : Card) : Chk :=
  match c.engine with
  | 0 => laneCheck s cl c
  | 1 => vectorCheck c
  | 2 => prologueCheck s cl c
  | 3 => epilogueCheck s cl c
  | 4 => samplerCheck s c
  | 5 => maskCheck s cl c
  | 6 => randomCheck c
  | 7 => tileCheck s cl c
  | 8 => kvCheck s c
  | _ => match c.opcode with
    | 0 => chainOpenCheck c
    | 2 => badField (decide (fld c.w2 5 0 = 0)) 2 0
    | 3 => moveCheck s cl c
    | 4 => moveCheck s cl c
    | 5 => stepDoneCheck s c
    | 6 => publishCheck s cl c
    | 7 => stratusCheck c
    | 8 => stratusCheck c
    | 9 => stratusCheck c
    | 10 => teachCheck s c
    | 11 => takeCheck c
    | 12 => lsCheck s cl c
    | 13 => lsCheck s cl c
    | 14 => normCheck c
    | 15 => none
    | 16 => collCheck s cl c
    | 17 => hzCheck s c
    | _ => sleepCheck s cl c

/-! ## Posting (R106, R108, R110 to R112) -/

/-- The card after `a` in the list. -/
def nextList (l : ListSt) : Option ListSt := if l.left ≤ 1 then none else some ⟨l.addr + 64, l.left - 1⟩

/-- A card of the list is taken. -/
def takeListed (cl : Nat) (l : ListSt) (s : State) : State := modCl cl (fun c => { c with list := nextList l }) s

/-- A sampler, mask or KV card that fails at post ends the sequence of its slot, when that slot steps (R191). -/
def failNamed (c : Card) (st : Status) (s : State) : State :=
  match (if c.engine = 4 ∨ c.engine = 5 ∨ c.engine = 8 then cardSlot c else none) with
  | some slot => if st ≠ .kvSlotInvalid ∧ (stepping s c.job slot).isSome then failSlot c.job slot st s else s
  | none => s

/-- A card that fails R110: its completion record has the status, and a chain that it names aborts. -/
def rejectCard (cl : Nat) (c : Card) (x : Status × Nat × Nat) (s : State) : State :=
  let r := { Report.of x.1 c.unit with word := x.2.1, bit := x.2.2 }
  let s1 := complete cl c r s
  let s2 := if c.chain = 0 then s1 else abortChain cl c.chain .failed s1
  failNamed c x.1 (if fatalStatus x.1 then faultJob c.job x.1 s2 else s2)

/-- The chain takes note of a card that is posted to it: its place, and what it holds. -/
def noteChain (cl : Nat) (c : Card) (s : State) : State :=
  match cardChain s cl c with
  | none => s
  | some h =>
    let slots := match cardSlot c with
      | some slot => setIns slot h.slots
      | none => h.slots
    let h' := { h with posted := h.posted + 1, heavy := h.heavy || isHeavy c, slots := slots }
    modCl cl (fun x => { x with chains := tabIns c.chain h' x.chains }) s

/-- Place in its chain of a card that is posted now. -/
def nextOrd (s : State) (cl : Nat) (c : Card) : ChainPlace := match cardChain s cl c with
  | some h => if c.chain = 0 then ⟨0, 0⟩ else ⟨h.use, h.posted + 1⟩
  | none => ⟨0, 0⟩

/-- Queue that takes a card: none for a card that the control core executes itself (R105, R301). -/
def postKey (c : Card) : Option Nat :=
  if isLs c then some (lsUnit c) else if c.engine = 9 then none else some c.queueKey

/-- A card that has passed R110 goes to its engine; without a credit the control core waits (R108). -/
def postCard (cl : Nat) (l : ListSt) (c : Card) (s : State) : State :=
  let q : QCard := ⟨c.stamp (getCl s cl).epoch, nextOrd s cl c⟩
  match postKey c with
  | none => takeListed cl l (modCl cl (fun x => { x with exec9 := some q }) (noteChain cl c s))
  | some k =>
    if (getQ (getCl s cl) k).credits = 0 then s
    else takeListed cl l (modCl cl (postQ k q) (noteChain cl c s))

/-- A card of the list, read: checked, and posted or rejected. A card of an aborted chain retires at its post (R115). -/
def handleCard (cl : Nat) (l : ListSt) (c : Card) (s : State) : State :=
  match firstBad [firstChecks s cl c, chainChecks s cl c] with
  | some x => takeListed cl l (rejectCard cl c x s)
  | none => match abortedAs (cardChain s cl c) c with
    | some st => takeListed cl l (retireUnrun cl ⟨c, nextOrd s cl c⟩ st (noteChain cl c s))
    | none => match bodyChecks s cl c with
      | some x => takeListed cl l (rejectCard cl c x s)
      | none => postCard cl l c s

/-- CARD_POST (R110): the control core takes the next card of its list. A list that can no longer be read is at its end, and
the job falls where R179 or R180 says so. -/
def cardPost (cl : Nat) (s : State) : State :=
  let x := getCl s cl
  match x.list, x.owner with
  | some l, some (cls, p, j) =>
    if x.exec9.isSome ∨ x.coreDown ∨ !awake x ∨ !listWindow s cl ∨ !jobIssues s j then s
    else match readNear s p j cls cl l.addr 64 with
      | .ok bs => handleCard cl l (cardOf bs) s
      | .error st =>
        let s1 := modCl cl (fun c => { c with list := none }) s
        if fatalStatus st then faultJob j st (noteNear cl l.addr 64 s1) else s1
  | _, _ => s

/-! ## Retirement (R117) -/

/-- A lane-row unit's card, or an LS card in its queue, retires. -/
def retireUnit (cl u : Nat) (poolBad : Bool) (s : State) : State :=
  match tabFind u (getCl s cl).runs with
  | some r => if isLs r.card then retireLs cl u r poolBad s else if poolBad then poolFaultLane cl u s else retireLane cl u s
  | none => s

/-- Whether a card of an engine 1 to 8 reads its pool while it runs: FILL, RG_MASK and WALK do not; a tile sender has read its
lines when they were sent. -/
def readsPool (c : Card) : Bool := decide (c.engine ≠ 6) && decide (c.engine ≠ 7) && !(decide (c.engine = 8) && decide (c.opcode = 1))

/-- The card of an engine 1 to 8 retires. -/
def retireEng (cl e : Nat) (poolBad : Bool) (s : State) : State :=
  match tabFind (8 + e) (getCl s cl).runs with
  | none => s
  | some r0 => match r0.finish with
    | some d => if poolBad then failFinish cl r0 s else retireFinish cl r0 d s
    | none =>
      let r := if poolBad && readsPool r0.card then r0.poolFail else r0
      if poolBad && decide (e = 4) && decide (r.card.opcode = 0) then
        retireNamed cl 12 r (modCl cl (fun c => { c with scans := tabDel (smDst r.card) c.scans }) s)
      else if e = 4 ∨ e = 5 then retireNamed cl (8 + e) r s
      else if e = 8 then retireKv cl r s
      else if e = 3 ∧ isNorm r.card.opcode then retireTile cl r s
      else retireEngine cl (8 + e) r s

/-- CARD_RETIRE (R117). `poolBad` says that the card has met an uncorrectable pool word (R102); an operation at the tier port
reads its pool lines when it is handed there, and its own command says so. -/
def cardRetire (cl : Nat) (x : Slot) (poolBad : Bool) (s : State) : State :=
  match x with
  | .lane u => if u < 8 then retireUnit cl u poolBad s else s
  | .eng e => if 1 ≤ e ∧ e ≤ 8 then retireEng cl e poolBad s else s
  | .tier k => match (getCl s cl).tier[k]? with
    | some r => if r.host = 2 then retirePost cl k s else retireTier cl k s
    | none => s
  | .coll k => if poolBad then failColl cl k s else retireColl cl k s

/-! ## The commands -/

/-- CARD_POST (R110). -/
def execCardPost (cl : Nat) (s : State) : Host.Outcome State Fault Refusal := running s (cardPost cl)

/-- CARD_RETIRE (R117). -/
def execCardRetire (cl : Nat) (x : Slot) (poolBad : Bool) (s : State) : Host.Outcome State Fault Refusal :=
  running s (cardRetire cl x poolBad)

/-- PM_SLEEP (R440). -/
def execPmSleep (cl : Nat) (s : State) : Host.Outcome State Fault Refusal := running s (exec9 cl 18 (doSleep cl))

end Sys2Proof.Machine
end

