-- ==== Sys2Proof/Machine/Partition.lean ====
section
/-!
DEFINITION. Partitions (R386 to R394): the checks of a partition table, creation and teardown, grants and views.
-/

namespace Sys2Proof.Machine

/-! ## The table's checks (R387, R441) -/

/-- Reserved bits of an entry (R386), as (word, high, low). -/
def ptReserved : List (Nat × Nat × Nat) :=
  [(0, 31, 30), (0, 63, 56), (4, 63, 32), (7, 63, 63), (8, 63, 50), (9, 63, 45), (11, 63, 13), (13, 63, 13), (14, 63, 27),
   (15, 63, 0)]

/-- XSLOTS[c] of an entry. -/
def ptXslots (e : BitVec 1024) (c : Nat) : Nat := ptSpan e (768 + 11 * c) 11

/-- The first row of R387 for the entry of partition `p`. -/
def entryLegal (p : Nat) (e : BitVec 1024) : Bool :=
  let mhz := ptFld e 0 55 44
  decide (ptFld e 0 3 0 = p) && (ptReserved.all fun r => decide (ptFld e r.1 r.2.1 r.2.2 = 0)) && decide (400 ≤ mhz)
    && decide (mhz ≤ 2400) && decide (mhz % 100 = 0) && decide (ptSlots e 3 = 0)

/-- No two numbers of a list share a bit. -/
def bitsApart : List Nat → Bool
  | [] => true
  | a :: t => (t.all fun b => decide (a &&& b = 0)) && bitsApart t

/-- Slots that a partition's lanes take on each edge (R319). -/
def edgeSlots (e : BitVec 1024) : Nat :=
  8 + (ptFld e 8 9 0 + 12) / 13 + (([0, 1, 2, 4, 5, 6].map (ptSlots e)).sum)

/-- Slots that a partition's lanes take on each external port (R319). -/
def portSlots (e : BitVec 1024) : Nat := 8 + (((List.range 7).map (ptXslots e)).sum)

/-- Credits of a lane of `slots` slots at a port (R320). -/
def laneCredits (slots : Nat) (p : Port) : Nat := (slots * p.width * 25000 * p.rttUs + 65535) / 65536 + 16

/-- Flits of receive buffer that all lanes of a package take on the ports of a rim die (R320). -/
def rimFlits (es : List (BitVec 1024)) (ports : Tab Port) (rd : Nat) : Nat :=
  let lanes := 16 :: es.flatMap fun e => 8 :: (List.range 7).map (ptXslots e)
  ((ports.filter fun p => decide (p.1 / 32 = rd) && decide (p.2.state ≠ .unbound)).map fun p =>
    (lanes.map fun n => laneCredits n p.2).sum).sum

/-- The VALID partitions of a table. -/
def validParts (t : Tab (BitVec 1024)) : List (Nat × BitVec 1024) := t.filter fun e => ptValid e.2

/-- R387's checks of a table in order, and R441's after them. `busy` is a further case of PT_RESOURCE_BUSY (R392). Entries
that are not VALID describe no partition and are not checked (log 36). -/
def tableCheck (t : Tab (BitVec 1024)) (chans : BitVec 1024) (ports : Tab Port) (busy : Bool) : Option Status :=
  let vs := validParts t
  let es := vs.map (·.2)
  let sum := fun (w hi lo : Nat) => (es.map fun e => ptFld e w hi lo).sum
  let chanOk := fun (ch : Nat) => match chanOwner chans ch with
    | some (p, c) => decide (c < 7) && vs.any fun v => decide (v.1 = p)
    | none => true
  if !(vs.all fun v => entryLegal v.1 v.2) then some .ptTableInvalid
  else if busy || !bitsApart (es.map fun e => ptSpan e 64 224) || !bitsApart (es.map fun e => ptSpan e 320 128)
      || !((List.range 128).all chanOk) then some .ptResourceBusy
  else if es.any fun e => decide (ptSpan e 320 128 = 0) then some .ptTableInvalid
  else if 9600 < sum 0 29 16 then some .ptPowerOvercommit
  else if 224 < sum 0 15 8 then some .ptSchedOvercommit
  else if 256 < sum 9 44 36 ∨ 256 < sum 14 8 0 ∨ 256 < sum 14 17 9 ∨ 256 < sum 14 26 18 then some .ptTableInvalid
  else if 2048 < sum 0 43 32 then some .lwCirrusOvercommit
  else if 65536 < sum 7 16 0 ∨ 4194304 < sum 7 39 17 ∨ 4194304 < sum 7 62 40 then some .kvShareInvalid
  else if 1000 < sum 8 9 0 then some .ctShareInvalid
  else if (List.range 8).any fun rd => decide (393216 < rimFlits es ports rd) then some .sqCreditSpace
  else if 256 < sum 9 8 0 ∨ 8192 < sum 9 22 9 ∨ 4096 < sum 9 35 23 then some .sqShareInvalid
  else if 1024 < 16 + (es.map edgeSlots).sum ∨ 1024 < 16 + (es.map portSlots).sum then some .sqCalendarFull
  else if vs.any fun v => decide (2 * ptFld v.2 0 29 16 ≤ floor2 v.2 (ptChans chans v.1).length) then some .pmFloorExceeds
  else none

/-! ## PT_REQ (R392, R393, R401) -/

/-- PT_REQ_STATUS.LAST of a view. -/
def setPtView (v : Nat) (st : Status) (s : State) : State :=
  modView v (fun x => { x with ptLast := st }) (fun x => { x with ptLast := st }) s

/-- PT_REQ_STATUS.LAST of the requester's view. -/
def setPtLast (who : Who) (st : Status) (s : State) : State := setPtView (viewOf s who) st s

/-- Answers a PT_REQ: the status is recorded in the view and returned. -/
def ptAnswer (who : Who) (st : Status) (s : State) : Wr := ⟨st, none, setPtLast who st s⟩

/-- The staged entry as CREATE makes it: VALID, ORIGIN SECURITY_CORE (R392). -/
def stagedEntry (s : State) (p : Nat) : BitVec 1024 :=
  let e := (tabGet 0#1024 s.pt.stage p).toNat
  BitVec.ofNat 1024 (e - e / 16 % 8 * 16 + 3 * 16)

/-- Byte `ch` of a channel table replaced. -/
def putChanByte (t : BitVec 1024) (ch b : Nat) : BitVec 1024 :=
  BitVec.ofNat 1024 (t.toNat - chanByte t ch * 2 ^ (8 * ch) + b * 2 ^ (8 * ch))

/-- Channels whose staged byte gives them to `p` (R392). -/
def stagedChans (s : State) (p : Nat) : List Nat :=
  (List.range 128).filter fun ch => decide ((chanOwner s.pt.stageChans ch).map (·.1) = some p)

/-- The channel table as it will stand after CREATE of `p`. -/
def chansAfter (s : State) (p : Nat) : BitVec 1024 :=
  (stagedChans s p).foldl (fun t ch => putChanByte t ch (chanByte s.pt.stageChans ch)) s.pt.chans

/-- R392's own cases of PT_RESOURCE_BUSY for a partition that does not exist. -/
def createBusy (s : State) (p : Nat) : Bool :=
  (stagedChans s p).any (fun ch => (match chanOwner s.pt.chans ch with
      | some o => decide (o.1 ≠ p)
      | none => false) || !(getChan s ch).zeroing.isEmpty)
    || s.envPorts.any fun n => n.2.cfg.owned && decide (n.2.cfg.part = p) && portInUse s n.1

/-- CREATE (R392). -/
def createReq (who : Who) (p : Nat) (s : State) : Wr :=
  let e := stagedEntry s p
  let ch := chansAfter s p
  if !packageRights s who then ptAnswer who .ptDenied s
  else if 15 < p then ptAnswer who .ptReqInvalid s
  else if s.pt.change.isSome then ptAnswer who .ptBusy s
  else if ptValid (ptEntry s p) then ptAnswer who .ptResourceBusy s
  else match tableCheck (tabIns p e s.pt.table) ch s.sq.ports (createBusy s p) with
    | some st => ptAnswer who st s
    | none => ptAnswer who .ok { s with pt := { s.pt with change := some ⟨true, p, s.tk.tick + 1, e, ch⟩ } }

/-- TEARDOWN (R392). -/
def teardownReq (who : Who) (p : Nat) (s : State) : Wr :=
  if !packageRights s who then ptAnswer who .ptDenied s
  else if s.pt.change.isSome then ptAnswer who .ptBusy s
  else if 15 < p ∨ ptValid (ptEntry s p) = false then ptAnswer who .ptReqInvalid s
  else ptAnswer who .ok { s with pt := { s.pt with change := some ⟨false, p, s.tk.tick + 1, 0#1024, 0#1024⟩ } }

/-- GRANT (R393). -/
def grantReq (who : Who) (rd h p : Nat) (s : State) : Wr :=
  match regionOf s rd h with
  | none => ptAnswer who .ptGrantInvalid s
  | some e =>
    if !(packageRights s who) ∧ viewOf s who ≠ e.part ∨ e.sealed = false ∨ p = e.part then ptAnswer who .ptGrantInvalid s
    else
      let rest := s.pt.open_.filter fun g => !(decide (g.1 = rd) && decide (g.2.1 = h) && decide (g.2.2.1 = p))
      ptAnswer who .ok { s with pt := { s.pt with open_ := rest ++ [(rd, h, p, s.tk.tick)] } }

/-- The open GRANT with the same three values, if it is still in time (R393). -/
def openGrant (s : State) (rd h p : Nat) : Bool :=
  s.pt.open_.any fun g => decide (g.1 = rd) && decide (g.2.1 = h) && decide (g.2.2.1 = p) && decide (s.tk.tick ≤ g.2.2.2 + 64)

/-- Removes an open GRANT. -/
def dropGrant (rd h p : Nat) (s : State) : State :=
  { s with pt := { s.pt with open_ := s.pt.open_.filter fun g => !(decide (g.1 = rd) && decide (g.2.1 = h) && decide (g.2.2.1 = p)) } }

/-- ACCEPT (R393). -/
def acceptReq (who : Who) (rd h p : Nat) (s : State) : Wr :=
  if !(rightsOver s who p) then ptAnswer who .ptDenied s
  else if !(openGrant s rd h p) ∨ (regionOf s rd h).isNone then ptAnswer who .ptGrantStale s
  else
    let s1 := dropGrant rd h p s
    ptAnswer who .ok { s1 with pt := { s1.pt with due := s1.pt.due ++ [(rd, h, p, true, viewOf s who)] } }

/-- REVOKE (R393). -/
def revokeReq (who : Who) (rd h p : Nat) (s : State) : Wr :=
  match regionOf s rd h with
  | none => ptAnswer who .ptGrantInvalid s
  | some e =>
    if !(rightsOver s who e.part) then ptAnswer who .ptDenied s
    else ptAnswer who .ok { s with pt := { s.pt with due := s.pt.due ++ [(rd, h, p, false, viewOf s who)] } }

/-- PT_GRANT_EXPIRE (R393): 64 ticks have passed since the GRANT. -/
def grantExpire (rd h p : Nat) (s : State) : State :=
  if openGrant s rd h p then s else dropGrant rd h p s

/-- A write of PT_VIEW (R394, R401): only a session has one. -/
def viewWrite (who : Who) (v : W64) (s : State) : Wr :=
  match who with
  | .cores _ => Wr.drops 0 s
  | .session n => match tabFind n s.sc.sessions with
    | none => Wr.drops 0 s
    | some x =>
      let p := fld v 3 0
      if x.mask.toNat / 2 ^ p % 2 = 0 then Wr.no .ptDenied s
      else Wr.part (decide (fld v 63 4 ≠ 0)) 1
        (Wr.ok { s with sc := { s.sc with sessions := tabIns n { x with view := p } s.sc.sessions } })

/-- With component 1 or 2 FAILED no partition change and no grant is served (R418). -/
def ptServes (s : State) : Bool := decide (compState s 1 ≠ 2) && decide (compState s 2 ≠ 2)

/-- A request for a partition change or a grant. -/
def ptServed (f : State → Wr) (s : State) : Wr := if ptServes s then f s else Wr.ok s

/-! ## At the boundary (R31, R392, R393) -/

/-- Sets and clears the grant bits that are due. A region that has gone meanwhile ends the ACCEPT (R402). -/
def applyGrants (s : State) : State :=
  forEach s.pt.due (fun g t =>
    match regionOf t g.1 g.2.1 with
    | none => if g.2.2.2.1 then setPtView g.2.2.2.2 .ptGrantStale t else t
    | some e =>
      let bit : BitVec 16 := BitVec.ofNat 16 (2 ^ g.2.2.1)
      let e' : Region := { e with grant := if g.2.2.2.1 then e.grant ||| bit else e.grant &&& ~~~bit }
      { t with mt := { t.mt with regions := tabIns (256 * g.1 + g.2.1) e' t.mt.regions } })
    { s with pt := { s.pt with due := [] } }

/-- Bytes of the first region of a group of application cores (log 37). -/
def coreRegionBytes : Nat := 16777216

/-- The highest region-table entry of a rim die that is not in use. -/
def topEntry (s : State) (rd : Nat) : Option Nat :=
  ((List.range 256).map (255 - ·)).find? fun i => (regionOf s rd i).isNone

/-- The region table as start-up or a creation writes it for a partition (R409 step 8, log 37): for each rim die with
application cores of the partition, one WRITABLE region that they own, at the top of the partition's lowest channel there. -/
def coreRegion (p rd : Nat) (s : State) : State :=
  match ((List.range 16).find? fun c => decide ((chanOwner s.pt.chans (16 * rd + c)).map (·.1) = some p)), topEntry s rd with
  | some c, some i =>
    let cls := ((chanOwner s.pt.chans (16 * rd + c)).map (·.2)).getD 0
    let e : Region := { chmask := 2 ^ c, part := p, cls := cls, owner := 56 + rd, sealed := false, accumCluster := 0,
                        grant := 0#16, base := (chanTop rd c - coreRegionBytes) / 4096 * 4096, len := coreRegionBytes, job := 0 }
    { s with mt := { s.mt with regions := tabIns (256 * rd + i) e s.mt.regions } }
  | _, _ => s

/-- The first regions of every group of application cores of a partition. -/
def coreRegions (p : Nat) (s : State) : State :=
  forEach ((List.range 8).filter fun rd => (ptCores (ptEntry s p)).any fun c => decide (c / 16 = rd)) (coreRegion p) s

/-- Zeroes the contents of a cluster: lane stores, scale stores and pool (R388, R438). -/
def wipeCluster (cl : Nat) (s : State) : State :=
  zeroMem (poolKey cl 0) 0x400000
    (forEach (List.range 8) (fun i t =>
      let k := 8 * cl + i
      modUnit k (fun u => { u with file := [], rowScalar := [], source := .nothing, written := false, acc := none })
        (zeroMem (scaleKey k 0 0) 0x100000 (zeroMem (laneKey k 0 0) 0x4000000 t))) s)

/-- A cluster of a region that comes to a partition: out of Night its contents are lost and its units are to be
checksummed (R438, R439). -/
def wakeNew (night : Bool) (cl : Nat) (s : State) : State :=
  let s1 := modCl cl (fun c => { c with pm := .mist, wakeAt := 0, sleep := none }) s
  if night then
    forEach (List.range 8) (fun i t => modUnit (8 * cl + i) (fun u =>
      if unitEnabled u then { u with state := if u.state = .available then .stale else u.state, refill := some (.waiting false) } else u) t)
      (wipeCluster cl s1)
  else s1

/-- Powers the dies that a creation names (R439). -/
def wakeDies (e : BitVec 1024) (s : State) : State :=
  let dies := (ptRegions e).foldl (fun l r => setIns (r / 4) l) []
  let night := s.pm.night
  let s1 := forEach (ptRegions e) (fun r t => forEach (List.range 8) (fun i u => wakeNew (night.contains (r / 4)) (8 * r + i) u) t) s
  { s1 with pm := { s1.pm with night := s1.pm.night.filter fun d => !dies.contains d } }

/-- Creation (R31, step 4). -/
def applyCreate (s : State) : State :=
  match s.pt.change with
  | some c =>
    if c.create ∧ c.tickAt ≤ s.tk.tick then
      let s1 := { s with pt := { s.pt with table := tabIns c.part c.entry s.pt.table, chans := c.chans, change := none } }
      placeTables c.part (coreRegions c.part (wakeDies c.entry (powerChans s1)))
    else s
  | none => s

/-- Whether a teardown is to be applied at this boundary: its partition. -/
def teardownDue (s : State) : Option Nat :=
  match s.pt.change with
  | some c => if c.create = false ∧ c.tickAt ≤ s.tk.tick then some c.part else none
  | none => none

/-- Releases the regions of a partition, zeroes its channels, and returns them (R392). -/
def releasePart (p : Nat) (s : State) : State :=
  let s1 := forEach (s.mt.regions.filter fun r => decide (r.2.part = p)) (fun r t => freeRegion (r.1 / 256) (r.1 % 256) t) s
  let s2 := forEach (ptChans s1.pt.chans p) (fun ch t =>
    modChan ch (fun x => { x with zeroing := [(0, chanTop (ch / 16) (ch % 16))] })
      { t with pt := { t.pt with chans := putChanByte t.pt.chans ch 0 } }) s1
  powerChans
   { s2 with lrn := { s2.lrn with libs := s2.lrn.libs.filter fun l => !decide (l.1 / 64 = p) },
             gen := { s2.gen with tables := s2.gen.tables.filter fun t => decide (t.1 ≠ p) },
             pt := { s2.pt with table := tabDel p s2.pt.table, change := none } }

/-- What a partition's own queues hold is discarded (R43, R436). -/
def resetPart (p : Nat) (s : State) : State :=
  modPart p (fun x => { x with intake := [], intakeCredits := 1024, annots := [], annotCredits := 1024, load := none, submit := none, meter := 0,
                               jobStatus := if x.submit.isSome then (.tornDown, 0, 0) else x.jobStatus }) s

/-- Dies of whose four regions none belongs to a partition are at Night from the boundary on (R439). -/
def nightDies (s : State) : State :=
  { s with pm := { s.pm with night := (List.range 56).filter fun d => (List.range 4).all fun r => (clPart s (32 * d + 8 * r)).isNone } }

/-- State of a cluster as PM_CLUSTER presents it: in a region that no partition holds it is at Dusk, or at Night with its die
(R388, R439), and one in Clear whose enabled units are all at Haze is at Haze (log 45). -/
def pmOf (s : State) (cl : Nat) : PmState :=
  let us := ((List.range 8).map fun i => getUnit s (8 * cl + i)).filter unitEnabled
  if (clPart s cl).isSome then
    (if (getCl s cl).pm = .clear ∧ !us.isEmpty ∧ us.all (·.haze) then .haze else (getCl s cl).pm)
  else if s.pm.night.contains (cl / 32) then .night else .dusk

/-! ## The commands -/

/-- CREATE (R392). -/
def execCreate (who : Who) (p : Nat) (s : State) : Host.Outcome State Fault Refusal :=
  running s (writeCmd who .ptReq 0 0 (ptServed (createReq who p)))

/-- TEARDOWN (R392). -/
def execTeardown (who : Who) (p : Nat) (s : State) : Host.Outcome State Fault Refusal :=
  running s (writeCmd who .ptReq 0 0 (ptServed (teardownReq who p)))

/-- GRANT (R393). -/
def execGrant (who : Who) (rd region p : Nat) (s : State) : Host.Outcome State Fault Refusal :=
  running s (writeCmd who .ptReq 0 0 (ptServed (grantReq who rd region p)))

/-- ACCEPT (R393). -/
def execAccept (who : Who) (rd region p : Nat) (s : State) : Host.Outcome State Fault Refusal :=
  running s (writeCmd who .ptReq 0 0 (ptServed (acceptReq who rd region p)))

/-- REVOKE (R393). -/
def execRevoke (who : Who) (rd region p : Nat) (s : State) : Host.Outcome State Fault Refusal :=
  running s (writeCmd who .ptReq 0 0 (ptServed (revokeReq who rd region p)))

/-- PT_GRANT_EXPIRE (R393). -/
def execPtGrantExpire (rd region p : Nat) (s : State) : Host.Outcome State Fault Refusal :=
  running s (grantExpire rd region p)

/-- PT_VIEW_WRITE (R394). -/
def execPtViewWrite (who : Who) (value : W64) (s : State) : Host.Outcome State Fault Refusal :=
  running s (writeCmd who .ptView 0 0 (viewWrite who value))

end Sys2Proof.Machine
end

