-- ==== Sys2Proof/Machine/Manifest.lean ====
section
/-!
DEFINITION. Job manifests (R432 to R435): the header, the sections, their items and the values that the items hold. The
encodings that R433 leaves to a choice are those of log 38.
-/

namespace Sys2Proof.Machine

/-- A refusal of a submission: its status and WN_JOB_STATUS.ITEM. -/
abbrev Bad := Status × Nat

/-- One item of a section (R433), with its byte offset in the manifest. -/
structure Item where
  key : Nat
  index : Nat
  off : Nat
  words : List W64
deriving DecidableEq, Repr

/-- A manifest: its bytes, JOB_NAME, and the items of the sections that are present, sections by number. -/
structure Man where
  bytes : List Byte
  name : Nat
  secs : Tab (List Item)

/-- 64-bit word at a byte offset. -/
def manWord (bs : List Byte) (off : Nat) : W64 := BitVec.ofNat 64 (leNat ((bs.drop off).take 8))

/-- Rows of each section's table (R190, R238, R262, R299, R327, R341, R382, R434). -/
def sectionKeys : List Nat := [11, 12, 11, 10, 7, 5, 8, 1]

/-- The items of a section from byte `off` to byte `fin`; the refusal with the offset of the item that breaks R433 otherwise.
Reserved bits that are not zero refuse as R13 says. -/
def itemsFrom (bs : List Byte) (keys : Nat) : Nat → Nat → Nat → List Item → Except Bad (List Item)
  | 0, off, fin, acc => if off = fin then .ok acc else .error (.manInvalid, off)
  | k + 1, off, fin, acc =>
    if off = fin then .ok acc
    else if fin < off + 8 then .error (.manInvalid, off)
    else
      let w := manWord bs off
      let n := fld w 63 40
      let key := fld w 7 0
      let idx := fld w 39 16
      if fld w 15 8 ≠ 0 then .error (.reservedNonzero, off)
      else if keys ≤ key ∨ fin < off + 8 + 8 * n ∨ acc.any (fun i => decide (i.key = key) && decide (i.index = idx)) then
        .error (.manInvalid, off)
      else
        itemsFrom bs keys k (off + 8 + 8 * n) fin
          (acc ++ [⟨key, idx, off, (List.range n).map fun i => manWord bs (off + 8 + 8 * i)⟩])

/-- The sections of a manifest. -/
def sectionsFrom (bs : List Byte) : Nat → List Nat → Tab (List Item) → Except Bad (Tab (List Item))
  | _, [], acc => .ok acc
  | s, keys :: t, acc =>
    let w := manWord bs (64 + 8 * s)
    let off := fld w 31 0
    let n := fld w 63 32
    if n = 0 then sectionsFrom bs (s + 1) t acc
    else if off < 128 ∨ bs.length < off + n then .error (.manInvalid, off)
    else match itemsFrom bs keys (n / 8 + 1) off (off + n) [] with
      | .error o => .error o
      | .ok items => sectionsFrom bs (s + 1) t (tabIns s items acc)

/-- The fields of R432's header. -/
def manHeaderOk (bs : List Byte) (p : Nat) : Bool :=
  let w := fun i => manWord bs (8 * i)
  decide (fld (w 0) 31 0 = 0x464E414D) && decide (fld (w 0) 47 32 = 1)
    && decide (128 ≤ fld (w 1) 20 0) && decide (fld (w 1) 20 0 ≤ 1048576) && decide (fld (w 1) 24 21 = p)

/-- The first word of R432's header with a bit set outside its fields, as its byte offset. -/
def manHeaderReserved (bs : List Byte) : Option Nat :=
  (([(0, 48), (1, 25), (2, 48), (3, 0), (4, 0), (5, 0), (6, 0), (7, 0)] : List (Nat × Nat)).find? fun x =>
    decide (fld (manWord bs (8 * x.1)) 63 x.2 ≠ 0)).map fun x => 8 * x.1

/-- The manifest of partition `p` in bytes, or the refusal. -/
def manOf (p : Nat) (bs : List Byte) : Except Bad Man :=
  if !manHeaderOk bs p then .error (.manInvalid, 0)
  else match manHeaderReserved bs with
  | some o => .error (.reservedNonzero, o)
  | none => match sectionsFrom bs 0 sectionKeys [] with
    | .error o => .error o
    | .ok secs => if (tabFind 0 secs).isNone then .error (.manInvalid, 64) else .ok ⟨bs, fld (manWord bs 16) 47 0, secs⟩

/-! ## Values -/

/-- Whether a section is present. -/
def Man.has (m : Man) (s : Nat) : Bool := (tabFind s m.secs).isSome

/-- Items of a section with a key. -/
def Man.items (m : Man) (s key : Nat) : List Item := (tabGet [] m.secs s).filter fun i => decide (i.key = key)

/-- Offset to record for a missing value of a section: that of the section itself (log 38). -/
def Man.at_ (m : Man) (s : Nat) : Nat := fld (manWord m.bytes (64 + 8 * s)) 31 0

/-- The first item of a key: the place that a refusal records. -/
def Man.place (m : Man) (s key : Nat) : Nat := match m.items s key with
  | i :: _ => i.off
  | [] => m.at_ s

/-- Element `e` of an array of `w`-word elements: that of the item whose run holds it. -/
def Man.elem (m : Man) (s key w e : Nat) : Option (List W64) :=
  (m.items s key).findSome? fun i =>
    if i.index ≤ e ∧ w * (e - i.index) + w ≤ i.words.length then some ((i.words.drop (w * (e - i.index))).take w) else none

/-- The words of the item of a key with an index. -/
def Man.list (m : Man) (s key idx : Nat) : Option (List W64) :=
  ((m.items s key).find? fun i => decide (i.index = idx)).map (·.words)

/-- A scalar. -/
def Man.word (m : Man) (s key : Nat) : Option W64 := (m.elem s key 1 0).map fun l => l.headD 0#64

/-- Words of a list cut into elements of `w`. -/
def wordsBy (w : Nat) (l : List W64) : List (List W64) := (List.range (l.length / w)).map fun i => (l.drop (w * i)).take w

/-- Whether a condition holds, or the refusal. -/
def must (c : Bool) (st : Status) (item : Nat) : Except Bad Unit := if c then .ok () else .error (st, item)

/-- A value that must be there, or MAN_INVALID. -/
def want {α : Type} (x : Option α) (item : Nat) : Except Bad α := match x with
  | some v => .ok v
  | none => .error (.manInvalid, item)

/-- A required scalar as a number. -/
def Man.num (m : Man) (s key : Nat) : Except Bad Nat := (want (m.word s key) (m.at_ s)).map (·.toNat)

/-- A scalar whose absence means `d`. -/
def Man.numOr (m : Man) (s key d : Nat) : Nat := ((m.word s key).map (·.toNat)).getD d

/-- Cluster that a word names: rank or package, and cluster 32 × die + 8 × region + cluster (R239). -/
def clusterWord (w : W64) : Nat × Nat := (fld w 9 0, 32 * fld w 15 10 + 8 * fld w 17 16 + fld w 20 18)

/-! ### Required values (R433) -/

/-- The scalars that a section requires, as keys. -/
def requiredScalars : Nat → List Nat
  | 0 => [0]
  | 1 => [0, 1, 2, 3, 4, 5, 6, 9]
  | 2 => [0, 1, 3, 4]
  | 3 => [0, 9]
  | 4 => [1, 2, 5, 6]
  | 5 => [0]
  | 6 => [0, 5, 6]
  | _ => []

/-- Values of several words that a section requires once, as key and words. -/
def requiredRows : Nat → List (Nat × Nat)
  | 1 => [(7, 2), (10, 3)]
  | 2 => [(9, 3), (10, 2)]
  | _ => []

/-- The first value that a present section lacks: MAN_INVALID (R433). CLUSTERS and RUN_TABLE are required for every rank. -/
def requiredOk (m : Man) : Except Bad Unit := do
  let secs := (List.range 8).filter m.has
  secs.forM fun s => do
    (requiredScalars s).forM fun k => must (m.word s k).isSome .manInvalid (m.at_ s)
    (requiredRows s).forM fun k => must (m.elem s k.1 k.2 0).isSome .manInvalid (m.at_ s)
  let ranks := ((m.list 0 0 0).getD []).length
  (List.range ranks).forM fun r => do
    must (m.list 0 1 r).isSome .manInvalid (m.at_ 0)
    must (m.list 0 7 r).isSome .manInvalid (m.at_ 0)

end Sys2Proof.Machine
end

