-- ==== Sys2Proof/Machine/Admit.lean ====
section
/-!
DEFINITION. Admission (R395, R434, R435): the checks of a manifest in their order, and everything that an admitted job
takes. A check that fails leaves the state as it was: the tentative state is dropped (R167).
-/

namespace Sys2Proof.Machine

/-- What an admission works with: manifest, partition, handle, this package's rank, and the rim die of the manifest's
region. -/
structure Adm where
  m : Man
  p : Nat
  j : Nat
  rank : Nat
  rd : Nat

/-- Package numbers in rank order. -/
def Adm.packages (a : Adm) : List Nat := ((a.m.list 0 0 0).getD []).map (·.toNat)

/-- (cluster, class) of a rank, in the manifest's order. -/
def Adm.clusters (a : Adm) (r : Nat) : List (Nat × Nat) :=
  (wordsBy 2 ((a.m.list 0 1 r).getD [])).map fun w => ((clusterWord (w.getD 0 0#64)).2, (w.getD 1 0#64).toNat)

/-- Clusters of a rank and class, ascending. -/
def Adm.ofClass (a : Adm) (r cls : Nat) : List Nat :=
  (((a.clusters r).filter fun c => decide (c.2 = cls)).map (·.1)).foldl (fun l c => setIns c l) []

/-- Dies of a rank that hold clusters of a class, ascending. -/
def Adm.dies (a : Adm) (r cls : Nat) : List Nat := (a.ofClass r cls).foldl (fun l c => setIns (clDie c) l) []

/-- Whether a job has clusters of a class on any rank. -/
def Adm.hasClass (a : Adm) (cls : Nat) : Bool :=
  (List.range a.packages.length).any fun r => (a.clusters r).any fun c => decide (c.2 = cls)

/-- Rows of this package's item of a JOB key, `w` words each. -/
def Adm.rows (a : Adm) (key w : Nat) : List (List Nat) := (wordsBy w ((a.m.list 0 key a.rank).getD [])).map fun l => l.map (·.toNat)

/-- Byte offset of this package's item of a JOB key. -/
def Adm.here (a : Adm) (key : Nat) : Nat := match (a.m.items 0 key).find? fun i => decide (i.index = a.rank) with
  | some i => i.off
  | none => a.m.at_ 0

/-- Whether the payload of this package's item of a JOB key is whole rows. -/
def Adm.whole (a : Adm) (key w : Nat) : Bool := decide (((a.m.list 0 key a.rank).getD []).length % w = 0)

/-- Low 16 bits of the first handle free, from `i` on (R395). -/
def freeIndex (s : State) (p : Nat) : Nat → Nat → Nat
  | 0, i => i
  | k + 1, i => if (getJob s (4096 * p + i)).isSome then freeIndex s p k (i % 4095 + 1) else i

/-- Live jobs of a partition. -/
def partJobs (s : State) (p : Nat) : List (Nat × Job) := s.jobs.filter fun j => decide (j.2.part = p)

/-! ## The JOB section -/

/-- PACKAGES (R434): distinct numbers, this package among them. -/
def packagesOk (pkgs : List Nat) (me : Nat) : Bool :=
  decide (1 ≤ pkgs.length) && decide (pkgs.length ≤ 1024) && decide (pkgs.Nodup) && pkgs.contains me
    && pkgs.all fun k => decide (k < 1024)

/-- Whether CLUSTERS of a rank names clusters and classes that exist, each cluster once. -/
def clustersWritten (a : Adm) (r : Nat) : Bool :=
  decide (((a.m.list 0 1 r).getD []).length % 2 = 0) && decide (((a.clusters r).map (·.1)).Nodup)
    && (a.clusters r).all fun c => decide (c.1 < 1792) && decide (c.2 < 7)

/-- Whether a cluster is free for a job of a partition (R395): in one of its regions, without a job, not all its units
retired, refilled after Night (R439), and not held at Mist or Dusk by a FAILED component (R418, log 46). -/
def clusterFree (s : State) (p cl : Nat) : Bool :=
  decide (clPart s cl = some p) && (getCl s cl).owner.isNone && !(getCl s cl).coreDown
    && (s.wn.comps.all fun c => decide (c.2.state ≠ 2) || (decide (c.1 ≠ 3) && decide (c.1 ≠ 4)))
    && (List.range 8).any fun i => unitEnabled (getUnit s (8 * cl + i)) && (getUnit s (8 * cl + i)).refill.isNone

/-- The job as its JOB section names it, without what the other sections add. -/
def jobOf (a : Adm) (s : State) : Job :=
  { part := a.p, name := a.m.name, packages := a.packages, rank := a.rank, clusters := a.clusters a.rank,
    members := (List.range a.packages.length).flatMap fun r => (a.clusters r).map fun c => (r, c),
    poolPages := let l := (a.rows 2 1).map fun w => w.getD 0 0
      if l = [] then (a.clusters a.rank).map fun _ => 0 else l,
    regions := [], prefetch := (a.rows 4 3).map fun w => (w.getD 0 0, w.getD 1 0, w.getD 2 0),
    vectorCode := (a.m.word 0 6).map (·.toNat),
    runTable := (a.rows 7 3).map fun w => ((clusterWord (BitVec.ofNat 64 (w.getD 0 0))).2, w.getD 1 0, w.getD 2 0),
    seed := (a.m.word 0 9).getD 0#64, firstTick := s.tk.tick + 1, admitTick := s.tk.tick, j := 0, gen := none, learn := none,
    upd := none, ctx := none, ag := none, groups := [], streams := [], libs := [], ending := none, held := false,
    agreed := [], spoiled := [], abortedStep := none, placement := 0#64, dropped := [] }

/-- Steps 1 and 2 of R395, with the form of the values of JOB. -/
def admitClusters (a : Adm) (s : State) : Except Bad State := do
  must (packagesOk a.packages s.wn.pkg) .manInvalid (a.m.place 0 0)
  must (decide ((partJobs s a.p).length < 256)) .ptJobTableFull 0
  (List.range a.packages.length).forM fun r => must (clustersWritten a r) .manInvalid (a.m.place 0 1)
  must (a.whole 3 7) .manInvalid (a.here 3)
  must (a.whole 4 3) .manInvalid (a.here 4)
  must (a.whole 5 3) .manInvalid (a.here 5)
  must (a.whole 7 3) .manInvalid (a.here 7)
  must (a.whole 8 2) .manInvalid (a.here 8)
  must ((a.m.items 0 10).all fun i => decide (i.words.length % 3 = 0)) .manInvalid (a.m.place 0 10)
  let x := jobOf a s
  must (x.poolPages.length = x.clusters.length) .manInvalid (a.here 2)
  must (x.runTable.all fun r => decide (1 ≤ r.2.2) && decide (r.2.2 ≤ 65535) && x.clusters.any fun c => decide (c.1 = r.1))
    .manInvalid (a.here 7)
  must (x.clusters.all fun c => clusterFree s a.p c.1) .ptNoClusters 0
  pure { s with jobs := tabIns a.j x s.jobs }

/-- Whether a region declaration names things that exist (log 38). -/
def declOk (d : List Nat) : Bool :=
  let g := fun i => d.getD i 0
  decide (g 0 < 8) && decide (g 1 < 7) && decide (1 ≤ g 2) && decide (1 ≤ g 3) && decide (g 3 ≤ 16) && decide (g 4 < 2)
    && decide (g 5 < 64) && decide (g 6 < 32)

/-- Reserves the near declarations in their order (R167). -/
def reserveAll (a : Adm) : List (List Nat) → State → Except Bad State
  | [], s => .ok s
  | d :: t, s =>
    let g := fun i => d.getD i 0
    match reserveRegion ⟨g 0, a.p, g 1, g 2, g 3, g 4 == 1, g 5, g 6, a.j⟩ s with
    | .error st => .error (st, 0)
    | .ok (h, s1) => reserveAll a t (modJob a.j (fun x => { x with regions := x.regions ++ [(g 0, h)] }) s1)

/-- A read by the scheduler core of a region of the partition at a near address of a rim die (log 38). -/
def coreRead (s : State) (p rd addr n : Nat) : Except Status (List Byte) :=
  let h := addr / 2 ^ 40 % 256
  let off := addr % 2 ^ 40
  match regionOf s rd h with
  | none => .error .mtAddrInvalid
  | some e =>
    if e.part ≠ p then .error .mtNotOwner
    else if e.len < off + n ∨ 2 ^ 48 ≤ addr then .error .mtAddrInvalid
    else readPlace s ⟨rd, h, off⟩ n

/-- The words of a prefetch list, read as it was at admission: its header, then its entries (R173, log 38). -/
def prefetchWords (s : State) (p die addr : Nat) : Except Status (W64 × List (List W64)) :=
  match coreRead s p (homeRd die) addr 64 with
  | .error st => .error st
  | .ok hd =>
    let h := BitVec.ofNat 64 (leNat (hd.take 8))
    match coreRead s p (homeRd die) (addr + 64) (32 * fld h 12 0) with
    | .error st => .error st
    | .ok bs => .ok (h, (List.range (fld h 12 0)).map fun i => (List.range 4).map fun w =>
        BitVec.ofNat 64 (leNat ((bs.drop (32 * i + 8 * w)).take 8)))

/-- One entry of a prefetch list (R173). The region of a TIER 4 source is checked by the package that holds it, when it is read
(R164, log 38). -/
def prefetchEntryOk (s : State) (a : Adm) (die cls period : Nat) (last : Nat) (e : List W64) : Bool :=
  let w := fun i => e.getD i 0#64
  let cl := 32 * die + fld (w 1) 20 16
  let line := fld (w 1) 15 0
  let n := fld (w 1) 47 32
  let off := fld (w 1) 63 48
  let src := match tierAddr s die (w 0) with
    | none => false
    | some (.remote _ rd _ _) => decide (rd < 8)
    | some (.here rd h o) => match access s a.p a.j cls cl rd h o (64 * n) .rd with
      | .ok _ => true
      | .error _ => false
  decide (fld (w 1) 31 21 = 0) && decide (w 2 = 0#64) && decide (w 3 = 0#64) && decide (1 ≤ n) && decide (n ≤ 4096)
    && decide (off < period) && decide (last ≤ off) && (a.clusters a.rank).contains (cl, cls)
    && decide (4096 ≤ line) && decide (line + n ≤ 65536) && src

/-- The entries of a list, in ascending TICK_OFF order. -/
def prefetchEntries (s : State) (a : Adm) (die cls period : Nat) : Nat → List (List W64) → Bool
  | _, [] => true
  | last, e :: t => prefetchEntryOk s a die cls period last e && prefetchEntries s a die cls period (fld (e.getD 1 0#64) 63 48) t

/-- One prefetch list (R173). -/
def prefetchListOk (s : State) (a : Adm) (l : Nat × Nat × Nat) : Bool :=
  match coreRead s a.p (homeRd l.1) l.2.2 64 with
  | .error _ => false
  | .ok hd =>
    let w := fun i => manWord hd (8 * i)
    let n := fld (w 0) 12 0
    let head := decide (1 ≤ n) && decide (n ≤ 4096) && decide (fld (w 0) 15 13 = l.2.1) && decide (1 ≤ fld (w 0) 31 16)
      && decide (fld (w 0) 47 32 = a.j) && decide (fld (w 0) 63 48 = 0) && [1, 2, 3, 4, 5, 6, 7].all fun i => decide (w i = 0#64)
    match coreRead s a.p (homeRd l.1) l.2.2 (64 + 32 * n) with
    | .error _ => false
    | .ok bs => head && prefetchEntries s a l.1 l.2.1 (fld (w 0) 31 16) 0
        (wordsBy 4 ((List.range (4 * n)).map fun i => manWord bs (64 + 8 * i)))

/-- Step 3 of R395: pools, regions, prefetch lists. -/
def admitMemory (a : Adm) (s : State) : Except Bad State := do
  let x := jobOf a s
  must (x.poolPages.all fun n => decide (n ≤ 960)) .poolNoSpace 0
  must ((a.rows 3 7).all declOk) .manInvalid (a.here 3)
  let s1 ← reserveAll a (a.rows 3 7) s
  must (x.prefetch.all fun l => decide (l.1 < 56) && decide (l.2.1 < 7)) .manInvalid (a.here 4)
  must (decide ((x.prefetch.map fun l => (l.1, l.2.1)).Nodup) && x.prefetch.all (prefetchListOk s1 a)) .mtPrefetchInvalid 0
  pure s1

/-- The Cirrus share (R67). -/
def admitCirrus (a : Adm) (s : State) : Except Bad State := do
  let rows := (a.rows 8 2).map fun w => ((clusterWord (BitVec.ofNat 64 (w.getD 0 0))).2, w.getD 1 0)
  let top := if s.fuses.codeT then 7 else 8
  let cls : Nat → Option Nat := fun cl => ((a.clusters a.rank).find? fun c => decide (c.1 = cl)).map (·.2)
  must (decide ((rows.map (·.1)).Nodup) && rows.all fun r => decide (r.2 ≤ top) && (cls r.1).isSome
      && (decide (r.2 = 0) || decide (cls r.1 = some 0) || decide (cls r.1 = some 2))) .manInvalid (a.here 8)
  must (decide (permitsHeld s a.p + (rows.map (·.2)).sum ≤ ptFld (ptEntry s a.p) 0 43 32)) .lwCirrusNoShare 0
  pure (forEach rows (fun r t => modCl r.1 (fun c => { c with permits := r.2 }) t) s)

/-! ### Function tables and vector code (R119, R125) -/

/-- A function table's header is usable (R125). -/
def tableHeadOk (bs : List Byte) : Bool :=
  let w := fun i => BitVec.ofNat 32 (leNat ((bs.drop (4 * i)).take 4))
  fLt (w 0) (w 1) && [0, 1, 2, 4, 5, 6, 7].all fun i => fFin (w i)

/-- Loads one function table into its slot. -/
def loadTable (a : Adm) (r : List Nat) (s : State) : Except Bad State :=
  let cl := (clusterWord (BitVec.ofNat 64 (r.getD 0 0))).2
  let slot := r.getD 1 0
  match (a.clusters a.rank).find? fun c => decide (c.1 = cl) with
  | none => .error (.manInvalid, a.here 5)
  | some (_, cls) =>
    if 16 ≤ slot then .error (.manInvalid, a.here 5)
    else if 2 ^ 48 ≤ r.getD 2 0 then .error (.mtAddrInvalid, 0)
    else match readNear s a.p a.j cls cl (r.getD 2 0) 8224 with
      | .error st => .error (st, 0)
      | .ok bs =>
        if !tableHeadOk bs then .error (.tableInvalid, 0)
        else .ok (putMem (bytesAt (poolKey cl (0x10000 + slot * 0x3000)) bs)
          (modCl cl (fun c => { c with tables := setIns slot c.tables }) s))

/-- Loads the function tables, in order. -/
def loadTables (a : Adm) : List (List Nat) → State → Except Bad State
  | [], s => .ok s
  | r :: t, s => match loadTable a r s with
    | .error e => .error e
    | .ok s1 => loadTables a t s1

/-- Loads the vector-engine image into every cluster of the job (R119): zero without one. -/
def loadVector (a : Adm) (s : State) : Except Bad State :=
  ((a.clusters a.rank).map (·.1)).foldlM (fun t cl =>
    match a.m.word 0 6 with
    | none => .ok (zeroMem (imemKey cl 0) 0x10000 t)
    | some w => match coreRead t a.p (clRd cl) w.toNat 0x10000 with
      | .error st => .error (st, 0)
      | .ok bs => .ok (putMem (bytesAt (imemKey cl 0) bs) t)) s

/-- The job's clusters are its own from here, with their pools zeroed before anything is loaded into them (R103). -/
def clearPools (a : Adm) (s : State) : State :=
  forEach (a.clusters a.rank) (fun c t => zeroMem (poolKey c.1 0) 0x400000
    (modCl c.1 (fun x => { x with tables := [], grammars := [], allows := [], scans := [], gens := [], vx := vecReset,
                                  permits := 0, permitsUsed := 0, owner := some (c.2, a.p, a.j) }) t)) s

/-! ## Models (R257) -/

/-- Models that a job names: MODEL_ID and KIND. -/
def Adm.models (a : Adm) : List (Nat × Nat) :=
  (a.m.items 0 10).flatMap fun i => (wordsBy 3 i.words).map fun w =>
    ((w.getD 0 0#64).toNat + (w.getD 1 0#64).toNat * 2 ^ 64, (w.getD 2 0#64).toNat)

/-- Library entry of a model of a kind. -/
def findLib (s : State) (p : Nat) (k : Nat × Nat) : Option (Nat × Lib) :=
  (libsOf s p).find? fun l => decide (l.2.modelId = k.1) && decide (l.2.kind = k.2)

/-- A job takes the use of a library entry. -/
def useLib (p i : Nat) (j : Nat) (s : State) : State :=
  match tabFind i s.lrn.libs with
  | none => s
  | some l =>
    let l' := { l with inUse := l.inUse + 1, uses := min (2 ^ 32 - 1) (l.uses + 1), lastUse := s.tk.tick % 2 ^ 32 }
    let ovf := if 2 ^ 32 - 1 ≤ l.uses + 1 then setIns i s.lrn.libOvf else s.lrn.libOvf
    modJob j (fun x => { x with libs := x.libs ++ [(p, i % 64)] })
      { s with lrn := { s.lrn with libs := tabIns i l' s.lrn.libs, libOvf := ovf } }

/-- Takes the models in order. -/
def takeModels (a : Adm) : List (Nat × Nat) → State → Except Bad State
  | [], s => .ok s
  | k :: t, s => match findLib s a.p k with
    | none => .error (.ctModelAbsent, 0)
    | some (i, l) => if 255 ≤ l.inUse then .error (.ctModelInUseMax, 0) else takeModels a t (useLib a.p i a.j s)

/-- The first model of a kind that the job names. -/
def Adm.model (a : Adm) (s : State) (kind : Nat) : Option (Nat × Lib) :=
  (a.models.find? fun k => decide (k.2 = kind)).bind (findLib s a.p)

/-! ## GEN (R190, R209) -/

/-- Sum over the GEN jobs of a partition. -/
def genHeld (s : State) (p : Nat) (f : GenSt → Nat) : Nat :=
  ((partJobs s p).map fun j => match j.2.gen with
    | some g => f g
    | none => 0).sum

/-- The lowest first page of `n` contiguous pages of the package's 4,194,304 that no job holds (R215, log 10). -/
def pageBase (s : State) (n : Nat) : Option Nat :=
  let used := s.jobs.filterMap fun j => j.2.gen.map fun g => (g.pageBase, g.pages)
  let free := fun (b : Nat) => decide (b + n ≤ 4194304) && used.all fun u => decide (b + n ≤ u.1) || decide (u.1 + u.2 ≤ b)
  leastOf ((0 :: used.map fun u => u.1 + u.2).filter free)

/-- The lowest `n` sequence slots of the package that no job holds (log 10). -/
def freeSlots (s : State) (n : Nat) : List Nat :=
  let used := s.jobs.flatMap fun j => match j.2.gen with
    | some g => g.slots
    | none => []
  ((List.range 65536).filter fun i => !used.contains i).take n

/-- A power of two. -/
def isPow2 (n : Nat) : Bool := decide (n ≠ 0) && decide (2 ^ Nat.log2 n = n)

/-- Whether a region can be a job's output ring: a GEN region of the job that a group of the partition's application cores
owns, WRITABLE and long enough (R190, R201). -/
def ringRegionOk (s : State) (a : Adm) (rd h records : Nat) : Bool := match regionOf s rd h with
  | some e => decide (e.job = a.j) && decide (e.cls = 0) && !e.sealed && decide (64 + 32 * records ≤ e.len)
      && decide (e.owner = 56 + rd) && (coreDies s a.p).contains rd
  | none => false

/-- One state entry of a grammar (R209): its transitions lie in the table. -/
def stateEntryOk (trans : Nat) (w : W64) : Bool :=
  decide (fld w 63 38 = 0) && decide (fld w 36 24 ≤ 4096) && decide (fld w 23 0 + fld w 36 24 ≤ trans)

/-- One transition of a grammar (R209). -/
def transOk (states vocab eos : Nat) (w0 w1 : W64) : Bool :=
  let lo := fld w0 17 0
  let hi := fld w0 35 18
  decide (lo ≤ hi) && decide (hi < vocab) && !(decide (lo ≤ eos) && decide (eos ≤ hi)) && decide (fld w0 51 36 < states)
    && decide (fld w0 63 55 = 0) && decide (fld w1 15 0 ≠ 0xFFFF) && decide (fld w1 63 32 = 0)

/-- Checks of a grammar as its source bytes hold it, for a header at a pool line of a cluster with `pages` declared
pages. -/
def grammarOk (hd : List Byte) (line pages : Nat) : Bool :=
  let w := fun i => manWord hd (8 * i)
  let states := fld (w 0) 15 0
  let trans := fld (w 0) 35 16
  let area := 4096 + 64 * pages
  let inside := fun (l n : Nat) => decide (4096 ≤ l) && decide (l + n ≤ area)
  decide (1 ≤ states) && decide (1 ≤ trans) && decide (fld (w 0) 51 36 < states) && decide (fld (w 0) 63 52 = 0)
    && decide (1 ≤ fld (w 1) 6 0) && decide (fld (w 1) 6 0 ≤ 112) && decide (fld (w 1) 63 7 = 0) && decide (fld (w 2) 63 32 = 0)
    && [3, 4, 5, 6, 7].all (fun i => decide (w i = 0#64)) && inside line 1 && inside (fld (w 2) 15 0) ((states * 8 + 63) / 64)
    && inside (fld (w 2) 31 16) ((trans * 16 + 63) / 64)

/-- Loads one grammar or allow list of a cluster of this package (R209, log 39). -/
def loadGrammar (a : Adm) (vocab eos : Nat) (r : List Nat) (s : State) : Except Bad State :=
  let (rank, cl) := clusterWord (BitVec.ofNat 64 (r.getD 0 0))
  if rank ≠ a.rank then .ok s
  else
  let src := r.getD 2 0
  let line := r.getD 3 0
  let bad : Except Bad State := .error (.smTableInvalid, 0)
  let pages := ((getJob s a.j).bind fun x => (x.clusters.findIdx? fun c => decide (c.1 = cl)).map fun i => x.poolPages.getD i 0)
  match pages with
  | none => bad
  | some pg =>
    if r.getD 1 0 = 1 then
      if line < 4096 ∨ 4096 + 64 * pg < line + 512 ∨ 15 ≤ (getCl s cl).allows.length then bad
      else match coreRead s a.p (clRd cl) src 32768 with
        | .error st => .error (st, 0)
        | .ok bs => .ok (putMem (bytesAt (poolKey cl (64 * line)) bs)
            (modCl cl (fun c => { c with allows := tabIns (c.allows.length + 1) line c.allows }) s))
    else match coreRead s a.p (clRd cl) src 64 with
      | .error st => .error (st, 0)
      | .ok hd =>
        let w := fun i => manWord hd (8 * i)
        let states := fld (w 0) 15 0
        let trans := fld (w 0) 35 16
        let sl := (states * 8 + 63) / 64
        let tl := (trans * 16 + 63) / 64
        if !grammarOk hd line pg ∨ 1 < r.getD 1 0 ∨ 15 ≤ (getCl s cl).grammars.length then bad
        else match coreRead s a.p (clRd cl) src (64 + 64 * sl + 64 * tl) with
          | .error st => .error (st, 0)
          | .ok bs =>
            let sb := (bs.drop 64).take (64 * sl)
            let tb := bs.drop (64 + 64 * sl)
            if !((List.range states).all fun i => stateEntryOk trans (manWord sb (8 * i)))
                ∨ !((List.range trans).all fun i => transOk states vocab eos (manWord tb (16 * i)) (manWord tb (16 * i + 8))) then bad
            else .ok (putMem (bytesAt (poolKey cl (64 * line)) hd ++ bytesAt (poolKey cl (64 * fld (w 2) 15 0)) sb
                ++ bytesAt (poolKey cl (64 * fld (w 2) 31 16)) tb)
              (modCl cl (fun c => { c with grammars := tabIns (c.grammars.length + 1) line c.grammars }) s))

/-- Loads the grammars and allow lists in order. -/
def loadGrammars (a : Adm) (vocab eos : Nat) : List (List Nat) → State → Except Bad State
  | [], s => .ok s
  | r :: t, s => match loadGrammar a vocab eos r s with
    | .error e => .error e
    | .ok s1 => loadGrammars a vocab eos t s1

/-- The GEN section (R190). Its values are checked on every package of the job; the shares and the ring, where the package holds
GEN clusters of it (log 106). -/
def admitGen (a : Adm) (s : State) : Except Bad State :=
  if !a.m.has 1 then .ok s
  else do
    let n := fun k => a.m.numOr 1 k 0
    let fmt : List Nat := ((a.m.elem 1 7 2 0).getD []).map (·.toNat)
    let ring : List Nat := ((a.m.elem 1 10 3 0).getD []).map (·.toNat)
    let slots := n 0
    let pages := n 1
    let e := ptEntry s a.p
    let here := !(a.ofClass a.rank 0).isEmpty
    let base := pageBase s pages
    let ok := decide (1 ≤ slots) && decide (1 ≤ pages)
      && decide (2 ≤ n 2) && decide (n 2 ≤ 262144) && decide (1 ≤ n 3) && decide (n 3 ≤ 262144) && decide (n 4 < n 3)
      && decide (1 ≤ n 5) && decide (n 5 ≤ 4096) && decide (1 ≤ n 6) && decide (n 6 % 64 = 0) && decide (n 2 ≤ 16 * n 6)
      && [5, 6, 2, 3].contains (fmt.getD 0 0) && decide (1 ≤ fmt.getD 1 0) && decide (n 8 ≤ 65535)
      && decide (1 ≤ n 9) && decide (n 9 ≤ 65535)
      && isPow2 (ring.getD 2 0) && decide (64 ≤ ring.getD 2 0) && decide (ring.getD 2 0 ≤ 65536)
    let fits := decide (genHeld s a.p (·.slots.length) + slots ≤ ptFld e 7 16 0)
      && decide (genHeld s a.p (·.pages) + pages ≤ ptFld e 7 39 17) && base.isSome
      && ringRegionOk s a (ring.getD 0 0) (ring.getD 1 0) (ring.getD 2 0)
    must (ok && (!here || fits)) .seqManifestInvalid 0
    let g : GenSt :=
      { slots := freeSlots s slots, pages := pages, pageBase := base.getD 0, maxLen := n 2, vocab := n 3, eos := n 4,
        prefillChunk := n 5, splitLen := n 6, kvFmt := fmt.getD 0 0, posLines := fmt.getD 1 0, admitTimeout := n 8,
        pageWaitLimit := n 9, ringRd := ring.getD 0 0, ringRegion := ring.getD 1 0, ringRecords := ring.getD 2 0, write := 0,
        read := 0, wait := [], acks := [], ends := [] }
    let rows := (a.m.items 1 11).flatMap fun i => (wordsBy 4 i.words).map fun l => l.map (·.toNat)
    must ((a.m.items 1 11).all fun i => decide (i.words.length % 4 = 0)) .manInvalid (a.m.place 1 11)
    if !here then .ok s
    else
    let s1 := modJob a.j (fun x => { x with gen := some g }) s
    loadGrammars a (n 3) (n 4) rows (writePlace g.ringRd g.ringRegion 0 (List.replicate 64 0#8) s1)

end Sys2Proof.Machine
end

