-- ==== Sys2Proof/Machine/Sections.lean ====
section
/-!
DEFINITION. Admission, continued: the LEARN, UPDATE, CONTRAIL, SQUALL, AFTERGLOW and HORIZON sections of a manifest (R262,
R299, R238, R327, R341, R382). Indexes of arrays that run over dies or clusters are those of log 38.
-/

namespace Sys2Proof.Machine

/-- Elements of an array value: as many as the words of its items make. -/
def Man.array (m : Man) (s key w : Nat) : List (List W64) :=
  (List.range ((m.items s key).map fun i => i.words.length / w).sum).map fun e => (m.elem s key w e).getD []

/-- Words of an element as numbers. -/
def nums (l : List W64) : List Nat := l.map (·.toNat)

/-- Ranks of a job. -/
def Adm.ranks (a : Adm) : List Nat := List.range a.packages.length

/-- Whether a handle names a WRITABLE region of this job on a die's home rim die, of a class, that an owner holds, with at
least `n` bytes. -/
def ownRegion (s : State) (a : Adm) (rd h cls owner n : Nat) : Bool := match regionOf s rd h with
  | some e => decide (e.job = a.j) && decide (e.cls = cls) && !e.sealed && decide (e.owner = owner) && decide (n ≤ e.len)
  | none => false

/-- The same for a region that a compute die owns. -/
def dieRegion (s : State) (a : Adm) (h cls die n : Nat) : Bool := decide (h < 256) && ownRegion s a (homeRd die) h cls die n

/-- The lowest key below `n` that a table does not hold. -/
def freeKey {α : Type} (t : Tab α) (n : Nat) : Option Nat := (List.range n).find? fun k => (tabFind k t).isNone

/-! ## LEARN (R262, R271, R281, R284, R286) -/

/-- The stage table, replica after replica (R262). -/
def stageRows (a : Adm) (stages replicas : Nat) : List (Nat × Nat × Nat × Nat) :=
  (List.range replicas).flatMap fun r =>
    (wordsBy 4 ((a.m.elem 2 2 (4 * stages) r).getD [])).map fun w => match nums w with
      | [k, mask, f, l] => (k, mask, f, l)
      | _ => (0, 0, 0, 0)

/-- Layers of a replica run on from stage to stage. -/
def layersRun : List (Nat × Nat × Nat × Nat) → Bool
  | [] => true
  | [x] => decide (x.2.2.1 ≤ x.2.2.2) && decide (x.2.2.2 < 65536)
  | x :: y :: t => decide (x.2.2.1 ≤ x.2.2.2) && decide (y.2.2.1 = x.2.2.2 + 1) && layersRun (y :: t)

/-- Dies of a mask. -/
def maskDies (m : Nat) : List Nat := (List.range 56).filter fun d => m / 2 ^ d % 2 == 1

/-- The rules of the stage table. -/
def stagesOk (a : Adm) (stages replicas : Nat) : Bool :=
  let rows := stageRows a stages replicas
  let dies := rows.flatMap fun x => (maskDies x.2.1).map fun d => (x.1, d)
  decide (rows.length = stages * replicas)
    && (rows.all fun x => decide (x.1 < a.packages.length) && decide (x.2.1 < 2 ^ 56)
        && (maskDies x.2.1).all fun d => (a.dies x.1 1).contains d)
    && decide (dies.Nodup) && (List.range replicas).all fun r => layersRun ((rows.drop (r * stages)).take stages)

/-- The STRATUS entry of a die (R271). -/
def stratusOk (s : State) (a : Adm) (inflight die : Nat) (e : List Nat) : Bool :=
  let n := ((a.ofClass a.rank 1).filter fun c => decide (clDie c = die)).length * inflight
  let bytes := e.getD 1 0
  dieRegion s a (e.getD 0 0) 1 die (n * bytes) && decide (1 ≤ bytes) && decide (bytes % 4096 = 0)
    && decide (1 ≤ e.getD 2 0) && decide (e.getD 2 0 ≤ 4096) && decide (n * e.getD 2 0 ≤ 16384)

/-- The GRAD entry of a cluster (R281). -/
def gradOk (s : State) (a : Adm) (cl h : Nat) : Bool :=
  dieRegion s a h 1 (clDie cl) 0 && (match regionOf s (clRd cl) h with
    | some e => decide (e.accumCluster = cl % 32)
    | none => false)

/-- The uses of a tie group (R284): rank, cluster, offset, length. -/
def tieUses (i : Item) : List (Nat × Nat × Nat × Nat) :=
  ((wordsBy 4 i.words).map nums).map fun u =>
    let c := clusterWord (BitVec.ofNat 64 (u.getD 1 0))
    (c.1, c.2, u.getD 2 0, u.getD 3 0)

/-- Each use of the tie groups has its own range, inside the gradient region of its cluster where this package has it (R284). -/
def tiesApart (s : State) (a : Adm) : Bool :=
  let uses := (a.m.items 2 7).flatMap tieUses
  let grad := fun (cl : Nat) => ((nums ((a.m.elem 2 6 1 (2048 * a.rank + cl)).getD [])).head?.bind (regionOf s (clRd cl))).map Region.len
  (uses.all fun u => decide (u.1 ≠ a.rank) || decide (u.2.2.1 + u.2.2.2 ≤ (grad u.2.1).getD 0))
    && uses.zipIdx.all fun x => (uses.drop (x.2 + 1)).all fun v =>
      decide (x.1.1 ≠ v.1) || decide (x.1.2.1 ≠ v.2.1) || decide (x.1.2.2.1 + x.1.2.2.2 ≤ v.2.2.1)
        || decide (v.2.2.1 + v.2.2.2 ≤ x.1.2.2.1)

/-- A tie group (R284): die, cluster, offset and length of each use. -/
def tieOk (a : Adm) (i : Item) : Bool :=
  let uses := (wordsBy 4 i.words).map nums
  decide (i.words.length % 4 = 0) && decide (2 ≤ uses.length) && decide (uses.length ≤ 16) && decide (i.index < 256)
    && uses.all fun u =>
      let c := clusterWord (BitVec.ofNat 64 (u.getD 1 0))
      decide (u.getD 0 0 = clDie c.2) && (a.ofClass c.1 1).contains c.2 && decide (u.getD 3 0 = (uses.headD []).getD 3 0)

/-- The LEARN section's values that every member checks. -/
def learnOk (a : Adm) : Bool :=
  let n := fun k => a.m.numOr 2 k 0
  let teach : List Nat := nums ((a.m.elem 2 9 3 0).getD [])
  let reward : List Nat := nums ((a.m.elem 2 10 2 0).getD [])
  decide (1 ≤ n 0) && decide (n 0 ≤ 512) && decide (1 ≤ n 1) && decide (n 1 ≤ 1024) && stagesOk a (n 0) (n 1)
    && decide (1 ≤ n 3) && decide (n 3 ≤ 65535) && decide (1 ≤ n 4) && decide (n 4 ≤ 64)
    && (a.m.items 2 7).all (tieOk a) && decide (teach.getD 0 0 ≤ 1) && decide (teach.getD 1 0 ≤ 56)
    && (decide (teach.getD 0 0 = 1) || decide (teach.getD 1 0 = 0)) && decide (1 ≤ teach.getD 2 0)
    && decide (teach.getD 2 0 ≤ 65535) && decide (reward.getD 0 0 ≤ 1) && decide (1 ≤ reward.getD 1 0)
    && decide (reward.getD 1 0 ≤ 65535)
    && decide ((a.m.array 2 8 5).length ≤ 64) && (a.hasClass 0 || decide (a.m.array 2 8 5 = []))

/-- An experience ring as its entry describes it, for a ring whose consumer is on this package (R286). -/
def ringOk (s : State) (a : Adm) (teach : Bool) (e : List Nat) : Bool :=
  let c := clusterWord (BitVec.ofNat 64 (e.getD 1 0))
  let n := e.getD 3 0
  let die := e.getD 0 0
  let bytes := 64 + 64 * n
  let mirror := match regionOf s (e.getD 4 0 / 256 % 8) (e.getD 4 0 % 256) with
    | some g => decide (g.job = a.j) && decide (g.cls = 2) && !g.sealed && decide (bytes ≤ g.len)
        && (a.dies a.rank 2).contains g.owner && decide (homeRd g.owner = e.getD 4 0 / 256 % 8)
    | none => false
  decide (die = clDie c.2) && isPow2 n && decide (1024 ≤ n) && decide (n ≤ 16777216) && dieRegion s a (e.getD 2 0) 1 die bytes
    && (!teach || (decide (e.getD 4 0 < 2048) && mirror))

/-- Rings that the jobs of a partition hold. -/
def ringsHeld (s : State) (p : Nat) : Nat := (s.lrn.rings.filter fun r => decide (r.2.part = p)).length

/-- Ring `i` of a job, of package number `k`. -/
def addRing (a : Adm) (k : Nat) (s : State) : State :=
  modJob a.j (fun x => { x with learn := x.learn.map fun l => { l with rings := l.rings ++ [k] } }) s

/-- Opens the rings whose consumer is on this package, in ring order, and numbers the others (R286, log 26). -/
def openRings (a : Adm) (teach : Bool) : List (List Nat) → State → Except Bad State
  | [], s => .ok s
  | e :: t, s =>
    let c := clusterWord (BitVec.ofNat 64 (e.getD 1 0))
    if !(a.ofClass c.1 1).contains c.2 then .error (.lnManifestInvalid, 0)
    else if c.1 ≠ a.rank then
      openRings a teach t (addRing a (awayRing a.j (((learnOf s a.j).map fun l => l.rings.length).getD 0)) s)
    else if !ringOk s a teach e then .error (.lnManifestInvalid, 0)
    else if ptFld (ptEntry s a.p) 14 26 18 ≤ ringsHeld s a.p then .error (.expNoRing, 0)
    else match freeKey s.lrn.rings 256 with
      | none => .error (.expNoRing, 0)
      | some k =>
        let r : ExpRing :=
          { job := a.j, part := a.p, log2 := Nat.log2 (e.getD 3 0), lastStatus := .ok, write := 0, consume := 0, recs := [],
            consumer := c.2, rd := clRd c.2, region := e.getD 2 0,
            mirror := if teach then some (e.getD 4 0 / 256 % 8, e.getD 4 0 % 256) else none, lastStale := false }
        openRings a teach t (expHeader k (addRing a k { s with lrn := { s.lrn with rings := tabIns k r s.lrn.rings } }))

/-- The LEARN section (R262). -/
def admitLearn (a : Adm) (s : State) : Except Bad State :=
  if !a.m.has 2 then .ok s
  else do
    let n := fun k => a.m.numOr 2 k 0
    let teach : List Nat := nums ((a.m.elem 2 9 3 0).getD [])
    let reward : List Nat := nums ((a.m.elem 2 10 2 0).getD [])
    must (learnOk a) .lnManifestInvalid 0
    let stratus := (a.dies a.rank 1).map fun d => (d, nums ((a.m.elem 2 5 3 (64 * a.rank + d)).getD []))
    must (stratus.all fun x => decide (x.2.length = 3)) .manInvalid (a.m.place 2 5)
    must (stratus.all fun x => stratusOk s a (n 4) x.1 x.2) .lnManifestInvalid 0
    let grad := (a.ofClass a.rank 1).map fun c => (c, nums ((a.m.elem 2 6 1 (2048 * a.rank + c)).getD []))
    must (grad.all fun x => decide (x.2.length = 1)) .manInvalid (a.m.place 2 6)
    must (grad.all (fun x => gradOk s a x.1 (x.2.getD 0 0)) && tiesApart s a) .lnManifestInvalid 0
    let l : LearnSt :=
      { stages := n 0, replicas := n 1, stage := stageRows a (n 0) (n 1), microBatches := n 3, mbInflight := n 4,
        stratus := stratus.map fun x => (x.1, x.2.getD 0 0, x.2.getD 1 0, x.2.getD 2 0),
        ties := (a.m.items 2 7).map tieUses, grad := grad.map fun x => (x.1, x.2.getD 0 0), needTeach := teach.getD 0 0 == 1, topk := teach.getD 1 0,
        teachTimeout := teach.getD 2 0, needReward := reward.getD 0 0 == 1, rewardTimeout := reward.getD 1 0, rings := [],
        consumers := ((a.m.array 2 8 5).map nums).map fun e => clusterWord (BitVec.ofNat 64 (e.getD 1 0)), expEnds := [] }
    openRings a l.needTeach ((a.m.array 2 8 5).map nums) (modJob a.j (fun x => { x with learn := some l }) s)

/-! ## UPDATE (R299) -/

/-- Points of a group. -/
def pointsOf (a : Adm) (g : Nat) : List (Nat × W32 × W32) :=
  (wordsBy 3 ((a.m.list 3 1 g).getD [])).map fun w => ((w.getD 0 0#64).toNat, (w.getD 1 0#64).setWidth 32, (w.getD 2 0#64).setWidth 32)

/-- Steps of the points ascend. -/
def stepsAscend : List (Nat × W32 × W32) → Bool
  | [] => true
  | [_] => true
  | x :: y :: t => decide (x.1 < y.1) && stepsAscend (y :: t)

/-- One group's values keep R299. -/
def groupOk (a : Adm) (g : Nat) : Bool :=
  let ps := pointsOf a g
  let raw := (a.m.list 3 1 g).getD []
  let high := fun (w : Option W64) => (w.map (·.toNat)).getD (2 ^ 64)
  let frozen := high ((a.m.elem 3 2 1 g).map fun l => l.headD 0#64)
  let t0 := high ((a.m.elem 3 3 1 g).map fun l => l.headD 0#64)
  decide (raw.length % 3 = 0) && raw.all (fun w => decide (w.toNat < 2 ^ 32)) && decide (1 ≤ ps.length) && decide (ps.length ≤ 16)
    && stepsAscend ps && ps.all (fun x => fFin x.2.1 && fFin x.2.2) && decide (frozen ≤ 1) && decide (t0 + 2 ≤ 2 ^ 32)

/-- A group as admission sets it up. -/
def groupAt (a : Adm) (g : Nat) : Group :=
  let one := fun (k : Nat) => (((a.m.elem 3 k 1 g).map fun l => (l.headD 0#64).toNat)).getD 0
  ({ points := pointsOf a g, frozen := one 2 == 1, t := one 3, tMax := false, lr := 0#32, wd := 0#32 } : Group).eval

/-- The TENSORS: number, K, COLS, IN_NORM. -/
def tensorRows (a : Adm) : List (Nat × Nat × Nat × Nat) :=
  (a.m.items 3 4).flatMap fun i => (wordsBy 3 i.words).zipIdx.map fun w => match nums w.1 with
    | [k, c, n] => (i.index + w.2, k, c, n)
    | _ => (i.index + w.2, 0, 0, 2)

/-- Update tiles of a tensor (R296). -/
def tilesOf (k cols : Nat) : Nat := (k / 32 * cols + 127) / 128

/-- Owner of each tile of a tensor: rank and cluster. -/
def ownersOf (a : Adm) (t : Nat) : List (Nat × Nat) := ((a.m.list 3 5 t).getD []).map clusterWord

/-- The owners of a tensor keep R297: a LEARN cluster of the job for each tile, and one for each norm chunk, all on dies of
replicas of one stage, which hold the tensor's columns (R263). -/
def ownersOk (a : Adm) (x : Nat × Nat × Nat × Nat) : Bool :=
  let os := ownersOf a x.1
  let stages := a.m.numOr 2 0 0
  let rows := (stageRows a stages (a.m.numOr 2 1 0)).zipIdx
  let stageOf := fun (o : Nat × Nat) =>
    (rows.find? fun r => decide (r.1.1 = o.1) && (maskDies r.1.2.1).contains (clDie o.2)).map fun r => r.2 % max 1 stages
  os.all (fun o => (stageOf o).isSome && decide (stageOf o = stageOf (os.headD (0, 0)))) && decide (os.length = tilesOf x.2.1 x.2.2.1) && (os.all fun o => (a.ofClass o.1 1).contains o.2)
    && os.zipIdx.all fun o => decide (os.getD (o.2 / 32 * 32) (0, 0) = o.1)

/-- Every tile with its owner: tensor, tile, 2,048 × rank + cluster. -/
def ownerList (a : Adm) : List (Nat × Nat × Nat) :=
  (tensorRows a).flatMap fun x => (ownersOf a x.1).zipIdx.map fun o => (x.1, o.2, 2048 * o.1.1 + o.1.2)

/-- Blocks of a tile of a tensor (R296): the last may be partial. -/
def tileBlocks (a : Adm) (t tile : Nat) : Nat := match (tensorRows a).find? fun x => decide (x.1 = t) with
  | some x => min 128 (x.2.1 / 32 * x.2.2.1 - 128 * tile)
  | none => 0

/-- The UPDATE section (R299). -/
def admitUpdate (a : Adm) (s : State) : Except Bad State :=
  if !a.m.has 3 then .ok s
  else do
    let groups := a.m.numOr 3 0 0
    let bad := Status.updManifestInvalid
    must (decide (1 ≤ groups) && decide (groups ≤ 256)) bad 0
    must ((List.range groups).all fun g => (a.m.list 3 1 g).isSome && (a.m.elem 3 2 1 g).isSome && (a.m.elem 3 3 1 g).isSome)
      .manInvalid (a.m.at_ 3)
    let points := ((List.range groups).map fun g => (pointsOf a g).length).sum
    let ts := tensorRows a
    must ((List.range groups).all (groupOk a) && decide (points ≤ 4096)
      && ts.all (fun x => decide (x.1 < 4096) && decide (1 ≤ x.2.1) && decide (x.2.1 % 32 = 0) && decide (1 ≤ x.2.2.1)
          && decide (x.2.1 * x.2.2.1 ≤ 2 ^ 30) && decide (x.2.2.2 ≤ 1))
      && decide ((ts.map (·.1)).Nodup) && ts.all (ownersOk a)) bad 0
    let clip := a.m.numOr 3 8 0
    must (decide (clip < 2 ^ 32) && fFin (BitVec.ofNat 32 clip) && fLe 0#32 (BitVec.ofNat 32 clip)) bad 0
    let owners := ownerList a
    let dies := a.dies a.rank 1
    let sched := dies.map fun d => (d, nums ((a.m.elem 3 6 1 (64 * a.rank + d)).getD []))
    must (sched.all fun x => decide (x.2.length = 1)) .manInvalid (a.m.place 3 6)
    must (sched.all fun x => dieRegion s a (x.2.getD 0 0) 1 x.1 (64 + 64 * groups + 16 * points)) bad 0
    let mine := (a.ofClass a.rank 1).filter fun c => owners.any fun o => decide (o.2.2 = 2048 * a.rank + c)
    let moment := mine.map fun c => (c, nums ((a.m.elem 3 7 1 (2048 * a.rank + c)).getD []))
    must (moment.all fun x => decide (x.2.length = 1)) .manInvalid (a.m.place 3 7)
    must (moment.all fun x =>
      let blocks := ((owners.filter fun o => decide (o.2.2 = 2048 * a.rank + x.1)).map fun o => tileBlocks a o.1 o.2.1).sum
      dieRegion s a (x.2.getD 0 0) 1 (clDie x.1) (128 * blocks)) bad 0
    let ng := a.m.numOr 3 9 0
    let members := ((a.m.list 5 1 ng).getD []).map fun w => 2048 * (clusterWord w).1 + (clusterWord w).2
    must (decide (1 ≤ ng) && decide (ng ≤ a.m.numOr 5 0 0) && owners.all fun o => members.contains o.2.2) bad 0
    let u : UpdSt :=
      { groups := (List.range groups).map (groupAt a), clip := BitVec.ofNat 32 clip,
        tensors := ts.foldl (fun t x => tabIns x.1 (x.2.1, x.2.2.1, x.2.2.2 == 1) t) [], owners := owners,
        sched := sched.map fun x => (x.1, homeRd x.1, x.2.getD 0 0),
        moment := moment.map fun x => (x.1, clRd x.1, x.2.getD 0 0), normGroup := ng, partials := [], posters := [], normSent := false,
        doneFrom := [], notice := none }
    pure (writeSched a.j (modJob a.j (fun x => { x with upd := some u }) s))

/-! ## CONTRAIL (R229, R233, R236, R238, R239) -/

/-- Whether a job may be taken over by a spare: it has an AFTERGLOW section and spans packages (R357). -/
def Adm.spares (a : Adm) : Bool := a.m.has 6 && decide (2 ≤ a.packages.length)

/-- Whether a unit word names a unit of a class of the job: its package has a rank, its cluster the class there, and on this
package the unit is enabled. Where a spare may join, AG_SPARE_UNFIT speaks for the units (R357, log 41). -/
def unitOfJob (s : State) (a : Adm) (cls pkg cl unit : Nat) : Bool :=
  match a.packages.findIdx? fun k => decide (k = pkg) with
  | some r => (a.ofClass r cls).contains cl && (decide (r ≠ a.rank) || a.spares || decide (unit < enabledCount s cl))
  | none => false

/-- One publish-map entry keeps R239. -/
def mapEntryOk (s : State) (a : Adm) (bank : Nat) (e : MapEntry) : Bool :=
  let b := if e.fmt = 0 then 128 else 64
  decide (fld e.w0 63 25 = 0) && (decide (e.fmt = 0) || decide (e.fmt = 2)) && (decide (e.fmt = 2) || decide (e.shift = 0))
    && decide (fld e.w1 63 52 = 0) && decide (1 ≤ e.klen) && decide (e.klen % b = 0)
    && decide (fld e.w2 63 43 = 0) && decide (fld e.w3 63 39 = 0) && decide (e.dstOff % 64 = 0)
    && decide (e.srcOff + 2 * e.klen ≤ 65536) && decide (e.dstOff + e.laneBytes ≤ bank)
    && unitOfJob s a 1 e.srcPkg e.srcCl e.srcUnit && unitOfJob s a 0 e.dstPkg e.dstCl e.dstUnit

/-- Whether two entries overlap at one destination. -/
def mapOverlap (e f : MapEntry) : Bool :=
  decide (fld e.w3 23 0 = fld f.w3 23 0) && decide (e.dstOff < f.dstOff + f.laneBytes) && decide (f.dstOff < e.dstOff + e.laneBytes)

/-- No two entries overlap. -/
def mapApart : List MapEntry → Bool
  | [] => true
  | e :: t => (t.all fun f => !mapOverlap e f) && mapApart t

/-- Entries of a map with their places in staging: bytes of each learner die's region in entry order (R244). -/
def placeEntries : List MapEntry → Tab Nat → List MapEntry
  | [], _ => []
  | e :: t, ends =>
    let k := 64 * e.srcPkg + e.srcDie
    let o := tabGet 0 ends k
    { e with stageOff := o } :: placeEntries t (tabIns k (o + e.bytes) ends)

/-- Reads the publish map (R239): its entries, or the refusal. -/
def readMap (s : State) (a : Adm) (bank addr : Nat) : Except Bad (List MapEntry) :=
  match coreRead s a.p a.rd addr 64 with
  | .error st => .error (st, 0)
  | .ok hd =>
    let w := fun i => manWord hd (8 * i)
    let n := fld (w 0) 15 0
    if n = 0 ∨ fld (w 0) 31 16 ≠ a.j ∨ fld (w 0) 63 32 ≠ 0 ∨ [1, 2, 3, 4, 5, 6, 7].any (fun i => decide (w i ≠ 0#64)) then
      .error (.ctMapInvalid, 0)
    else match coreRead s a.p a.rd addr (64 + 32 * n) with
      | .error st => .error (st, 0)
      | .ok bs =>
        let es := (List.range n).map fun i =>
          let x := fun k => manWord bs (64 + 32 * i + 8 * k)
          ({ w0 := x 0, w1 := x 1, w2 := x 2, w3 := x 3, captured := false, resent := false, sealedOk := false, stageOff := 0,
             crc := 0#32 } : MapEntry)
        if es.all (mapEntryOk s a bank) && mapApart es then .ok (placeEntries es []) else .error (.ctMapInvalid, 0)

/-- The CONTRAIL section (R238). -/
def admitContrail (a : Adm) (s : State) : Except Bad State :=
  if !a.m.has 4 then .ok s
  else do
    let held := (s.lrn.ctxs.filter fun c => decide (c.2.part = a.p)).length
    let n ← match freeKey s.lrn.ctxs 256 with
      | some k => if ptFld (ptEntry s a.p) 14 8 0 ≤ held then .error (.ctNoContext, 0) else .ok k
      | none => .error (.ctNoContext, 0)
    let bad := Status.ctManifestInvalid
    let model := (a.model s 2).map fun x => x.2.epoch0
    must ((a.m.word 4 0).isSome || model.isSome) .manInvalid (a.m.at_ 4)
    let epoch := a.m.numOr 4 0 (model.getD 0)
    let bank := a.m.numOr 4 1 0
    let lead := a.m.numOr 4 5 0
    let timeout := a.m.numOr 4 6 0
    must (decide (epoch + 2 ≤ 2 ^ 48) && decide (64 ≤ bank) && decide (bank ≤ 32768) && decide (bank % 64 = 0)
      && decide (lead ≤ 64) && (decide (a.packages.length = 1) || decide (2 ≤ lead)) && decide (1 ≤ timeout)
      && decide (timeout ≤ 65535)) bad 0
    let regions := fun (key cls : Nat) => (a.dies a.rank cls).map fun d => (d, nums ((a.m.elem 4 key 1 (64 * a.rank + d)).getD []))
    let stage := regions 3 1
    let copy := regions 4 0
    must (stage.all fun x => decide (x.2.length = 1)) .manInvalid (a.m.place 4 3)
    must (copy.all fun x => decide (x.2.length = 1)) .manInvalid (a.m.place 4 4)
    must (stage.all (fun x => dieRegion s a (x.2.getD 0 0) 3 x.1 0)
      && copy.all fun x =>
        dieRegion s a (x.2.getD 0 0) 3 x.1 (1280 * bank * ((a.ofClass a.rank 0).filter fun c => decide (clDie c = x.1)).length))
      bad 0
    let es ← readMap s a bank (a.m.numOr 4 2 0)
    let c : Ctx :=
      { job := a.j, part := a.p, activeBank := 0, inactiveInvalid := true, phase := .idle, epochActive := epoch,
        epochPending := 0, lastStatus := .ok, switchTick := 0, lastEpoch := epoch, exhausted := false, ticks := 0, pubFrom := [],
        sealFrom := [], startTick := 0, pubTick := 0, capTick := 0, activeCap := 0, bankBytes := bank, switchLead := lead,
        timeout := timeout, stage := stage.map fun x => (x.1, homeRd x.1, x.2.getD 0 0),
        copy := copy.map fun x => (x.1, homeRd x.1, x.2.getD 0 0), entries := es }
    pure (modJob a.j (fun x => { x with ctx := some n }) { s with lrn := { s.lrn with ctxs := tabIns n c s.lrn.ctxs } })

/-! ## SQUALL (R318, R327) -/

/-- Members of a group in rank order: package rank and cluster. -/
def membersOf (a : Adm) (g : Nat) : List (Nat × Nat) := ((a.m.list 5 1 g).getD []).map clusterWord

/-- A value that the section gives for each group. -/
def groupNum (a : Adm) (key g : Nat) : Nat := ((a.m.elem 5 key 1 g).map fun l => (l.headD 0#64).toNat).getD 0

/-- A group keeps R327. -/
def groupKeeps (s : State) (a : Adm) (g : Nat) : Bool :=
  let ms := membersOf a g
  let scratch := nums ((a.m.list 5 4 g).getD [])
  let most := groupNum a 2 g
  decide (2 ≤ ms.length) && decide (ms.length ≤ 65536) && decide (ms.Nodup)
    && (ms.all fun m => decide (m.1 < a.packages.length) && (a.clusters m.1).any fun c => decide (c.1 = m.2))
    && decide (4096 ≤ most) && decide (most + 4096 ≤ 2 ^ 32) && decide (most % 4096 = 0) && decide (8 ≤ groupNum a 3 g)
    && decide (groupNum a 3 g ≤ 256) && decide (scratch.length = ms.length)
    && (ms.zip scratch).all fun x =>
      decide (x.1.1 ≠ a.rank) || dieRegion s a x.2 4 (clDie x.1.2) (most + 4 * ms.length)

/-- Classes whose lanes an admission needs (R318, log 40). -/
def lanesNeeded (a : Adm) : List Nat :=
  ((a.clusters a.rank).map (·.2)) ++ (if 1 ≤ a.m.numOr 5 0 0 then [4] else []) ++ (if a.m.has 4 then [3] else [])
    ++ (if a.m.has 6 then [5] else []) ++ (if a.m.has 7 then [6] else [])

/-- Classes whose prefetch lists name a source on another package (R173, R318). -/
def farClasses (s : State) (a : Adm) : List Nat :=
  ((getJob s a.j).map (·.prefetch)).getD [] |>.filterMap fun l => match prefetchWords s a.p l.1 l.2.2 with
    | .ok (_, es) => if es.any fun e => decide (fld (e.getD 0 0#64) 63 61 = 4) then some l.2.1 else none
    | .error _ => none

/-- Whether a lane of a partition carries anything (R318, R319). -/
def laneCarries (e : BitVec 1024) (cls : Nat) (wide : Bool) : Bool :=
  (if cls = 3 then decide (1 ≤ ptFld e 8 9 0) else decide (1 ≤ ptSlots e cls)) && (!wide || decide (1 ≤ ptXslots e cls))

/-- Groups of the jobs of a partition with a member on this package. -/
def groupsHeld (s : State) (p : Nat) : Nat :=
  ((partJobs s p).map fun j => (j.2.groups.filter fun g => g.2.members.any fun m => decide (m.1 = j.2.rank)).length).sum

/-- The SQUALL section (R327). -/
def admitSquall (a : Adm) (s : State) : Except Bad State := do
  let n := if a.m.has 5 then a.m.numOr 5 0 0 else 0
  let gs := (List.range n).map (· + 1)
  must (decide (n ≤ 4095)) .sqManifestInvalid 0
  must (gs.all fun g => (a.m.list 5 1 g).isSome && (a.m.elem 5 2 1 g).isSome && (a.m.elem 5 3 1 g).isSome && (a.m.list 5 4 g).isSome)
    .manInvalid (a.m.at_ 5)
  must (gs.all (groupKeeps s a)) .sqManifestInvalid 0
  let e := ptEntry s a.p
  let wide := decide (2 ≤ a.packages.length)
  must ((lanesNeeded a).all fun c => laneCarries e c (((farClasses s a).contains c) || (wide && !(decide (c < 3))))) .sqNoLane 0
  let local_ := gs.filter fun g => (membersOf a g).any fun m => decide (m.1 = a.rank)
  must (decide (groupsHeld s a.p + local_.length ≤ ptFld e 9 35 23)) .sqNoGroup 0
  let entry := fun (g : Nat) =>
    ({ members := membersOf a g, maxBytes := groupNum a 2 g, window := groupNum a 3 g,
       scratch := ((membersOf a g).zip (nums ((a.m.list 5 4 g).getD []))).map fun x => (clRd x.1.2, x.2), seqs := [],
       tileSeqs := [], aborted := [] } : SqGroup)
  pure (modJob a.j (fun x => { x with groups := gs.map fun g => (g, entry g) }) s)

end Sys2Proof.Machine
end

