-- ==== Sys2Proof/Machine/Joining.lean ====
section
/-!
DEFINITION. Admission, concluded: the AFTERGLOW and HORIZON sections (R341, R382), the filling of the job's lane stores
(R257, R263), and a manifest's admission as a whole (R395).
-/

namespace Sys2Proof.Machine

/-! ## AFTERGLOW (R341, R343, R352, R353, R362) -/

/-- An empty slot. -/
def emptySlot (rd h : Nat) : SlotSt := ⟨rd, h, .empty, false, 0, 0, 0, 0, 0, 0⟩

/-- Least bytes of a die's drain image (R352). -/
def drainSize (s : State) (j die : Nat) : Nat :=
  393216 + 4194304 * (learnUnits s j die).length + ((momentLens s j die).map fun n => drainedLength (n / 128)).sum + stratusLen s j die

/-- A die's slots keep R341, R343 and R352. -/
def slotsOk (s : State) (a : Adm) (die : Nat) (hs : List Nat) : Bool :=
  let n := (slotBlocks s a.j die).length
  decide (n ≤ 1048576) && dieRegion s a (hs.getD 0 0) 5 die (65536 * n) && dieRegion s a (hs.getD 1 0) 5 die (65536 * n)
    && dieRegion s a (hs.getD 2 0) 5 die (drainSize s a.j die) && decide ((hs.take 3).Nodup)

/-- Bytes of the context region of a class on a die (R341). -/
def ctxRegSize (s : State) (a : Adm) (die cls : Nat) : Nat :=
  let pages := match getJob s a.j with
    | some x => (x.clusters.zip x.poolPages).filterMap fun (c : (Nat × Nat) × Nat) =>
        if c.1.2 = cls ∧ clDie c.1.1 = die then some (1114112 + 4096 * c.2) else none
    | none => []
  4096 + pages.sum + if cls = 1 then 262144 else 0

/-- Classes that a job holds on a die of this package, ascending. -/
def dieClasses (a : Adm) (die : Nat) : List Nat :=
  (List.range 7).filter fun cls => (a.ofClass a.rank cls).any fun c => decide (clDie c = die)

/-- Context regions: die, class, handle. -/
def ctxRegs (a : Adm) : List (Nat × Nat × Option Nat) :=
  let dies := (a.clusters a.rank).foldl (fun l c => setIns (clDie c.1) l) []
  dies.flatMap fun d =>
    let hs := (a.m.list 6 2 (64 * a.rank + d)).getD []
    (dieClasses a d).zipIdx.map fun c => (d, c.1, (hs[c.2]?).map (·.toNat))

/-- BUDDY of a member: rank of its buddy, and the buddy-slot handles of its learner dies in ascending die. -/
def buddyOf (a : Adm) (r : Nat) : Nat × List (Nat × Nat × Nat) :=
  let ws := nums ((a.m.list 6 3 r).getD [])
  (ws.headD r, (a.dies r 1).zipIdx.map fun d => (d.1, ws.getD (1 + 2 * d.2) 256, ws.getD (2 + 2 * d.2) 256))

/-- Members' buddies keep R353; a job of one package has none, and drains never (log 41). -/
def buddiesOk (s : State) (a : Adm) : Bool :=
  if a.packages.length = 1 then decide ((a.m.items 6 3).length = 0) && decide (a.m.numOr 6 4 0 = 0)
  else a.ranks.all fun r =>
    let b := buddyOf a r
    decide (b.1 ≠ r) && decide (b.1 < a.packages.length)
      && (decide (b.1 ≠ a.rank) || b.2.all fun d =>
        let rd := homeRd d.1
        decide (d.2.1 < 256) && decide (d.2.2 < 256) && decide (d.2.1 ≠ d.2.2) && ownRegion s a rd d.2.1 5 (56 + rd) 0
          && ownRegion s a rd d.2.2 5 (56 + rd) 0)

/-- Buddy-slot pairs that this package holds for the dies of other members. -/
def buddiesHere (a : Adm) : List Buddy :=
  a.ranks.flatMap fun r =>
    let b := buddyOf a r
    if b.1 = a.rank ∧ r ≠ a.rank then
      b.2.map fun d => ⟨a.packages.getD r 0, d.1, emptySlot (homeRd d.1) d.2.1, emptySlot (homeRd d.1) d.2.2⟩
    else []

/-- CHECKPOINT: the MODEL_ID, 0 for none. -/
def checkpointOf (a : Adm) : Nat := match a.m.list 6 7 0 with
  | some (lo :: hi :: _) => lo.toNat + hi.toNat * 2 ^ 64
  | some [lo] => lo.toNat
  | _ => 0

/-- The shards that a library entry of kind 3 holds: DIE and the bytes, from its region (R251, R362, log 41). -/
def libShards (s : State) (l : Lib) : List (Nat × List Byte) :=
  match regionOf s l.rd l.region with
  | none => []
  | some e =>
    let so := fld (regionWord s l.rd e 40) 47 0
    (cutShards (shardsOf (regionBytes s l.rd e 0 so) l.rank) (regionBytes s l.rd e (so + 128) l.bytes)).map fun x => (x.1.2.1, x.2)

/-- The job starts from a checkpoint (R362): each die's shard becomes slot A, and the job is held while it is restored. -/
def startCheckpoint (a : Adm) (s : State) : Except Bad State :=
  let id := checkpointOf a
  if id = 0 then .ok s
  else match findLib s a.p (id, 3) with
    | none => .error (.ctModelAbsent, 0)
    | some (i, l) =>
      if 255 ≤ l.inUse then .error (.ctModelInUseMax, 0)
      else if some l.placement ≠ (getJob s a.j).map (·.placement) then .error (.agShapeMismatch, 0)
      else
        let dies := a.dies a.rank 1
        let shards := libShards s l
        let img := fun (d : Nat) => (shards.find? fun x => decide (x.1 = d)).map (·.2)
        if dies.any fun d => decide ((img d).map List.length ≠ some (drainSize s a.j d)) then .error (.agShapeMismatch, 0)
        else
            let s1 := forEach dies (fun d t => expandInto a.j d ((img d).getD []) t) (useLib a.p i a.j s)
            let cut := (((agOf s1 a.j).map fun x => (x.2.dies.map fun d => d.slotA.cut).foldl max 0)).getD 0
            let s2 := enterRestore a.j none (some cut) (modJobAg a.j (fun x => { x with cutSeq := cut, cutDue := false })
              (modJob a.j (fun x => { x with held := true }) s1))
            match agOf s2 a.j with
            | some (_, b) => .ok (refillLearn a.j b s2)
            | none => .ok s2

/-- Units of this package that the publish map names, by cluster: the only logical units that a manifest names (log 41). -/
def unitsNamed (s : State) (j : Nat) : List (Nat × Nat) := match jobCtx s j with
  | some c => (localSources s c).map (fun e => (e.srcCl, e.srcUnit)) ++ (localDests s c).map fun e => (e.dstCl, e.dstUnit)
  | none => []

/-- The AFTERGLOW section (R341). -/
def admitAfterglow (a : Adm) (s : State) : Except Bad State :=
  if !a.m.has 6 then .ok s
  else do
    let held := (s.lrn.ags.filter fun c => decide (c.2.part = a.p)).length
    let n ← match freeKey s.lrn.ags 256 with
      | some k => if ptFld (ptEntry s a.p) 14 17 9 ≤ held then .error (.agNoContext, 0) else .ok k
      | none => .error (.agNoContext, 0)
    let bad := Status.agManifestInvalid
    let num := fun k => a.m.numOr 6 k 0
    must (decide (num 0 ≤ 3) && decide (num 4 ≤ 65535) && decide (1 ≤ num 5) && decide (num 5 ≤ 64) && decide (1 ≤ num 6)
      && decide (num 6 ≤ 65535)) bad 0
    let slots := (a.dies a.rank 1).map fun d => (d, nums ((a.m.elem 6 1 3 (64 * a.rank + d)).getD []))
    must (slots.all fun x => decide (x.2.length = 3)) .manInvalid (a.m.place 6 1)
    must ((ctxRegs a).all fun x => x.2.2.isSome) .manInvalid (a.m.place 6 2)
    must (decide (a.packages.length = 1) || a.ranks.all fun r => (a.m.list 6 3 r).isSome) .manInvalid (a.m.place 6 3)
    must (slots.all (fun x => slotsOk s a x.1 x.2)
      && (ctxRegs a).all (fun x => dieRegion s a (x.2.2.getD 256) x.2.1 x.1 (ctxRegSize s a x.1 x.2.1)) && buddiesOk s a) bad 0
    must (!a.spares || (unitsNamed s a.j).all fun x => decide (x.2 < enabledCount s x.1)) .agSpareUnfit 0
    let c : AgCtx :=
      { job := a.j, part := a.p, service := num 0, state := .running, copyOpen := false, narrowing := false, draining := false,
        lastStatus := .ok, newestCut := 0, newestJ := 0, recoveryCut := 0, cutSeq := 0, copyFrom := 0, copyTicksMax := num 5,
        drainEvery := num 4, drainFrom := 0, drainCut := 0, drainTicksMax := num 6, drainSeen := 0, drainAt := none,
        cutDue := true, rollbackTo := none, restoreCut := none, refilling := false, holdDue := false, preemptAsked := false,
        releaseDue := false, resumeTick := none, busy := false,
        dies := slots.map fun x =>
          let e := fun i => emptySlot (homeRd x.1) (x.2.getD i 0)
          { die := x.1, slotA := e 0, slotB := e 1, drainImage := e 2, drift := [], copying := false, closed := false,
            narrowed := false },
        buddies := buddiesHere a, buddyPkg := a.packages.getD (buddyOf a a.rank).1 0, restored := [], buddySeals := [], saved := [],
        ctxReg := (ctxRegs a).map fun x => (x.1, x.2.1, x.2.2.getD 0), sealFrom := [], closedFrom := [], narrowedFrom := [],
        lostPkg := none }
    startCheckpoint a (modJob a.j (fun x => { x with ag := some n }) { s with lrn := { s.lrn with ags := tabIns n c s.lrn.ags } })

/-! ## HORIZON (R382) -/

/-- The entries of the HORIZON section, in the order of their items. -/
def hzEntries (a : Adm) : List (List Nat) := (a.m.items 7 0).map fun i => nums i.words

/-- An entry as the job binds it. -/
def hzBindOf (s : State) (e : List Nat) : HzBind :=
  let c := clusterWord (BitVec.ofNat 64 (e.getD 1 0))
  ⟨e.getD 0 0, 2048 * c.1 + c.2, e.getD 2 0, 256 * clRd c.2 + e.getD 3 0, (getStream s (e.getD 0 0)).obsBytes⟩

/-- Bytes of an observation region that the streams of this package's clusters need (R382). -/
def obsRoom (bs : List HzBind) (region : Nat) : Nat :=
  ((bs.filter fun b => decide (b.region = region)).map fun b => 2 * (32 + b.obs)).sum

/-- Fields of an entry (R382). -/
def hzEntryOk (s : State) (a : Adm) (bs : List HzBind) (e : List Nat) : Bool :=
  let c := clusterWord (BitVec.ofNat 64 (e.getD 1 0))
  decide (e.length = 4) && decide (e.getD 0 0 < 4096) && decide (c.1 < a.packages.length)
    && ((a.clusters c.1).any fun x => decide (x.1 = c.2)) && decide (1 ≤ e.getD 2 0) && decide (e.getD 2 0 ≤ 63)
    && decide (e.getD 3 0 < 256)
    && (decide (c.1 ≠ a.rank) || match regionOf s (clRd c.2) (e.getD 3 0) with
        | some r => decide (r.job = a.j) && decide (r.cls = 6) && !r.sealed
            && decide (obsRoom (bs.filter fun b => decide (b.cluster / 2048 = a.rank)) (256 * clRd c.2 + e.getD 3 0) ≤ r.len)
        | none => false)

/-- Whether a stream is one that a job of this package may serve: LIVE, of the partition, not served, and not moving to
WINDING at the boundary that ends the tick (R382, R384). -/
def streamFree (s : State) (p i : Nat) : Bool :=
  let x := getStream s i
  decide (x.state = .live) && decide (x.part = p) && x.served.isNone && x.bindDue.isNone
    && !x.closeDue && !x.limitDue

/-- Whether an entry is BUSY here. In a job that spans packages a stream that is not LIVE for the partition on this package
is taken for another member's (log 32). -/
def streamBusy (s : State) (a : Adm) (i : Nat) : Bool :=
  let x := getStream s i
  if a.packages.length = 1 then !streamFree s a.p i
  else decide (x.state = .live) && decide (x.part = a.p) && !streamFree s a.p i

/-- The HORIZON section (R382): the streams are bound at the boundary that ends the admission tick. -/
def admitHorizon (a : Adm) (s : State) : Except Bad State :=
  if !a.m.has 7 then .ok s
  else do
    let es := hzEntries a
    let bs := es.map (hzBindOf s)
    must (decide ((bs.map (·.stream)).Nodup) && es.all (hzEntryOk s a bs)) .hzManifestInvalid 0
    must (bs.all fun b => !streamBusy s a b.stream) .hzStreamBusy 0
    pure (forEach (bs.filter fun b => streamFree s a.p b.stream) (fun b t => modStream b.stream (fun x => { x with bindDue := some a.j }) t)
      (modJob a.j (fun x => { x with streams := bs }) s))

/-! ## Filling the lane stores (R92, R257, R263) -/

/-- KIND of the model that fills a class: teacher for TEACH, learner weights for LEARN, generator weights for GEN. -/
def kindOf : Nat → Option Nat
  | 0 => some 2
  | 1 => some 1
  | 2 => some 0
  | _ => none

/-- Bytes that a unit takes in a shard (log 34). -/
def unitImage (s : State) (cl : Nat) : Nat := match bankOf s cl with
  | some (size, _) => 80 * size
  | none => 5242880

/-- Format code of an image's weights: FMT of its first layer. -/
def libFmt (s : State) (l : Lib) : Nat := match regionOf s l.rd l.region with
  | some e => fld (regionWord s l.rd e 64) 19 16
  | none => 5

/-- A cluster of the job without an image gets its new epoch: AVAILABLE units take it at once; units that are STALE, and those
whose stores slept, are checksummed first (R92). -/
def plainCluster (slept : Bool) (cl : Nat) (s : State) : State :=
  let e := nextEpoch (getCl s cl).epoch
  forEach (List.range 8) (fun i t => modUnit (8 * cl + i) (fun u =>
    if u.logical < 8 then
      let fresh := { u with source := copySource s cl u.logical, written := false, acc := none }
      match u.state with
      | .available =>
        if slept then { fresh with state := .stale, refill := some (Refill.waiting false) } else { fresh with epoch := e }
      | .stale => { fresh with refill := some (Refill.waiting false) }
      | _ => fresh
    else u) t) (modCl cl (fun c => { c with epoch := e }) s)

/-- Fills the clusters of a class from the image of its kind, unit after unit as the shard holds them (R257, log 34). -/
def fillClass (a : Adm) (cls : Nat) (s : State) : State :=
  let cls' := a.ofClass a.rank cls
  let plain := fun (t : State) => forEach cls' (fun cl u => plainCluster (decide ((getCl u cl).pm = .dusk)) cl u) t
  match (kindOf cls).bind (a.model s) with
  | none => plain s
  | some (i, l) =>
    let so := match regionOf s l.rd l.region with
      | some e => fld (regionWord s l.rd e 40) 47 0
      | none => 0
    let fmt := libFmt s l
    let units := cls'.flatMap fun cl => (List.range (enabledCount s cl)).map fun u => (cl, u)
    let size := (cls'.head?.map (unitImage s)).getD 0
    forEach cls' (fun cl t =>
      let src := fun u =>
        let k := (units.findIdx? fun x => decide (x = (cl, u))).getD 0
        if size * (k + 1) ≤ l.bytes then Source.library a.p (i % 64) (so + 128 + size * k) else copySource s cl u
      let t1 := renewCluster cl src t
      forEach (List.range 8) (fun n v => modUnit (8 * cl + n) (fun x => { x with wfmt := fmt }) v) t1) s

/-- Whether every unit that the shard of a class begins has its column checksums in it: a tile without them is rejected
(R79, log 34). -/
def checksumsWhole (a : Adm) (s : State) (cls : Nat) : Bool :=
  match (kindOf cls).bind (a.model s) with
  | none => true
  | some (_, l) =>
    let cls' := a.ofClass a.rank cls
    let size := (cls'.head?.map (unitImage s)).getD 0
    (List.range ((cls'.map (enabledCount s)).sum)).all fun k =>
      decide (l.bytes ≤ size * k) || decide (size * k + size / 10 * 9 ≤ l.bytes)

/-- The classes whose lane stores are filled at admission: a restored checkpoint has its own source (R263). -/
def filledClasses (a : Adm) (s : State) : List Nat :=
  let restoring := match agOf s a.j with
    | some (_, x) => decide (x.state = .restoring)
    | none => false
  (List.range 7).filter fun c => !(restoring && decide (c = 1))

/-- Fills the lane stores of a job and wakes its clusters (R263, R438). -/
def fillJob (a : Adm) (s : State) : State :=
  let s1 := forEach (filledClasses a s) (fillClass a) s
  forEach (a.clusters a.rank) (fun c t => modCl c.1 (fun x => { x with pm := .clear, wakeAt := 0, sleep := none }) t) s1

/-! ## Admission (R395, R435) -/

/-- Bytes of a section of a manifest. -/
def Man.section_ (m : Man) (i : Nat) : List Byte :=
  let w := manWord m.bytes (64 + 8 * i)
  (m.bytes.drop (fld w 31 0)).take (fld w 63 32)

/-- PLACEMENT: the first 64 bits of the SHA-384 of the LEARN and UPDATE sections (R362). -/
def placementOf (m : Man) : W64 := BitVec.ofNat 64 (leNat ((sha384 (m.section_ 2 ++ m.section_ 3)).take 8))

/-- Every check and reservation of an admission in R395's order; a failed one leaves nothing (R167). -/
def admitAll (a : Adm) (s : State) : Except Bad State := do
  requiredOk a.m
  let s1 ← admitClusters a s
  let s2 ← admitMemory a (clearPools a (modJob a.j (fun x => { x with placement := placementOf a.m }) s1))
  let s3 ← admitCirrus a s2
  let s4 ← loadTables a (a.rows 5 3) s3
  let s5 ← loadVector a s4
  must ((a.m.items 0 10).all fun i => decide (i.words.length % 3 = 0)) .manInvalid (a.m.place 0 10)
  let s6 ← takeModels a a.models s5
  let s7 ← admitGen a s6
  let s8 ← admitLearn a s7
  let s9 ← admitUpdate a s8
  let s10 ← admitContrail a s9
  let s11 ← admitSquall a s10
  let s12 ← admitAfterglow a s11
  let s13 ← admitHorizon a s12
  must ((filledClasses a s13).all (checksumsWhole a s13)) .ckNoChecksum 0
  pure (fillJob a s13)

/-- MT_STRATUS peaks of the job's learner dies begin anew (R293). -/
def clearPeaks (a : Adm) (s : State) : State :=
  { s with lrn := { s.lrn with stratusPeak := (a.dies a.rank 1).foldl (fun t d => tabIns d (0, 0) t) s.lrn.stratusPeak } }

/-- Sets WN_JOB_STATUS of a view: LAST, JOB, ITEM (R428). -/
def setJobStatus (view : Nat) (st : Status) (j item : Nat) (s : State) : State :=
  modView view (fun x => { x with jobStatus := (st, j, item) }) (fun x => { x with jobStatus := (st, j, item) }) s

/-- The members of a job have all admitted the same manifest: it runs from the intake edge of tick `t` on (R435). A job that
restores a checkpoint stays held until its members resume. -/
def startJob (j t : Nat) (s : State) : State :=
  let restoring := match agOf s j with
    | some (_, x) => decide (x.state ≠ .running)
    | none => false
  bump .ptAdmitted (jobPart j) (modJob j (fun x => { x with held := restoring, firstTick := t }) s)

end Sys2Proof.Machine
end

