-- ==== Sys2Proof/Machine/Jobs.lean ====
section
/-!
DEFINITION. Jobs (R34, R395, R396, R435): submissions and their admission, the end of a job, and the CTRL-lane reports of
other member packages (R318).
-/

namespace Sys2Proof.Machine

/-! ## The end of a job (R396) -/

/-- The records that a job's output ring still owes: those that wait, the ACKs and the ENDs (R202). -/
def GenSt.owed (g : GenSt) : List RingRec :=
  (g.wait.filterMap fun w => match w with
    | .record r => some r
    | .token _ => none) ++ g.acks ++ g.ends

/-- END records of a job's live requests, written to its rings with what they still owe before their regions are released (R191,
R227, R396), on a full ring too (DESIGN CHOICE, log 105). -/
def closeRequests (j : Nat) (st : Status) (s : State) : State :=
  let ids := (s.gen.reqs.filter fun r => decide (r.job = j) && r.ended.isNone).map fun r => (r.part, r.id)
  let s1 := forEach ids (fun r t => endReq r.1 r.2 .failed 0 st true t) s
  match genOf s1 j with
  | none => flushExpEnds j s1
  | some g => flushExpEnds j (forEach g.owed (ringPut (jobPart j) j) (modGen j (fun x => { x with wait := [], acks := [], ends := [] }) s1))

/-- Takes a job's uses of library entries back (R257). -/
def dropLibs (x : Job) (s : State) : State :=
  forEach x.libs (fun l t => match tabFind (64 * l.1 + l.2) t.lrn.libs with
    | some y => { t with lrn := { t.lrn with libs := tabIns (64 * l.1 + l.2) { y with inUse := y.inUse - 1 } t.lrn.libs } }
    | none => t) s

/-- Releases a job's clusters: pools zeroed, engines at rest; a cluster that slept stays at Dusk, the others go to Mist
(R103, R396, R438). -/
def releaseClusters (j : Nat) (s : State) : State :=
  forEach ((allClusters s j).filter fun cl => decide ((getCl s cl).owner.map (·.2.2) = some j)) (fun cl t =>
    modCl cl (fun c => { c with pm := if c.pm = .fog ∨ c.pm = .dusk then .dusk else .mist, wakeAt := 0 })
      (freeCluster cl (zeroMem (poolKey cl 0) 0x400000 t))) s

/-- Releases everything that a job holds and frees its handle (R396, steps 4 to 6). -/
def dropJob (j : Nat) (s : State) : State :=
  match getJob s j with
  | none => s
  | some x =>
    let s1 := dropLibs x (hzRelease j s)
    let cls := (allClusters s1 j).filter fun cl => decide ((getCl s1 cl).owner.map (·.2.2) = some j)
    let pages := (s1.gen.pages.filter fun p => decide (p.2.job = j)).map (·.1)
    let bare := forEach (s1.gen.nodes.filter fun n => pages.contains n.2.page) unlinkNode s1
    let gen := { bare.gen with reqs := s1.gen.reqs.filter (fun r => decide (r.job ≠ j)),
                               pages := s1.gen.pages.filter fun p => decide (p.2.job ≠ j) }
    let lrn := { s1.lrn with ctxs := s1.lrn.ctxs.filter (fun c => decide (c.2.job ≠ j)),
                             ags := s1.lrn.ags.filter (fun c => decide (c.2.job ≠ j)),
                             rings := s1.lrn.rings.filter (fun r => decide (r.2.job ≠ j)),
                             stratus := s1.lrn.stratus.filter fun e => !cls.contains (e.1 / 64) }
    let sq := { s1.sq with colls := s1.sq.colls.filter (fun c => decide (c.job ≠ j)),
                           tiles := s1.sq.tiles.filter fun t => decide (t.head.job ≠ j) }
    let s2 := { s1 with gen := gen, lrn := lrn, sq := sq }
    let s3 := releaseClusters j s2
    let s4 := forEach (s3.mt.regions.filter fun r => decide (r.2.job = j)) (fun r t => freeRegion (r.1 / 256) (r.1 % 256) t) s3
    { s4 with jobs := tabDel j s4.jobs }

/-- Counter of an end. -/
def endCounter : JobEnd → Ctr
  | .completed => .ptCompleted
  | .faulted => .ptFaulted
  | .tornDown => .ptTornDown

/-- The end of one job at a boundary (R396); the members on other packages hear of it. -/
def endJob (j : Nat) (s : State) : State :=
  match getJob s j with
  | none => s
  | some x => match x.ending with
    | none => s
    | some (e, st) =>
      let s1 := castCtrl j (.memberEnded j) (forEach (s.sq.colls.filter fun c => decide (c.job = j))
        (fun c t => beginAbort j c.group c.seq .sqMemberFailed t) (sweepColls s))
      let s2 := forEach ((allClusters s1 j).filter fun cl => decide ((getCl s1 cl).owner.map (·.2.2) = some j))
        (resetCluster .tornDown) s1
      let s3 := closeRequests j (if e = .faulted then st else .tornDown) s2
      bump (endCounter e) x.part (dropJob j s3)

/-- Every job whose end is decided ends (R31, step 2). -/
def endJobs (s : State) : State := forEach (s.jobs.map (·.1)) endJob s

/-- DIE_FAULT (R34): every job with a cluster on the die falls. -/
def dieFault (die : Nat) (s : State) : State :=
  forEach ((s.jobs.map (·.1)).filter fun j => ((getJob s j).map fun x => x.clusters.any fun c => decide (clDie c.1 = die)).getD false)
    (fun j t => decideEnd j .tornDown .tornDown t) s

/-- JOB_END and KILL (R396, R401): JOB_END needs rights over the job's partition, KILL package rights. -/
def jobEndReq (who : Who) (j : Nat) (e : JobEnd) (s : State) : Wr :=
  if !(if e = .tornDown then packageRights s who else rightsOver s who (jobPart j)) then ptAnswer who .ptDenied s
  else if (getJob s j).isNone ∨ ptValid (ptEntry s (jobPart j)) = false then ptAnswer who .ptReqInvalid s
  else ptAnswer who .ok (decideEnd j e .ok s)

/-! ## Submissions (R428, R435) -/

/-- A pending submission of a view. -/
def submitOf (s : State) (view : Nat) : Option (W64 × Nat) := if view < 16 then (getPart s view).submit else s.wn.submit

/-- Puts it. -/
def putSubmit (view : Nat) (x : Option (W64 × Nat)) (s : State) : State :=
  modView view (fun y => { y with submit := x }) (fun y => { y with submit := x }) s

/-- A write to WN_JOB_SUBMIT (R435). -/
def submitReq (who : Who) (v : W64) (s : State) : Wr :=
  let view := viewOf s who
  if 16 < view then Wr.no .wnDenied s
  else if view < 16 ∧ ptValid (ptEntry s view) = false then Wr.no .ptDenied (setJobStatus view .ptDenied 0 0 s)
  else if (submitOf s view).isSome then Wr.no .manBusy (setJobStatus view .manBusy 0 0 s)
  else Wr.part (decide (fld v 63 40 ≠ 0)) 1 (Wr.ok (putSubmit view (some (v, s.tk.tick)) s))

/-- The bytes of a manifest where a submission of a view points: its region lies with the application cores of the
partition (R435). -/
def manBytes (s : State) (view : Nat) (v : W64) : Except Bad (List Byte) :=
  let rd := fld v 2 0
  let h := fld v 10 3
  let off := 4096 * fld v 39 11
  match regionOf s rd h with
  | none => .error (.mtAddrInvalid, 0)
  | some e =>
    if e.owner < 56 ∨ (view < 16 ∧ e.part ≠ view) then .error (.mtNotOwner, 0)
    else if e.len < off + 128 then .error (.mtAddrInvalid, 0)
    else match readPlace s ⟨rd, h, off⟩ 16 with
      | .error st => .error (st, 0)
      | .ok hd =>
        let n := fld (manWord hd 8) 20 0
        let p := fld (manWord hd 8) 24 21
        if n < 128 ∨ 1048576 < n then .error (.manInvalid, 0)
        else if e.part ≠ (if view < 16 then view else p) then .error (.mtNotOwner, 0)
        else if e.len < off + n then .error (.mtAddrInvalid, 0)
        else match readPlace s ⟨rd, h, off⟩ n with
          | .error st => .error (st, 0)
          | .ok bs => .ok bs

/-- Admission of the manifest that a view has submitted: the handle and the state, or the refusal. -/
def admitManifest (view : Nat) (v : W64) (s : State) : Except Bad (Nat × State) := do
  must s.wn.pkgNext.isNone .wnPkgBusy 0
  let bs ← manBytes s view v
  let p := if view < 16 then view else fld (manWord bs 8) 24 21
  must (ptValid (ptEntry s p)) .ptDenied 0
  let m ← manOf p bs
  let i := freeIndex s p 4095 (getPart s p).nextJob
  let me := (((m.list 0 0 0).getD []).findIdx? fun k => decide (k.toNat = s.wn.pkg)).getD 0
  let a : Adm := ⟨m, p, 4096 * p + i, me, fld v 2 0⟩
  let s1 ← admitAll a s
  let s2 := modPart p (fun x => { x with nextJob := i % 4095 + 1 }) (clearPeaks a s1)
  if a.packages.length = 1 then pure (a.j, startJob a.j (s.tk.tick + 1) s2)
  else pure (a.j, castCtrl a.j (.manifest a.j s.wn.pkg true) (modJob a.j (fun x => { x with held := true }) s2))

/-- A prefetch entry as a list holds it (R173), to be used in tick `due`. -/
def prefetchOf (due cls : Nat) (e : List W64) : Prefetch :=
  ⟨(e.getD 0 0#64).toNat, fld (e.getD 1 0#64) 15 0, fld (e.getD 1 0#64) 47 32, due, cls⟩

/-- Issues one entry of a die's list: it is in flight to its cluster, and an entry of TIER 4 asks the other package for its
lines as a MOVE does (R170, R174). -/
def issueEntry (j due cls die : Nat) (e : List W64) (s : State) : State :=
  let x := prefetchOf due cls e
  let cl := 32 * die + fld (e.getD 1 0#64) 20 16
  let s1 := modCl cl (fun c => { c with prefetch := c.prefetch ++ [x] }) s
  match tierAddr s die (BitVec.ofNat 64 x.src) with
  | some (.remote pkg rd _ _) =>
    sendMsg pkg 3 cls (56 + homeRd die) (56 + rd) ⟨j, 0, 0, die, cl % 32, 0, 0, 0, x.lines, x.dst, 0, true⟩ 
      (w64Bytes [BitVec.ofNat 64 x.src, BitVec.ofNat 64 x.lines]) s1
  | _ => s1

/-- The entries of one list that are used at the next tick's list tick are issued (R174). -/
def issueList (j due lt : Nat) (x : Job) (l : Nat × Nat × Nat) (s : State) : State :=
  match prefetchWords s x.part l.1 l.2.2 with
  | .error st => if fatalStatus st then faultJob j st (noteNear (32 * l.1) l.2.2 131136 s) else s
  | .ok (h, es) =>
    forEach (es.filter fun e => decide (fld (e.getD 1 0#64) 63 48 = lt % max 1 (fld h 31 16))) (issueEntry j due l.2.1 l.1) s

/-- The home rim dies' tier engines issue a job's entries for the next tick (R174). -/
def issuePrefetch (j : Nat) (s : State) : State :=
  match getJob s j with
  | none => s
  | some x =>
    if !jobIssues s j ∨ s.tk.tick + 1 < x.firstTick then s
    else forEach x.prefetch (issueList j (s.tk.tick + 1) (s.tk.tick + 1 - x.firstTick) x) s

/-- JOB_ADMIT (R395, R435): at the intake edge after the write the manifest is read, and admitted or refused. While a tick
setting waits for its boundary admissions are held (R25), and with component 5 down they wait (R418). -/
def admitView (view : Nat) (s : State) : State :=
  match submitOf s view with
  | none => s
  | some (v, t) =>
    if s.tk.phase ≠ .step ∨ s.tk.tick ≤ t ∨ s.tk.pending.isSome ∨ !compUp s 5 then s
    else
      let s1 := putSubmit view none s
      match admitManifest view v s1 with
      | .ok (j, s2) => setJobStatus view .ok j 0 (issuePrefetch j s2)
      | .error (st, item) => setJobStatus view st 0 item s1

/-- Every submission that is still due in a tick. -/
def admitDue (s : State) : State := forEach (List.range 17) admitView s

/-! ## CTRL-lane reports (R318, R435) -/

/-- The members differ: the job is refused here too (R435). -/
def refuseMismatch (j : Nat) (s : State) : State :=
  let views := (List.range 17).filter fun v =>
    decide ((if v < 16 then (getPart s v).jobStatus else s.wn.jobStatus).2.1 = j)
  forEach views (setJobStatus · .manMismatch 0 0) (dropJob j s)

/-- Another member has admitted the manifest. With every member's report the lead names the tick in which the job begins, two
ticks ahead (R240, R307, R435, log 38). -/
def holdAgreed (j pkg : Nat) (s : State) : State :=
  match getJob s j with
  | none => s
  | some x =>
    if x.agreed.contains pkg then s
    else
      let s1 := modJob j (fun y => { y with agreed := setIns pkg y.agreed }) (sendCtrl pkg (.manifest j s.wn.pkg true) s)
      if leadPkg s1 j = s.wn.pkg ∧ (otherPkgs s1 j).all (fun k => decide (k = pkg) || x.agreed.contains k) then
        startJob j (s.tk.tick + 2) (castCtrl j (.startAt j (s.tk.tick + 2)) s1)
      else s1

/-- SQ_CTRL_MSG: a CTRL-lane report reaches this package. -/
def ctrlIn (m : CtrlMsg) (s : State) : State :=
  match m with
  | .publishReport _ _ => contrailCtrl m s
  | .publishStart _ _ => contrailCtrl m s
  | .publishFailed _ _ _ => contrailCtrl m s
  | .sealReport _ _ => contrailCtrl m s
  | .switchAt _ _ => contrailCtrl m s
  | .updReport j pkg => holdDone j pkg s
  | .updNotice j t => noticeIn j t s
  | .cutReport j pkg cut => holdSeal j pkg cut s
  | .manifest j pkg same => if same then holdAgreed j pkg s else refuseMismatch j s
  | .cutComplete j cut step => modJobAg j (fun a =>
      if a.newestCut < cut then { a with newestCut := cut, newestJ := step } else a) s
  | .copyReport j pkg cut => modJobAg j (fun a =>
      { a with closedFrom := (pkg, cut) :: a.closedFrom.filter fun x => decide (x.1 ≠ pkg) }) s
  | .narrowReport j pkg cut => modJobAg j (fun a =>
      { a with narrowedFrom := (pkg, cut) :: a.narrowedFrom.filter fun x => decide (x.1 ≠ pkg) }) s
  | .buddySeal j pkg die cut => holdBuddy j pkg die cut s
  | .drainStart j cut t => modJobAg j (fun a => { a with drainAt := some (cut, t) }) s
  | .hold j lost cut shrink => holdIn j lost cut shrink s
  | .restoreReport j pkg => holdRestored j pkg s
  | .resumeAt j t => modJobAg j (fun a => { a with resumeTick := some t }) s
  | .startAt j t => match getJob s j with
    | some x => if x.firstTick = x.admitTick + 1 ∧ 1 < x.packages.length then startJob j t s else s
    | none => s
  | .memberEnded j => decideEnd j .tornDown .tornDown s

/-! ## The commands -/

/-- CT_LOAD_COMPLETE (R254). An admission that is due at the intake edge raises IN_USE before a load evicts (R260). -/
def execCtLoadComplete (p : Nat) (sigOk : Bool) (s : State) : Host.Outcome State Fault Refusal :=
  running s fun t => loadComplete p sigOk (if t.tk.phase = .step then admitDue t else t)

/-- SQ_CTRL_MSG (R318). -/
def execSqCtrlMsg (m : CtrlMsg) (s : State) : Host.Outcome State Fault Refusal := running s (ctrlIn m)

/-- JOB_END (R396). -/
def execJobEnd (who : Who) (j : Nat) (s : State) : Host.Outcome State Fault Refusal :=
  running s (writeCmd who .ptReq 0 0 (jobEndReq who j .completed))

/-- KILL (R396). -/
def execKill (who : Who) (j : Nat) (s : State) : Host.Outcome State Fault Refusal :=
  running s (writeCmd who .ptReq 0 0 (jobEndReq who j .tornDown))

/-- WN_JOB_SUBMIT (R435). -/
def execWnJobSubmit (who : Who) (v : W64) (s : State) : Host.Outcome State Fault Refusal :=
  running s (writeCmd who .wnJobSubmit 0 0 (submitReq who v))

/-- JOB_ADMIT (R395). -/
def execJobAdmit (view : Nat) (s : State) : Host.Outcome State Fault Refusal := running s (admitView view)

/-- DIE_FAULT (R34). -/
def execDieFault (die : Nat) (s : State) : Host.Outcome State Fault Refusal := running s (dieFault die)

end Sys2Proof.Machine
end

