-- ==== Sys2Proof/Machine/Window.lean ====
section
/-!
DEFINITION. What the register window shows and what a write to it does (R12, R23, R76, R99, R154, R183, R200, R225, R259,
R293, R312, R338, R364, R383, R394, R401, R425 to R428, R451, R458).
-/

namespace Sys2Proof.Machine

/-! ## Counters -/

/-- The counter that a register presents. -/
def Reg.ctr : Reg → Option Ctr
  | .tkOverrun => some .tkOverrun
  | .lwCirrusDefer => some .lwCirrusDefer
  | .lwCirrusMain => some .lwCirrusMain
  | .lwExcCount => some .lwExc
  | .ckRetried => some .ckRetried
  | .ckRelocated => some .ckRelocated
  | .ckTolData => some .ckTolData
  | .ckEccCorr => some .ckEccCorr
  | .vxAdvances => some .vxAdvances
  | .vxNormNonfinite => some .vxNormNonfinite
  | .smTokens => some .smTokens
  | .rgPinnedTiles => some .rgPinnedTiles
  | .kvPrefixHit => some .kvPrefixHit
  | .kvPrefixSkip => some .kvPrefixSkip
  | .kvEvict => some .kvEvict
  | .kvPageWait => some .kvPageWait
  | .ctPublishes => some .ctPublishes
  | .ctFailed => some .ctFailed
  | .ctSaturated => some .ctSaturated
  | .ctResent => some .ctResent
  | .ctHeld => some .ctHeld
  | .ctExpStale => some .ctExpStale
  | .ctExpWait => some .ctExpWait
  | .ctExpNoteach => some .ctExpNoteach
  | .ctExpNoreward => some .ctExpNoreward
  | .ctExpAnnotRej => some .ctExpAnnotRej
  | .sqInnet => some .sqInnet
  | .sqFallback => some .sqFallback
  | .sqAborts => some .sqAborts
  | .sqPoisons => some .sqPoisons
  | .sqRetrans => some .sqRetrans
  | .sqLinkErr => some .sqLinkErr
  | .agCuts => some .agCuts
  | .agSkipped => some .agSkipped
  | .agStalls => some .agStalls
  | .agDrains => some .agDrains
  | .agDrainSkipped => some .agDrainSkipped
  | .agRollbacks => some .agRollbacks
  | .hzHoldover => some .hzHoldover
  | .hzObsMissing => some .hzObsMissing
  | .hzObsSuperseded => some .hzObsSuperseded
  | .hzRxDrop => some .hzRxDrop
  | .ptAdmitted => some .ptAdmitted
  | .ptCompleted => some .ptCompleted
  | .ptFaulted => some .ptFaulted
  | .ptTornDown => some .ptTornDown
  | .scAuthFails => some .scAuthFails
  | .wnDiscards => some .wnDiscards
  | .wnRestarts => some .wnRestarts
  | .pmCapTicks => some .pmCapTicks
  | .pmThrottleTicks => some .pmThrottleTicks
  | .mtCorr => some .mtCorr
  | .mtUncorr => some .mtUncorr
  | .mtEdcRetry => some .mtEdcRetry
  | .mtPrefetchLate => some .mtPrefetchLate
  | _ => none

/-- Index of the counter of element `i`: WN_RESTARTS starts at component 1. -/
def Reg.ctrIdx (r : Reg) (i : Nat) : Nat := if r = .wnRestarts then i + 1 else i

/-- The counters whose sticky flags an _OVF register holds: register, elements, first bit, bits from one element to the next. -/
def Reg.ovf : Reg → List (Reg × Nat × Nat × Nat)
  | .tkOverrunOvf => [(.tkOverrun, 128, 0, 1)]
  | .lwCountOvf => [(.lwCirrusDefer, 16, 0, 1), (.lwCirrusMain, 16, 16, 1), (.lwExcCount, 16, 32, 1)]
  | .ckCountOvf => [(.ckRetried, 16, 0, 1), (.ckRelocated, 16, 16, 1), (.ckTolData, 16, 32, 1), (.ckEccCorr, 16, 48, 1)]
  | .vxUpdOvf => [(.vxAdvances, 16, 0, 1), (.vxNormNonfinite, 16, 16, 1)]
  | .smCountOvf => [(.smTokens, 4096, 0, 1)]
  | .rgCountOvf => [(.rgPinnedTiles, 16, 0, 1)]
  | .kvCountOvf => [(.kvPrefixHit, 16, 0, 1), (.kvPrefixSkip, 16, 16, 1), (.kvEvict, 16, 32, 1), (.kvPageWait, 16, 48, 1)]
  | .ctCountOvf => [(.ctPublishes, 16, 0, 1), (.ctFailed, 16, 16, 1), (.ctSaturated, 16, 32, 1), (.ctResent, 16, 48, 1),
      (.ctHeld, 16, 64, 1)]
  | .ctExpOvf => [(.ctExpStale, 16, 0, 1), (.ctExpWait, 16, 16, 1), (.ctExpNoteach, 16, 32, 1), (.ctExpNoreward, 16, 48, 1),
      (.ctExpAnnotRej, 16, 64, 1)]
  | .sqCountOvf => [(.sqInnet, 16, 0, 1), (.sqFallback, 16, 16, 1), (.sqAborts, 16, 32, 1), (.sqPoisons, 16, 48, 1),
      (.sqRetrans, 256, 64, 2), (.sqLinkErr, 256, 65, 2)]
  | .agCountOvf => [(.agCuts, 16, 0, 1), (.agSkipped, 16, 16, 1), (.agStalls, 16, 32, 1), (.agDrains, 16, 48, 1),
      (.agDrainSkipped, 16, 64, 1), (.agRollbacks, 16, 80, 1)]
  | .hzCountOvf => [(.hzHoldover, 16, 0, 1), (.hzObsMissing, 16, 16, 1), (.hzObsSuperseded, 16, 32, 1), (.hzRxDrop, 16, 48, 1)]
  | .ptCountOvf => [(.ptAdmitted, 16, 0, 1), (.ptCompleted, 16, 16, 1), (.ptFaulted, 16, 32, 1), (.ptTornDown, 16, 48, 1)]
  | .scCountOvf => [(.scAuthFails, 1, 0, 1)]
  | .wnCountOvf => [(.wnDiscards, 17, 0, 1), (.wnRestarts, 9, 33, 1)]
  | .pmCountOvf => [(.pmCapTicks, 16, 0, 1), (.pmThrottleTicks, 1, 16, 1)]
  | .mtCountOvf => [(.mtCorr, 128, 0, 3), (.mtUncorr, 128, 1, 3), (.mtEdcRetry, 128, 2, 3), (.mtPrefetchLate, 16, 384, 1)]
  | _ => []

/-! ## What a view shows (R394) -/

/-- The partition that owns channel `ch` is `v`. -/
def chanOf (s : State) (v ch : Nat) : Bool := decide ((chanOwner s.pt.chans ch).map (·.1) = some v)

/-- Whether a partition holds a region of compute die `d`, or a core of rim die `d − 56` (log 33). -/
def dieOf (s : State) (v d : Nat) : Bool :=
  let e := ptEntry s v
  if d < 56 then (ptRegions e).any fun r => decide (r / 4 = d) else (ptCores e).any fun c => decide (c / 16 + 56 = d)

/-- Partition of the job whose Stratus regions a die holds (R293). -/
def stratusPart (s : State) (d : Nat) : Option Nat :=
  (s.jobs.find? fun j => match j.2.learn with
    | some l => l.stratus.any fun x => decide (x.1 = d)
    | none => false).map fun j => j.2.part

/-- Whether partition view `v` shows element `i` of a register. Arrays by partition show entry `v`, arrays of things show those
that `v` owns; what is neither shows to every view or, where its rule says so, to package sessions alone. -/
def shownIn (s : State) (v : Nat) (r : Reg) (i : Nat) : Bool :=
  let own := fun (o : Option Nat) => decide (o = some v)
  match r with
  | .tkConfigNext => false
  | .tkApplyAt => false
  | .tkStatus => false
  | .tkSync => false
  | .tkOffset => false
  | .tkOverrunOvf => false
  | .ckRepair => false
  | .sqPort => false
  | .sqRetrans => false
  | .sqLinkErr => false
  | .ptStageChannels => false
  | .scAuthFails => false
  | .scCountOvf => false
  | .wnLog => false
  | .wnTraceEn => false
  | .wnTraceSeq => false
  | .pmSupply => false
  | .tkOverrun => decide (i / 8 = v)
  | .ckUnit => own (clPart s (i / 8))
  | .ckClusterEpoch => own (clPart s i)
  | .pmCluster => own (clPart s i)
  | .smTenant => decide ((getTenant s i).part = v)
  | .smLat => decide ((getTenant s i).part = v)
  | .smTokens => decide ((getTenant s i).part = v)
  | .ctCtx => own ((tabFind i s.lrn.ctxs).map (·.part))
  | .ctLib => decide (i / 64 = v)
  | .ctExp => own ((tabFind i s.lrn.rings).map (·.part))
  | .sqVl => decide (i / 8 = v)
  | .agJob => own ((tabFind i s.lrn.ags).map (·.part))
  | .hzPort => (getEnvPort s i).cfg.owned && decide ((getEnvPort s i).cfg.part = v)
  | .hzRxDrop => (getEnvPort s i).cfg.owned && decide ((getEnvPort s i).cfg.part = v)
  | .hzStream => decide ((getStream s i).part = v)
  | .hzPeer => decide ((getStream s i).part = v)
  | .pmDie => dieOf s v i
  | .mtRegion => own ((regionOf s (i / 256) (i % 256)).map (·.part))
  | .mtChannel => chanOf s v i
  | .mtCorr => chanOf s v i
  | .mtUncorr => chanOf s v i
  | .mtEdcRetry => chanOf s v i
  | .mtErrLast => chanOf s v s.mt.errLast.1
  | .mtStratus => own (stratusPart s i)
  | .lwCirrusShare => decide (i = v)
  | .ctPart => decide (i = v)
  | .kvShare => decide (i = v)
  | .kvUse => decide (i = v)
  | .sqPart => decide (i = v)
  | .sqAbortLast => decide (i = v)
  | .ptPart => decide (i = v)
  | .ptStage => decide (i = v)
  | .pmPart => decide (i = v)
  | .wnRestarts => true
  | .pmThrottleTicks => true
  | _ => if r.ctr.isSome then decide (i = v) else true

/-- Registers that a requester sees whatever its view: they belong to no entry of a partition. -/
def openReg (r : Reg) : Bool := [Reg.ptView, .ptReq, .agReq, .hzCtrl, .ckMaintReq, .tkTick, .tkConfig].contains r

/-- Whether view `v` shows element `i` of a register (R394). -/
def shown (s : State) (v : Nat) (r : Reg) (i : Nat) : Bool :=
  decide (v = 16) || openReg r || (decide (v < 16) && shownIn s v r i)

/-! ## Values -/

/-- A number with values at bit positions. -/
def atBits (l : List (Nat × Nat)) : Nat := (l.map fun x => x.1 * 2 ^ x.2).sum

/-- A Bool as a bit. -/
def bit (b : Bool) : Nat := if b then 1 else 0

/-- The code of a status as a number. -/
def codeOf (st : Status) : Nat := (statusCode st).toNat

/-- The flags of an _OVF register that a view shows. -/
def ovfValue (s : State) (v : Nat) (r : Reg) : Nat :=
  (r.ovf.map fun (c, n, base, step) => ((List.range n).map fun i => match c.ctr with
    | some x => if s.ovfs.contains (ctrKey x (c.ctrIdx i)) && shown s v c i then 2 ^ (base + step * i) else 0
    | none => 0).sum).sum

/-- CK_UNIT[k] (R99). -/
def unitValue (u : UnitSt) : Nat :=
  atBits [(u.state.ctorIdx, 0), (bit u.spareInUse, 3), (bit u.spareBad, 4), (if u.spareInUse then u.spareFor else 0, 5),
    (if unitEnabled u then u.logical else 15, 11), (u.epoch, 16), (u.suspects, 32), (bit u.suspectOvf, 40)]

/-- CK_UNITS (R99): usable and retired units that the view shows. -/
def unitCounts (s : State) (v : Nat) : Nat × Nat :=
  let us := ((List.range 14336).filter fun k => shown s v .ckUnit k).map (getUnit s)
  ((us.filter unitEnabled).length, (us.filter fun u => decide (u.state = .retired)).length)

/-- SM_TENANT (R195). -/
def tenantValue (y : Tenant) : Nat :=
  atBits [(y.part, 0), (bit y.valid, 4), (y.rate, 8), (y.cap, 40), (y.balance, 72)]

/-- SM_LAT (R200): a miss count has stuck at its largest value. -/
def latValue (l : Nat × Nat × Nat × Nat) : Nat :=
  let top := 2 ^ 24 - 1
  atBits [(min l.1 (2 ^ 32 - 1), 0), (min l.2.1 (2 ^ 32 - 1), 32), (min l.2.2.1 top, 64), (min l.2.2.2 top, 88),
    (bit (decide (top ≤ l.2.2.1)), 112), (bit (decide (top ≤ l.2.2.2)), 113)]

/-- Prefix-tree nodes in use by a partition's jobs. -/
def nodesUsed (s : State) (p : Nat) : Nat :=
  (s.gen.nodes.filter fun n => match tabFind n.2.page s.gen.pages with
    | some g => decide (jobPart g.job = p)
    | none => false).length

/-- CT_CTX (R259). -/
def ctxValue (x : Ctx) : Nat :=
  atBits [(x.job, 0), (x.part, 16), (1, 20), (x.activeBank, 21), (bit x.inactiveInvalid, 22), (x.phase.ctorIdx, 23),
    (x.epochActive, 64), (codeOf x.lastStatus, 112), (if x.phase = .idle then 0 else x.epochPending, 128),
    (if x.phase = .armed then x.switchTick else 0, 192)]

/-- CT_LIB (R259). -/
def libValue (x : Lib) : Nat :=
  atBits [(x.modelId, 0), (x.bytes, 128), (x.kind, 176), (1, 178), (x.inUse, 179), (x.uses, 192), (x.lastUse % 2 ^ 32, 224)]

/-- CT_EXP (R293). -/
def ringValue (s : State) (x : ExpRing) : Nat :=
  atBits [(x.job, 0), (x.part, 16), (1, 20), (x.log2, 21), (codeOf x.lastStatus, 32), (x.write % 2 ^ 64, 64),
    (x.consume % 2 ^ 64, 128), (readyIndex s x % 2 ^ 64, 192)]

/-- SQ_VL (R338). XCREDITS is that of the lowest bound port of 8 lanes, 0 without one (log 33). -/
def laneValue (s : State) (v : Nat) : Nat :=
  let n := laneSlots s v
  let x := if 128 ≤ v ∨ ptValid (ptEntry s (v / 8)) then laneXslots s v else 0
  let port := s.sq.ports.find? fun q => decide (q.2.state ≠ .unbound) && decide (q.2.width = 8)
  atBits [(if 128 ≤ v then 0 else v / 8, 0), (if 128 ≤ v then 7 else v % 8, 4), (bit (decide (n ≠ 0)), 7), (n, 8), (x, 19),
    (if n = 0 then 0 else n + 16, 30), (match port with
      | some q => if n = 0 ∧ x = 0 then 0 else laneCredits x q.2
      | none => 0, 41), (bit (decide (128 ≤ v)), 60)]

/-- SQ_PORT (R338): WIDTH holds the base-2 logarithm of the lanes (log 33). -/
def portValue (p : Port) : Nat :=
  atBits [(p.state.ctorIdx, 0), (Nat.log2 p.width, 2), (p.pmd, 4), (if p.switched then 0 else p.peer, 6), (bit p.switched, 16),
    (p.rttUs, 17)]

/-- SQ_ABORT_LAST (R338). -/
def abortValue (a : AbortLast) : Nat :=
  atBits [(a.job, 0), (a.group, 16), (a.seq % 2 ^ 32, 32), (codeOf a.status, 64), (codeOf a.cause, 80), (a.tick % 2 ^ 32, 96)]

/-- AG_JOB (R364). -/
def agValue (a : AgCtx) : Nat :=
  atBits [(a.job, 0), (a.part, 16), (1, 20), (a.service, 21), (a.state.ctorIdx, 23), (bit a.copyOpen, 26), (bit a.narrowing, 27),
    (bit a.draining, 28), (codeOf a.lastStatus, 48), (a.newestCut % 2 ^ 64, 64), (a.newestJ % 2 ^ 64, 128), (a.recoveryCut % 2 ^ 64, 192)]

/-- MT_REGION (R162). -/
def regionValue (e : Region) : Nat :=
  atBits [(e.chmask, 0), (e.part, 16), (e.cls, 20), (e.owner, 24), (bit e.sealed, 30), (1, 31), (e.accumCluster, 32),
    (e.grant.toNat, 48), (e.base, 64), (e.len, 128), (e.job, 192)]

/-- MT_CHANNEL (R183). -/
def chanValue (s : State) (ch : Nat) : Nat :=
  let c := getChan s ch
  atBits [(chanByte s.pt.chans ch, 0), (c.state.ctorIdx, 8), (c.tempC, 16), (c.refresh, 24), (c.odecc % 2 ^ 16, 32)]

/-- MT_STRATUS (R293). -/
def stratusValue (s : State) (d : Nat) : Nat :=
  let p := tabGet (0, 0) s.lrn.stratusPeak d
  if (stratusPart s d).isSome then
    atBits [(dieFrames s d, 0), (p.1, 15), (1, 30), (dieStackBytes s d, 32), (p.2, 72)]
  else 0

/-- PT_PART (R401). -/
def partValue (s : State) (p : Nat) : Nat :=
  let e := ptEntry s p
  atBits [(ptFld e 0 7 4, 0), ((ptRegions e).length, 4), (ptFld e 0 29 16, 12), ((partJobs s p).length, 26)]

/-- PM_DIE (R451). -/
def dieValue (s : State) (d : Nat) : Nat :=
  atBits [(tabGet 0 s.pm.temp d, 0), (tabGet 0 s.pm.peak d, 8), (bit (s.pm.night.contains d), 16), (bit (s.pm.pgood.contains d), 17)]

/-- PM_PART (R451); FLOOR_W in whole watts, rounded up (log 33). -/
def powerValue (s : State) (p : Nat) : Nat :=
  let e := ptEntry s p
  if ptValid e then
    atBits [((floor2 e (ptChans s.pt.chans p).length + 1) / 2, 0), (budget s p / 10000000, 16), ((getPart s p).meterLast, 64)]
  else 0

/-- The component of WN_COMPONENT[c]. -/
def getComp (s : State) (c : Nat) : Comp := tabGet ⟨0, 0, 0, [], 0⟩ s.wn.comps c

/-- Code of the package (R1): 1 for VV-C64-T. -/
def codeBit (s : State) : Nat := bit s.fuses.codeT

/-- Units of a cluster that are enabled at manufacture (R76). -/
def unitsPer (s : State) : Nat := if s.fuses.codeT then 7 else 8

/-- Per-view statuses, for a partition's view, for package sessions and for no view. -/
def viewStatus (s : State) (v : Nat) (f : PartSt → Status) (g : WnSt → Status) : Nat :=
  if v < 16 then codeOf (f (getPart s v)) else if v = 16 then codeOf (g s.wn) else 0

/-- The value of element `i` of a register that a view shows, as one number of the register's width. -/
def regValue (s : State) (who : Who) (v : Nat) (r : Reg) (i : Nat) : Nat :=
  let cfg := fun (c : TickCfg) => atBits [(c.periodUs, 0), (c.commitUs, 16), (c.maintUs, 32)]
  let e := ptEntry s i
  match r with
  | .tkConfig => cfg s.tk.cfg
  | .tkConfigNext => cfg s.tk.next
  | .tkApplyAt => s.tk.applyAt
  | .tkTick => s.tk.tick
  | .tkStatus => atBits [(bit (match s.tk.role with
      | 0 => false
      | 1 => s.tk.ptpValid
      | _ => s.tk.locked), 0), (bit s.tk.syncLost, 1), (bit s.tk.pending.isSome, 2), (bit s.tk.applyRejected, 3),
      (bit s.tk.tickOvf, 4), (codeOf s.tk.applyStatus, 16)]
  | .tkSync => atBits [(s.tk.role, 0), (s.tk.cableDelayNs, 16), (s.tk.lockLimitNs, 32)]
  | .tkOffset => if s.tk.role = 2 then (s.tk.offsetNs % 2 ^ 32).toNat else 0
  | .lwCaps => atBits [(0xFF, 0), (unitsPer s, 8), (256, 12), (8, 24), (2048, 32)]
  | .lwCirrusShare => atBits [(ptFld e 0 43 32, 0), (permitsHeld s i, 12), ((getPart s i).permitsLast, 24)]
  | .ckUnit => unitValue (getUnit s i)
  | .ckClusterEpoch => (getCl s i).epoch
  | .ckUnits => atBits [((unitCounts s v).1, 0), ((unitCounts s v).2, 15)]
  | .ckRepair => atBits [(s.fuses.repair.length, 0), (bit s.repairFull, 12)]
  | .ckMaintStatus => atBits [(viewStatus s v (·.maintLast) (·.maintLast), 0), (shareUsed s v, 16)]
  | .vxUpdCaps => atBits [(256, 0), (4096, 9), (128, 22), (4096, 30)]
  | .smTenant => tenantValue (getTenant s i)
  | .smLatWindow => s.gen.latWindow
  | .smLat => latValue (getTenant s i).lat
  | .rgCaps => atBits [(31, 0), (13, 8), (31, 16), (1024, 24), (256, 36)]
  | .kvCaps => atBits [(65536, 0), (4194304, 17), (4194304, 40)]
  | .kvShare => ptFld e 7 62 0
  | .kvUse => atBits [(genHeld s i (·.slots.length), 0), (genHeld s i (·.pages), 17), (nodesUsed s i, 40)]
  | .ctCaps => atBits [(256, 0), (64, 9), (1000, 16), (32768, 26)]
  | .ctPart => atBits [(ptFld e 8 9 0, 0), (ptFld e 8 49 10, 16)]
  | .ctCtx => ((tabFind i s.lrn.ctxs).map ctxValue).getD 0
  | .ctLib => ((tabFind i s.lrn.libs).map libValue).getD 0 + bit (s.lrn.libOvf.contains i) * 2 ^ 187
  | .ctLoadStatus => if v < 16 then atBits [(codeOf (getPart s v).loadStatus, 0), (bit (getPart s v).load.isSome, 16)] else 0
  | .ctExp => ((tabFind i s.lrn.rings).map (ringValue s)).getD 0
  | .sqCaps => atBits [(4096, 0), (256, 13), (8192, 22), (1024, 36), (1024, 47)]
  | .sqVl => laneValue s i
  | .sqPart => atBits [(ptFld e 9 8 0, 0), (ptFld e 9 22 9, 9), (ptFld e 9 35 23, 23), (groupsHeld s i, 36)]
  | .sqPort => portValue (getPort s i)
  | .sqAbortLast => abortValue (getPart s i).abortLast
  | .agCaps => atBits [(256, 0), (1048576, 9), (65536, 30)]
  | .agJob => ((tabFind i s.lrn.ags).map agValue).getD 0
  | .agReqStatus => viewStatus s v (·.agLast) (·.agLast)
  | .hzCaps => atBits [(4096, 0), (16, 13), (1024, 18), (8192, 29)]
  | .hzPort => atBits [((getEnvPort s i).cfg.part, 0), (bit (getEnvPort s i).cfg.owned, 4), (bit (getEnvPort s i).up, 5),
      ((getEnvPort s i).cfg.vlan, 6)]
  | .hzStream => atBits [(streamWord (getStream s i) 0, 0), (streamWord (getStream s i) 1, 64)]
  | .hzPeer => (getStream s i).peer.toNat
  | .hzCtrlStatus => viewStatus s v (·.hzLast) (·.hzLast)
  | .ptPart => partValue s i
  | .ptStage => (tabGet 0#1024 s.pt.stage i).toNat
  | .ptStageChannels => s.pt.stageChans.toNat
  | .ptReqStatus => viewStatus s v (·.ptLast) (·.ptLast)
  | .ptView => match who with
    | .session n => ((tabFind n s.sc.sessions).map (·.view)).getD 0
    | .cores _ => 0
  | .scAttestStatus => atBits [(viewStatus s v (·.attestLast) (·.attestLast), 0),
      ((s.sc.attest.filter fun a => decide (a.1 = v)).length, 16)]
  | .scDeviceId => s.fuses.deviceId.toNat
  | .wnBoot => atBits [(s.wn.stage, 0), (s.wn.image, 4), (bit s.wn.service, 5), (codeOf s.wn.primary, 16), (codeOf s.wn.recovery, 32),
      (s.wn.build.toNat, 64)]
  | .wnPkg => s.wn.pkg
  | .wnDiscardLast =>
    let d := if v < 16 then (getPart s v).discard else s.wn.discard
    if v ≤ 16 ∧ d ≠ (0, 0, 0) then atBits [(d.1, 0), (v, 24), (d.2.1, 29), (d.2.2, 32)] else 0
  | .wnComponent => atBits [(if (getComp s (i + 1)).state = 3 then 1 else (getComp s (i + 1)).state, 0), ((getComp s (i + 1)).stateVersion, 16), ((getComp s (i + 1)).version, 32)]
  | .wnHotStatus => atBits [(codeOf s.wn.hotLast, 0), (bit s.wn.hot.isSome, 16), ((s.wn.hot.map (·.component)).getD 0, 20)]
  | .wnLog => atBits [(tabGet 0 s.wn.logSeq i, 0), (tabGet 2 s.wn.logLevel i, 32)]
  | .wnTraceEn => (tabGet 0#64 s.wn.traceEn i).toNat
  | .wnTraceSeq => s.wn.traceSeq
  | .wnJobStatus =>
    let j := if v < 16 then (getPart s v).jobStatus else s.wn.jobStatus
    if v ≤ 16 then atBits [(codeOf j.1, 0), (j.2.1, 16), (bit (submitOf s v).isSome, 32), (j.2.2, 33)] else 0
  | .pmCluster => atBits [((pmOf s i).ctorIdx, 0), ((getCl s i).wakeAt % 2 ^ 56, 8)]
  | .pmDie => dieValue s i
  | .pmPart => powerValue s i
  | .pmThrottle => atBits [(levelInForce s, 0), (s.pm.sourceLevel, 3), (s.pm.cause, 6), (s.pm.inputW, 16), (s.pm.junctionMax, 32)]
  | .pmSupply => atBits [(s.edge.vinMv, 0), (s.edge.iinDa, 16), (bit s.edge.lowInput, 32), (bit s.edge.brownout, 33)]
  | .mtRegion => ((regionOf s (i / 256) (i % 256)).map regionValue).getD 0
  | .mtCaps => atBits [(s.mt.dataRate, 0), (128, 6), (256, 14), (s.mt.retrainPeriod, 23)]
  | .mtChannel => chanValue s i
  | .mtErrLast => atBits [(s.mt.errLast.1, 0), (s.mt.errLast.2.1, 7), (s.mt.errLast.2.2.1 % 2 ^ 32, 16), (s.mt.errLast.2.2.2.1, 48),
      (s.mt.errLast.2.2.2.2, 64)]
  | .mtStratus => stratusValue s i
  | _ => match r.ctr with
    | some c => ctrVal s c (r.ctrIdx i)
    | none => ovfValue s v r

/-! ## The capability list (R426, R427) -/

/-- The records: ID and, where it has one, word 1. -/
def capRecords (s : State) (v : Nat) : List (Nat × Option Nat) :=
  [(0x0001, some (atBits [(codeBit s, 0), (s.wn.pkg, 2), (unitsPer s, 12), ((unitCounts s v).1, 16)])),
   (0x0002, some (atBits [(0xFF, 0), (8, 8)])), (0x0003, some 2048), (0x0004, none), (0x0005, some 31), (0x0006, none),
   (0x0007, none), (0x0008, some (atBits [(112, 0), (4096, 7)])), (0x0009, some 4194304),
   (0x000A, some (atBits [(256, 0), (64, 9)])), (0x000B, some 256), (0x000C, some (atBits [(256, 0), (8192, 9)])),
   (0x000D, some (atBits [(256, 0), (1, 9)])), (0x000E, some (atBits [(4096, 0), (16, 13)])), (0x000F, none),
   (0x0010, some 0x03F8), (0x0011, some 65536), (0x0012, some 1)]

/-- The words of the list from an offset on: a record without a word 1 is its header alone (log 33). -/
def capWords : Nat → List (Nat × Option Nat) → List Nat
  | _, [] => []
  | off, (id, body) :: t =>
    let len := if body.isSome then 16 else 8
    let next := if t = [] then 0 else off + len
    atBits [(id, 0), (1, 16), (len, 32), (next, 48)] :: (body.toList ++ capWords (off + len) t)

/-! ## Reads (R425) -/

/-- The words of an element of a register that a view shows. -/
def elemWords (s : State) (who : Who) (v : Nat) (r : Reg) (i bytes : Nat) : List W64 :=
  let n := if shown s v r i then regValue s who v r i else 0
  (List.range ((bytes + 7) / 8)).map fun w => BitVec.ofNat 64 (n / 2 ^ (64 * w))

/-- Bytes of an element of a register. -/
def regBytes (r : Reg) : Nat := match ((List.range 16).flatMap blockRegs).find? fun d => decide (d.reg = r) with
  | some d => d.bytes
  | none => 8

/-- Keeps a requester's snapshot of a wide register. -/
def putSnap (n : Snapshot) (s : State) : State :=
  { s with wn := { s.wn with snaps := (s.wn.snaps.filter fun x => !(decide (x.who = n.who) && decide (x.offset = n.offset))) ++ [n] } }

/-- A read of `bytes` bytes at a window offset: the value, and the state after it. A wide register is latched when its lowest
word is read; a higher word read without a snapshot shows the current value (log 33). -/
def readReg (who : Who) (off bytes : Nat) (s : State) : W64 × State :=
  let v := viewOf s who
  let caps := if off / 0x100000 = 0 ∧ off < 0x10000 then capWords 0 (capRecords s v) else []
  if bytes ≠ 8 ∨ off % 8 ≠ 0 then (0#64, recordDiscard who off 3 s)
  else if off / 8 < caps.length then (BitVec.ofNat 64 (caps.getD (off / 8) 0), s)
  else match regAt off with
    | none => (0#64, recordDiscard who off 2 s)
    | some (r, i, w) =>
      let base := regOff r i 0
      let now := elemWords s who v r i (regBytes r)
      if w = 0 then (now.getD 0 0#64, if now.length ≤ 1 then s else putSnap ⟨who, base, now⟩ s)
      else match s.wn.snaps.find? fun x => decide (x.who = who) && decide (x.offset = base) with
        | some x => (x.words.getD w 0#64, s)
        | none => (now.getD w 0#64, s)

/-! ## Writes (R12, R425) -/

/-- A write of TK_CONFIG_NEXT (R23). -/
def cfgWrite (v : W64) (s : State) : Wr :=
  Wr.part (decide (fld v 63 48 ≠ 0)) 1
    (Wr.ok { s with tk := { s.tk with next := ⟨fld v 15 0, fld v 31 16, fld v 47 32⟩ } })

/-- A tick setting is legal (R21). -/
def cfgLegal (c : TickCfg) : Bool :=
  decide (100 ≤ c.periodUs) && decide (c.periodUs ≤ 50000)
    && (decide (c.maintUs = 0) || (decide (20 ≤ c.maintUs) && decide (c.maintUs ≤ c.periodUs / 4)))
    && decide (20 ≤ c.commitUs) && decide (c.commitUs + c.maintUs + 12 ≤ c.periodUs)

/-- A refused arming (R24): APPLY_REJECTED is set and APPLY_STATUS holds the status. -/
def armRefused (st : Status) (s : State) : Wr :=
  Wr.no st { s with tk := { s.tk with applyRejected := true, applyStatus := st } }

/-- A write of TK_APPLY_AT (R24): 0 disarms, any other value arms. -/
def armWrite (tick : Nat) (s : State) : Wr :=
  if tick = 0 then Wr.ok { s with tk := { s.tk with applyAt := 0, pending := none } }
  else if !cfgLegal s.tk.next then armRefused .tkConfigInvalid s
  else if !s.jobs.isEmpty then armRefused .tkBusy s
  else if tick < s.tk.tick + 2 then armRefused .tkApplyTooSoon s
  else Wr.ok { s with tk := { s.tk with applyAt := tick, pending := some (s.tk.next, tick), applyStatus := .ok } }

/-- A write of TK_SYNC (R23). -/
def syncWrite (v : W64) (s : State) : Wr :=
  if fld v 1 0 = 3 ∨ fld v 47 32 < 50 then Wr.no .tkConfigInvalid s
  else Wr.part (decide (fld v 15 2 ≠ 0) || decide (fld v 63 48 ≠ 0)) 1
    (Wr.ok { s with tk := { s.tk with role := fld v 1 0, cableDelayNs := fld v 31 16, lockLimitNs := fld v 47 32 } })

/-- A write of TK_STATUS: SYNC_LOST and TICK_OVF are ST, APPLY_REJECTED W1C. -/
def tkStatusWrite (v : W64) (s : State) : Wr :=
  let now := regValue s (.cores 0) 16 .tkStatus 0
  let ro := roBad v 0 0 (now % 2) || roBad v 2 2 (now / 4 % 2) || roBad v 31 16 (now / 2 ^ 16 % 2 ^ 16)
  Wr.part (decide (fld v 15 5 ≠ 0) || decide (fld v 63 32 ≠ 0)) 1 <| Wr.part ro 0 <| Wr.ok
    { s with tk := { s.tk with syncLost := s.tk.syncLost && !flag v 1, applyRejected := s.tk.applyRejected && !flag v 3,
                               tickOvf := s.tk.tickOvf && !flag v 4 } }

/-- A write of word `w` of an _OVF register: each 1 clears the flag of a counter that the view shows. -/
def ovfWrite (view : Nat) (r : Reg) (w : Nat) (v : W64) (s : State) : Wr :=
  let flags := r.ovf.flatMap fun (c, n, base, step) => (List.range n).map fun i => (c, i, base + step * i)
  let here := flags.filter fun (_, _, b) => decide (b / 64 = w)
  let gone := (here.filter fun (c, i, b) => flag v (b % 64) && shown s view c i).map fun (c, i, _) => match c.ctr with
    | some x => ctrKey x (c.ctrIdx i)
    | none => 0
  let stray := (List.range 64).any fun b => flag v b && !here.any fun (_, _, k) => decide (k % 64 = b)
  Wr.part stray 1 (Wr.ok { s with ovfs := s.ovfs.filter fun k => !gone.contains k })

/-- A write of CK_UNIT[k]: SUSPECT_OVF is ST. -/
def unitWrite (k : Nat) (v : W64) (s : State) : Wr :=
  let now := unitValue (getUnit s k)
  let rest := v.toNat - bit (flag v 40) * 2 ^ 40
  Wr.part (decide (fld v 63 41 ≠ 0) || flag v 15) 1 <|
    Wr.part (decide (rest ≠ 0) && decide (rest ≠ now - now / 2 ^ 40 * 2 ^ 40)) 0 <|
      Wr.ok (if flag v 40 ∧ (getUnit s k).suspectOvf then modUnit k (fun u => { u with suspectOvf := false }) s else s)

/-- A write of CK_REPAIR: FULL is ST. -/
def repairWrite (v : W64) (s : State) : Wr :=
  Wr.part (decide (fld v 63 13 ≠ 0)) 1 <| Wr.part (roBad v 11 0 s.fuses.repair.length) 0 <|
    Wr.ok { s with repairFull := s.repairFull && !flag v 12 }

/-- A write of word `w` of CT_LIB: USES_OVF, bit 187, is ST. -/
def libWrite (i w : Nat) (v : W64) (s : State) : Wr :=
  if w ≠ 2 then Wr.drops 0 s
  else
    let now := ((tabFind i s.lrn.libs).map libValue).getD 0 / 2 ^ 128 % 2 ^ 59
    let rest := v.toNat - bit (flag v 59) * 2 ^ 59
    Wr.part (decide (fld v 63 60 ≠ 0)) 1 <| Wr.part (decide (rest ≠ 0) && decide (rest ≠ now)) 0 <|
      Wr.ok (if flag v 59 then { s with lrn := { s.lrn with libOvf := s.lrn.libOvf.filter (· ≠ i) } } else s)

/-- A write of PM_SUPPLY: LOW_INPUT is ST. -/
def supplyWrite (v : W64) (s : State) : Wr :=
  let ro := roBad v 15 0 s.edge.vinMv || roBad v 31 16 s.edge.iinDa || roBad v 33 33 (bit s.edge.brownout)
  Wr.part (decide (fld v 63 34 ≠ 0)) 1 <| Wr.part ro 0 <|
    Wr.ok { s with edge := { s.edge with lowInput := s.edge.lowInput && !flag v 32 } }

/-- The RW image of SM_TENANT[t] as last written, or as in force (R195). -/
def tenantImage (s : State) (t : Nat) : Nat :=
  match s.gen.tenantDue.reverse.find? fun w => decide (w.1 = t) with
  | some w => w.2.toNat % 2 ^ 72
  | none => tenantValue (getTenant s t) % 2 ^ 72

/-- A write of SM_TENANT[t] by its words, as far as each is written: the image that comes of it, and what is discarded of the
words, reserved bits and BALANCE (R12, R13, R195). -/
def tenantWordsWrite (who : Who) (t : Nat) (w0 w1 : Option W64) (s : State) : Wr :=
  let image := tenantImage s t
  let low := match w0 with
    | some v => v.toNat - fld v 7 5 * 2 ^ 5
    | none => image % 2 ^ 64
  let high := match w1 with
    | some v => fld v 7 0
    | none => image / 2 ^ 64
  let resv := (w0.any fun v => decide (fld v 7 5 ≠ 0)) || (w1.any fun v => decide (fld v 63 48 ≠ 0))
  let ro := w1.any fun v => roBad v 47 8 (getTenant s t).balance
  Wr.part resv 1 (Wr.part ro 0 (tenantWrite who t (BitVec.ofNat 128 (low + high * 2 ^ 64)) s))

/-- A write of word `w` of SM_TENANT[t] (R195). -/
def tenantWordWrite (who : Who) (t w : Nat) (v : W64) (s : State) : Wr :=
  if w = 0 then tenantWordsWrite who t (some v) none s else tenantWordsWrite who t none (some v) s

/-- A write of AG_REQ (R364). -/
def agWrite (who : Who) (v : W64) (s : State) : Wr :=
  let j := fld v 31 16
  Wr.part (decide (fld v 15 3 ≠ 0) || decide (fld v 63 53 ≠ 0)) 1 <| match fld v 2 0 with
    | 0 => agRequest who j false (fun a x => preemptReq a x who j) s
    | 1 => agRequest who j false (fun a x => resumeReq a x who j) s
    | 2 => agRequest who j true (fun a x => recoverReq a x who j (fld v 41 32)) s
    | 3 => agRequest who j true (fun a x => shrinkReq a x who j (fld v 41 32)) s
    | 4 => agRequest who j false (fun a x => exportReq a x who j (fld v 44 42) (fld v 52 45)) s
    | _ => agAnswer who .agReqInvalid s

/-- A write of PT_REQ (R401). -/
def ptReqWrite (who : Who) (v : W64) (s : State) : Wr :=
  let p := fld v 6 3
  let j := fld v 23 8
  let rd := fld v 26 24
  let h := fld v 34 27
  Wr.part (flag v 7 || decide (fld v 63 35 ≠ 0)) 1 <| match fld v 2 0 with
    | 0 => ptServed (createReq who p) s
    | 1 => ptServed (teardownReq who p) s
    | 2 => jobEndReq who j .completed s
    | 3 => jobEndReq who j .tornDown s
    | 4 => ptServed (grantReq who rd h p) s
    | 5 => ptServed (acceptReq who rd h p) s
    | 6 => ptServed (revokeReq who rd h p) s
    | _ => ptAnswer who .ptReqInvalid s

/-- A write of word `w` of PT_STAGE[p]. Reserved bits of an image are kept and read back as written; CREATE checks them (R387; DESIGN
CHOICE, log 114). -/
def stageWrite (p w : Nat) (v : W64) (s : State) : Wr :=
  let n := putWord (tabGet 0#1024 s.pt.stage p).toNat w v.toNat
  Wr.ok { s with pt := { s.pt with stage := tabSet 0#1024 s.pt.stage p (BitVec.ofNat 1024 n) } }

/-- A write of word `w` of PT_STAGE_CHANNELS, reserved bits included (DESIGN CHOICE, log 114). -/
def stageChansWrite (w : Nat) (v : W64) (s : State) : Wr :=
  Wr.ok { s with pt := { s.pt with stageChans := BitVec.ofNat 1024 (putWord s.pt.stageChans.toNat w v.toNat) } }

/-- A write of WN_PKG (R428). -/
def pkgWrite (v : W64) (s : State) : Wr :=
  if !s.jobs.isEmpty then Wr.no .wnPkgBusy s
  else Wr.part (decide (fld v 63 10 ≠ 0)) 1 (Wr.ok { s with wn := { s.wn with pkgNext := some (fld v 9 0) } })

/-- A write of WN_LOG[i] (R428): LEVEL_MAX of 0 to 3. -/
def logWrite (i : Nat) (v : W64) (s : State) : Wr :=
  if 3 < fld v 34 32 then Wr.no .wnDenied s
  else Wr.part (decide (fld v 63 35 ≠ 0)) 1 <| Wr.part (roBad v 31 0 (tabGet 0 s.wn.logSeq i)) 0 <|
    Wr.ok { s with wn := { s.wn with logLevel := tabSet 2 s.wn.logLevel i (fld v 34 32) } }

/-- A write of WN_TRACE_EN[w]. -/
def traceWrite (i : Nat) (v : W64) (s : State) : Wr :=
  Wr.ok { s with wn := { s.wn with traceEn := tabSet 0#64 s.wn.traceEn i v } }

/-- SC_ATTEST_STATUS.LAST of a view. -/
def setAttestView (v : Nat) (st : Status) (s : State) : State :=
  modView v (fun x => { x with attestLast := st }) (fun x => { x with attestLast := st }) s

/-- Room of a share of the attestation queue (R400): 4 requests of a partition, 16 of package sessions. -/
def attestRoom (s : State) (share : Nat) : Bool :=
  decide ((s.sc.attest.filter fun a => decide (a.1 = share)).length < if share < 16 then 4 else 16)

/-- The WRITABLE region of a group of application cores that a near address of rim die `rd` names, as handle and offset, with
512 bytes in it (R400), or the status of R164 that refuses it (log 43); a partition names a region of its own. -/
def attestBuffer (s : State) (share rd buf : Nat) : Except Status (Nat × Nat) :=
  let h := buf / 2 ^ 40 % 256
  let off := buf % 2 ^ 40
  match regionOf s rd h with
  | none => .error .mtAddrInvalid
  | some e =>
    if e.len < off + 512 ∨ off % 64 ≠ 0 then .error .mtAddrInvalid
    else if e.owner ≠ 56 + rd ∨ (share < 16 ∧ e.part ≠ share) then .error .mtNotOwner
    else if e.sealed then .error .mtReadOnly
    else .ok (h, off)

/-- An attestation request joins the queue with its nonce. -/
def queueAttest (share : Nat) (v : W64) (nonce : List Byte) (s : State) : Wr :=
  Wr.ok { s with sc := { s.sc with attest := s.sc.attest ++ [(share, fld v 50 48, fld v 47 0, nonce)] } }

/-- A write of SC_ATTEST_REQ (R400): with component 1 or 2 FAILED no attestation is served (R418). The nonce is a session's own,
or bytes 16 to 63 of the buffer. -/
def attestWrite (who : Who) (v : W64) (nonce : List Byte) (s : State) : Wr :=
  let share := viewOf s who
  Wr.part (decide (fld v 63 51 ≠ 0)) 1 <|
    if compState s 1 = 2 ∨ compState s 2 = 2 then Wr.ok s
    else if 16 < share then Wr.no .wnDenied s
    else match attestBuffer s share (fld v 50 48) (fld v 47 0) with
      | .error st => Wr.no st (setAttestView share st s)
      | .ok (h, off) =>
        if !attestRoom s share then Wr.no .scBusy (setAttestView share .scBusy s)
        else
          match who with
          | .session _ => queueAttest share v ((nonce ++ List.replicate 48 0#8).take 48) s
          | .cores _ => match readPlace s ⟨fld v 50 48, h, off + 16⟩ 48 with
            | .ok bs => queueAttest share v bs s
            | .error st => Wr.no st (setAttestView share st (noteRead ⟨fld v 50 48, h, off + 16⟩ 48 s))

/-! ## Hot-update requests (R419, R420) -/

/-- Key of byte `off` of the staging area of the package region (R416, log 44). -/
def stagingKey (off : Nat) : Nat := chanKey 15 (14926258176 + 268435456 + off)

/-- Bytes of the staging area (R416). -/
def stagingBytes : Nat := 268435456

/-- The hot-update image that lies in the staging area; whether its signature verifies is `sig` (log 43). -/
def stagedHot (sig : Bool) (s : State) : HotImage :=
  let b := fun (off n : Nat) => memBytes s.mem (stagingKey off) n
  let n := leNat (b 12 4)
  let digest := sha384 (if 256 + n ≤ stagingBytes then b 256 n else [])
  { magic := leNat (b 0 4), format := leNat (b 4 2), component := leNat (b 6 2), version := leNat (b 8 4), bytes := n,
    securityVersion := leNat (b 16 8), stateOut := leNat (b 24 2), stateMin := leNat (b 26 2), stateMax := leNat (b 28 2),
    reservedZero := (b 30 2 ++ b 176 80).all fun x => decide (x = 0#8), rootKeyHash := beNat (sha384 (b 32 96)),
    sigValid := sig, digestValid := decide (digest = b 128 48), digest := beNat (b 128 48) }

/-- A hash is that of an owner root key that is not revoked (R397). -/
def rootKnown (s : State) (h : Nat) : Bool := s.fuses.rootHash.any fun r => decide (r.1 = h) && !r.2

/-- R420's checks of a hot update in their order. -/
def hotStatus (s : State) (c tickAt : Nat) (m : HotImage) : Status :=
  if s.wn.hot.isSome then .hotBusy
  else if c = 1 ∨ c = 2 then .hotFixed
  else if c < 3 ∨ 9 < c ∨ m.component ≠ c then .hotImageInvalid
  else if m.magic ≠ 0x44505548 ∨ m.format ≠ 1 ∨ !m.reservedZero ∨ stagingBytes < 384 + m.bytes ∨ !rootKnown s m.rootKeyHash
      ∨ !m.sigValid ∨ !m.digestValid ∨ m.securityVersion < s.fuses.securityVersion then .hotImageInvalid
  else if (getComp s c).stateVersion < m.stateMin ∨ m.stateMax < (getComp s c).stateVersion then .hotStateIncompatible
  else if tickAt < s.tk.tick + 2 then .hotImageInvalid
  else .ok

/-- A write of WN_HOT_REQ (R420), which needs package rights. -/
def hotReq (who : Who) (v : W64) (m : HotImage) (s : State) : Wr :=
  if !packageRights s who then Wr.drops 0 s
  else Wr.part (decide (fld v 7 4 ≠ 0)) 1 <|
    let st := hotStatus s (fld v 3 0) (fld v 63 8) m
    let hot := if st = .ok then some ⟨fld v 3 0, fld v 63 8, m⟩ else s.wn.hot
    ⟨st, none, { s with wn := { s.wn with hotLast := st, hot := hot } }⟩

/-! ## The window's writes -/

/-- A write of word `w` of element `i` of a register by a requester whose view shows it. -/
def writeShown (who : Who) (r : Reg) (i w : Nat) (v : W64) (s : State) : Wr :=
  let pkg := fun (x : Wr) => if packageRights s who then x else Wr.drops 0 s
  match r with
  | .tkConfigNext => pkg (cfgWrite v s)
  | .tkApplyAt => pkg (armWrite v.toNat s)
  | .tkSync => pkg (syncWrite v s)
  | .tkStatus => tkStatusWrite v s
  | .ckUnit => unitWrite i v s
  | .ckRepair => repairWrite v s
  | .ckMaintReq => Wr.part (decide (fld v 3 2 ≠ 0) || decide (fld v 63 18 ≠ 0)) 1 (maintWrite who (fld v 1 0) (fld v 17 4) s)
  | .smTenant => tenantWordWrite who i w v s
  | .smLatWindow => latWindowWrite who v s
  | .ctLib => libWrite i w v s
  | .ctLoadReq => loadReq who v s
  | .agReq => agWrite who v s
  | .hzStream => streamWrite who i w v s
  | .hzPeer => peerWrite who i w v s
  | .hzCtrl => Wr.part (decide (fld v 15 1 ≠ 0) || decide (fld v 63 28 ≠ 0)) 1 (hzCtrl who (flag v 0) (fld v 27 16) s)
  | .ptStage => pkg (stageWrite i w v s)
  | .ptStageChannels => pkg (stageChansWrite w v s)
  | .ptReq => ptReqWrite who v s
  | .ptView => viewWrite who v s
  | .scAttestReq => attestWrite who v [] s
  | .wnPkg => pkg (pkgWrite v s)
  | .wnHotReq =>
    let (f, s1) := takeFree s
    hotReq who v (stagedHot (flag f 0) s1) s1
  | .wnLog => pkg (logWrite i v s)
  | .wnTraceEn => pkg (traceWrite i v s)
  | .wnJobSubmit => submitReq who v s
  | .pmSupply => supplyWrite v s
  | _ => if r.ovf = [] then Wr.drops 0 s else ovfWrite (viewOf s who) r w v s

/-- A write of `bytes` bytes at a window offset. -/
def writeReg (who : Who) (off bytes : Nat) (v : W64) (s : State) : Wr :=
  if bytes ≠ 8 ∨ off % 8 ≠ 0 then Wr.drops 3 s
  else if off / 0x100000 = 0 ∧ off / 8 < (capWords 0 (capRecords s 16)).length then Wr.drops 0 s
  else match regAt off with
    | none => Wr.drops 2 s
    | some (r, i, w) => if shown s (viewOf s who) r i || r = .smTenant then writeShown who r i w v s else Wr.drops 0 s

/-- What a load by application cores or a one-word READ by a session delivers. -/
def deliverRead (who : Who) (v : W64) (s : State) : State :=
  match who with
  | .cores p => emit (.load p v) s
  | .session n => emit (.reply n 0#32 .ok [v]) s

/-! ## The commands -/

/-- REG_WRITE (R425). -/
def execRegWrite (who : Who) (off bytes : Nat) (value : W64) (s : State) : Host.Outcome State Fault Refusal :=
  running s (fun t => if windowUp t who then endWrite who off (writeReg who off bytes value t) else t)

/-- REG_READ (R425). -/
def execRegRead (who : Who) (off bytes : Nat) (s : State) : Host.Outcome State Fault Refusal :=
  running s (fun t => if windowUp t who then
    let (v, t1) := readReg who off bytes t
    deliverRead who v t1 else t)

/-- TK_APPLY_AT_ARM (R24). -/
def execTkApplyAtArm (who : Who) (tick : W64) (s : State) : Host.Outcome State Fault Refusal :=
  running s (writeCmd who .tkApplyAt 0 0 (fun t => if packageRights t who then armWrite tick.toNat t else Wr.drops 0 t))

/-- TK_APPLY_AT_DISARM (R24). -/
def execTkApplyAtDisarm (who : Who) (s : State) : Host.Outcome State Fault Refusal :=
  running s (writeCmd who .tkApplyAt 0 0 (fun t => if packageRights t who then armWrite 0 t else Wr.drops 0 t))

/-- SM_TENANT_WRITE (R195). -/
def execSmTenantWrite (who : Who) (t : Nat) (value : BitVec 128) (s : State) : Host.Outcome State Fault Refusal :=
  running s (writeCmd who .smTenant t 0 (fun u =>
    if t < 4096 then tenantWordsWrite who t (some (value.setWidth 64)) (some ((value >>> 64).setWidth 64)) u else Wr.drops 2 u))

/-- SM_LAT_WINDOW_WRITE (R200). -/
def execSmLatWindowWrite (who : Who) (value : W64) (s : State) : Host.Outcome State Fault Refusal :=
  running s (writeCmd who .smLatWindow 0 0 (latWindowWrite who value))

/-- CT_LOAD_REQ (R254). -/
def execCtLoadReq (who : Who) (value : W64) (s : State) : Host.Outcome State Fault Refusal :=
  running s (writeCmd who .ctLoadReq 0 0 (loadReq who value))

/-- PREEMPT (R359). -/
def execPreempt (who : Who) (j : Nat) (s : State) : Host.Outcome State Fault Refusal :=
  running s (writeCmd who .agReq 0 0 (agRequest who j false fun a x => preemptReq a x who j))

/-- RESUME (R361). -/
def execResume (who : Who) (j : Nat) (s : State) : Host.Outcome State Fault Refusal :=
  running s (writeCmd who .agReq 0 0 (agRequest who j false fun a x => resumeReq a x who j))

/-- RECOVER (R357). -/
def execRecover (who : Who) (j pkg : Nat) (s : State) : Host.Outcome State Fault Refusal :=
  running s (writeCmd who .agReq 0 0 (agRequest who j true fun a x => recoverReq a x who j pkg))

/-- SHRINK (R358). -/
def execShrink (who : Who) (j pkg : Nat) (s : State) : Host.Outcome State Fault Refusal :=
  running s (writeCmd who .agReq 0 0 (agRequest who j true fun a x => shrinkReq a x who j pkg))

/-- EXPORT (R362). -/
def execExportImage (who : Who) (j rd region : Nat) (s : State) : Host.Outcome State Fault Refusal :=
  running s (writeCmd who .agReq 0 0 (agRequest who j false fun a x => exportReq a x who j rd region))

/-- WN_PKG_WRITE (R428). -/
def execWnPkgWrite (who : Who) (value : W64) (s : State) : Host.Outcome State Fault Refusal :=
  running s (writeCmd who .wnPkg 0 0 (fun t => if packageRights t who then pkgWrite value t else Wr.drops 0 t))

/-- SC_ATTEST_REQ (R400). -/
def execScAttestReq (who : Who) (value : W64) (nonce : List Byte) (s : State) : Host.Outcome State Fault Refusal :=
  running s (writeCmd who .scAttestReq 0 0 (attestWrite who value nonce))

/-- WN_HOT_REQ (R420): the image is the one staged by BULK_WRITE, and the operand says whether its signature verifies. -/
def execWnHotReq (who : Who) (value : W64) (sigValid : Bool) (s : State) : Host.Outcome State Fault Refusal :=
  running s (writeCmd who .wnHotReq 0 0 fun t => hotReq who value (stagedHot sigValid t) t)

end Sys2Proof.Machine
end

