-- ==== Sys2Proof/Machine/Security.lean ====
section
/-!
DEFINITION. The security core's sessions and attestation (R397 to R400) and the management messages (R429 to R431).
-/

namespace Sys2Proof.Machine

/-! ## Opening a session (R399) -/

/-- The session key of a KEY_INDEX (R398). -/
def sessKey (s : State) (k : Nat) : Option SessKey := s.wn.bootImage.bind fun b => b.sessionKeys[k]?

/-- Components 1 and 2 both serve: with either FAILED no session opens and no attestation is served (R418). -/
def scServes (s : State) : Bool := decide (compState s 1 ≠ 2) && decide (compState s 2 ≠ 2)

/-- A failed authentication: counted, and after 8 in a row HELLOs are locked out. -/
def authFailed (s : State) : State :=
  emit (.authFailed .scAuthFailed)
    (bump .scAuthFails 0 { s with sc := { s.sc with failures := s.sc.failures + 1, authLocked := s.sc.authLocked || decide (7 ≤ s.sc.failures) } })

/-- The lowest session number that is free, from 1 to 64. -/
def freeSession (s : State) : Option Nat := ((List.range 64).map (· + 1)).find? fun n => (tabFind n s.sc.sessions).isNone

/-- HELLO (R399): the challenge and the ephemeral key, signed with DEVICE_KEY. -/
def hello (k qc : Nat) (s : State) : State :=
  if !scServes s then s
  else if s.sc.authLocked then emit (.authFailed .scAuthLocked) s
  else if (sessKey s k).isNone then authFailed s
  else if (freeSession s).isNone then emit (.authFailed .scSessionFull) s
  else
    let n := Config.entropy s.sc.draws 48
    let qp := Config.ephemeralKey s.sc.draws
    let text := beBytes 48 n ++ beBytes 96 qc ++ beBytes 96 qp ++ leBytes 16 s.fuses.deviceId.toNat
    emit (.challenge n qp (Config.deviceSign text))
      { s with sc := { s.sc with draws := s.sc.draws + 1, opening := s.sc.opening ++ [k] } }

/-- PROVE (R399): the session opens with the rights of its key. -/
def prove (k : Nat) (sigOk : Bool) (s : State) : State :=
  if !scServes s then s
  else match sessKey s k with
    | none => authFailed s
    | some key =>
      let s1 := { s with sc := { s.sc with opening := s.sc.opening.erase k } }
      if !s.sc.opening.contains k || !sigOk then authFailed s1
      else match freeSession s1 with
        | none => emit (.authFailed .scSessionFull) s1
        | some n =>
          let x : Sess := { keyIndex := k, package := key.package, mask := key.mask, view := 0, counter := 0, replies := [],
                            events := [], eventSeq := 1, lost := 0 }
          emit (.accepted n) { s1 with sc := { s1.sc with failures := 0, sessions := tabIns n x s1.sc.sessions } }

/-- A session ends: its record and its snapshots go; what it asked for completes (R402). -/
def closeSession (n : Nat) (s : State) : State :=
  { s with sc := { s.sc with sessions := tabDel n s.sc.sessions },
           wn := { s.wn with snaps := s.wn.snaps.filter fun x => decide (x.who ≠ .session n) } }

/-- SC_SESSION_IDLE (R399): 600 s without a message. -/
def sessionIdle (n : Nat) (s : State) : State :=
  match tabFind n s.sc.sessions with
  | some _ => closeSession n (emit (.outcome (.session n) .scSessionIdle) s)
  | none => s

/-! ## Messages (R429, R430) -/

/-- Answers a message and keeps the reply for the session's last 64 tags (R429). -/
def answer (n : Nat) (tag : W32) (st : Status) (ws : List W64) (s : State) : State :=
  match tabFind n s.sc.sessions with
  | none => s
  | some x =>
    let rs := x.replies ++ [(tag, st, ws)]
    let x' := { x with replies := rs.drop (rs.length - 64) }
    emit (.reply n tag st ws) { s with sc := { s.sc with sessions := tabIns n x' s.sc.sessions } }

/-- The frame of every message of an open session: component 8 answers it, a wrong MAC or counter closes the session, a tag
among the last 64 receives its kept reply (R399, R418, R429). -/
def message (h : Hdr) (f : Sess → State → State) (s : State) : State :=
  match tabFind h.session s.sc.sessions with
  | none => s
  | some x =>
    if compState s 8 = 2 then s
    else if !h.macOk || decide (h.counter ≤ x.counter) then
      closeSession h.session (emit (.outcome (.session h.session) .scSessionMac) s)
    else
      let x' := { x with counter := h.counter }
      let s1 := { s with sc := { s.sc with sessions := tabIns h.session x' s.sc.sessions } }
      match x.replies.find? fun r => decide (r.1 = h.tag) with
      | some r => emit (.reply h.session h.tag r.2.1 r.2.2) s1
      | none => f x' s1

/-- A message that needs package rights (R430). -/
def packageMessage (h : Hdr) (f : State → State) (s : State) : State :=
  message h (fun x t => if x.package then f t else answer h.session h.tag .wnDenied [] t) s

/-- Reads words one after another. -/
def readWords (who : Who) : Nat → Nat → State → List W64 × State
  | 0, _, s => ([], s)
  | n + 1, off, s =>
    let (v, s1) := readReg who off 8 s
    let (vs, s2) := readWords who n (off + 8) s1
    (v :: vs, s2)

/-- READ (R430). -/
def readMsg (h : Hdr) (off words : Nat) (s : State) : State :=
  message h (fun _ t =>
    if words = 0 ∨ 128 < words then answer h.session h.tag .mgmtMsgInvalid [] t
    else
      let (vs, t1) := readWords (.session h.session) words off t
      answer h.session h.tag .ok vs t1) s

/-- Writes words one after another: a status for each. -/
def writeWords (who : Who) : List W64 → Nat → State → List Status × State
  | [], _, s => ([], s)
  | v :: vs, off, s =>
    let w := writeReg who off 8 v s
    let s1 := match w.drop with
      | some k => recordDiscard who off k w.s
      | none => w.s
    let (ss, s2) := writeWords who vs (off + 8) s1
    (w.st :: ss, s2)

/-- WRITE (R430). -/
def writeMsg (h : Hdr) (off : Nat) (values : List W64) (s : State) : State :=
  message h (fun _ t =>
    if values.isEmpty ∨ 128 < values.length then answer h.session h.tag .mgmtMsgInvalid [] t
    else
      let (ss, t1) := writeWords (.session h.session) values off t
      answer h.session h.tag .ok (ss.map fun st => BitVec.ofNat 64 (codeOf st)) t1) s

/-- Whether a session may reach a region by BULK_WRITE and BULK_READ: the application cores of a partition of its mask own it
(R430). -/
def bulkAllowed (s : State) (x : Sess) (rd r : Nat) : Bool :=
  match regionOf s rd r with
  | some e => decide (56 ≤ e.owner) && decide (x.mask.toNat / 2 ^ e.part % 2 = 1)
  | none => false

/-- BULK_WRITE to its target. -/
def bulkPut (x : Sess) (t : BulkTarget) (off : Nat) (data : List Byte) (s : State) : Status × State :=
  match t with
  | .staging =>
    if !x.package then (.wnDenied, s)
    else if stagingBytes < off + data.length then (.mtAddrInvalid, s)
    else (.ok, putMem (bytesAt (stagingKey off) data) s)
  | .region rd r =>
    if !bulkAllowed s x rd r then (.wnDenied, s)
    else match regionOf s rd r with
      | none => (.wnDenied, s)
      | some e =>
        if e.len < off + data.length then (.mtAddrInvalid, s)
        else if e.sealed then (.mtReadOnly, s)
        else if anyFailed s (regionChans rd e (off - off % 64) ((off % 64 + data.length + 63) / 64)) then (.mtChannelFailed, s)
        else (.ok, writePlace rd r off data s)

/-- BULK_WRITE (R430). -/
def bulkWriteMsg (h : Hdr) (t : BulkTarget) (off : Nat) (data : List Byte) (s : State) : State :=
  message h (fun x u =>
    if data.isEmpty ∨ 8192 < data.length then answer h.session h.tag .mgmtMsgInvalid [] u
    else
      let (st, u1) := bulkPut x t off data u
      answer h.session h.tag st [] u1) s

/-- Bytes in 64-bit words, the last filled with zeros (log 9). -/
def packWords (bs : List Byte) : List W64 :=
  (List.range ((bs.length + 7) / 8)).map fun i => BitVec.ofNat 64 (leNat ((bs.drop (8 * i)).take 8))

/-- BULK_READ from its target. -/
def bulkGet (x : Sess) (t : BulkTarget) (off len : Nat) (s : State) : Except Status (List Byte) :=
  match t with
  | .staging =>
    if !x.package then .error .wnDenied
    else if stagingBytes < off + len then .error .mtAddrInvalid
    else .ok (memBytes s.mem (stagingKey off) len)
  | .region rd r =>
    if !bulkAllowed s x rd r then .error .wnDenied
    else match regionOf s rd r with
      | none => .error .wnDenied
      | some e => if e.len < off + len then .error .mtAddrInvalid else readPlace s ⟨rd, r, off⟩ len

/-- A POISON line that a bulk read met is counted (R179). -/
def bulkNote (t : BulkTarget) (off len : Nat) (s : State) : State :=
  match t with
  | .staging => s
  | .region rd r => noteRead ⟨rd, r, off⟩ len s

/-- BULK_READ (R430). -/
def bulkReadMsg (h : Hdr) (t : BulkTarget) (off len : Nat) (s : State) : State :=
  message h (fun x u =>
    if len = 0 ∨ 8192 < len then answer h.session h.tag .mgmtMsgInvalid [] u
    else match bulkGet x t off len u with
      | .ok bs => answer h.session h.tag .ok (packWords bs) u
      | .error st => answer h.session h.tag st [] (whenB (decide (st = .mtUncorrectable)) (bulkNote t off len) u)) s

/-- EVENT_ACK (R430, R431): events up to a number are acknowledged. -/
def eventAckMsg (h : Hdr) (seq : Nat) (s : State) : State :=
  message h (fun x t =>
    let x' := { x with events := x.events.filter fun e => decide (seq < e.1) }
    answer h.session h.tag .ok [] { t with sc := { t.sc with sessions := tabIns h.session x' t.sc.sessions } }) s

/-- Bytes of `n` records from number `first` on that a ring of `slots` records still holds, of `next` written. -/
def ringRecords (s : State) (base size slots next first n : Nat) : List W64 :=
  ((List.range n).filter fun i => decide (first + i < next) && decide (next ≤ first + i + slots)).flatMap fun i =>
    packWords (memBytes s.mem (base + (first + i) % slots * size) size)

/-- LOG_READ (R421, R430): the log rings lie on RD2 (R416, log 44). -/
def logReadMsg (h : Hdr) (ring first n : Nat) (s : State) : State :=
  packageMessage h (fun t =>
    if 63 < ring ∨ n = 0 ∨ 128 < n then answer h.session h.tag .mgmtMsgInvalid [] t
    else answer h.session h.tag .ok
      (ringRecords t (chanKey 47 (14926258176 + 1048576 * ring)) 64 16384 (tabGet 0 t.wn.logSeq ring) first n) t) s

/-- TRACE_READ (R422, R430). -/
def traceReadMsg (h : Hdr) (first n : Nat) (s : State) : State :=
  packageMessage h (fun t =>
    if n = 0 ∨ 256 < n then answer h.session h.tag .mgmtMsgInvalid [] t
    else answer h.session h.tag .ok (ringRecords t (chanKey 47 (14926258176 + 67108864)) 32 524288 t.wn.traceSeq first n) t) s

/-- CLOSE (R430). -/
def closeMsg (h : Hdr) (s : State) : State :=
  message h (fun _ t => closeSession h.session (answer h.session h.tag .ok [] t)) s

/-- MALFORMED_MESSAGE (R429, R430): dropped and counted; for a session it ends MGMT_MSG_INVALID. -/
def malformed (n : Nat) (s : State) : State :=
  if compState s 8 = 2 then s
  else
    let s1 := bump .wnDiscards 16 s
    if (tabFind n s.sc.sessions).isSome then emit (.reply n 0#32 .mgmtMsgInvalid []) s1 else s1

/-! ## Attestation (R400) -/

/-- A hash as its 48 bytes. -/
def hashBytes (h : Nat) : List Byte := beBytes 48 h

/-- FW_HASH: SHA-384 over the digests of the nine components in force (log 44). -/
def fwHash (s : State) : List Byte := sha384 ((List.range 9).flatMap fun c => hashBytes (getComp s (c + 1)).digest)

/-- The 128 bytes of a table entry. -/
def entryBytes (e : BitVec 1024) : List Byte := leBytes 128 e.toNat

/-- TABLE_HASH of a partition's report, or of the package's. -/
def tableHash (s : State) (share : Nat) : List Byte :=
  if share < 16 then
    sha384 (entryBytes (ptEntry s share) ++ (ptChans s.pt.chans share).map fun ch => BitVec.ofNat 8 (chanByte s.pt.chans ch))
  else sha384 ((List.range 16).flatMap (fun p => entryBytes (ptEntry s p)) ++ entryBytes s.pt.chans)

/-- The publisher list: 16 keys of 96 bytes. -/
def publisherBytes (ks : List Nat) : List Byte := (List.range 16).flatMap fun i => beBytes 96 (ks.getD i 0)

/-- The session-key list: 32 records of 104 bytes. -/
def sessKeyBytes (ks : List SessKey) : List Byte :=
  (List.range 32).flatMap fun i => match ks[i]? with
    | some k => beBytes 96 k.key ++ leBytes 2 (bit k.package) ++ leBytes 2 k.mask.toNat ++ leBytes 4 0
    | none => List.replicate 104 0#8

/-- A partition holds a grant, given or taken. -/
def holdsGrant (s : State) (p : Nat) : Bool :=
  s.mt.regions.any fun r => (decide (r.2.part = p) && decide (r.2.grant ≠ 0#16)) || r.2.grant.toNat / 2 ^ p % 2 == 1

/-- Bytes 0 to 415 of a report. -/
def reportBody (s : State) (share : Nat) (nonce : List Byte) : List Byte :=
  let e := ptEntry s share
  let flags := if share < 16 then ptFld e 0 7 7 + 2 * ptFld e 0 6 5 + 8 * bit (holdsGrant s share) else 0
  let img := s.wn.bootImage
  leBytes 4 0x54545341 ++ leBytes 2 1 ++ leBytes 2 0 ++ leBytes 8 s.tk.tick ++ nonce ++ leBytes 16 s.fuses.deviceId.toNat
    ++ leBytes 2 s.wn.pkg ++ leBytes 1 (if share < 16 then share else 0xFF) ++ leBytes 1 (codeBit s)
    ++ leBytes 8 s.fuses.securityVersion ++ leBytes 4 flags ++ hashBytes ((img.map (·.hash)).getD 0) ++ fwHash s ++ tableHash s share
    ++ sha384 (publisherBytes ((img.map (·.publishers)).getD [])) ++ sha384 (sessKeyBytes ((img.map (·.sessionKeys)).getD []))
    ++ List.replicate 80 0#8

/-- A report, signed with DEVICE_KEY. -/
def reportBytes (s : State) (share : Nat) (nonce : List Byte) : List Byte :=
  let b := reportBody s share nonce
  b ++ (Config.deviceSign b ++ List.replicate 96 0#8).take 96

/-- ATTEST_REPORT (R400): the request at the head of the queue is served. A buffer that has gone meanwhile receives nothing. -/
def attestReport (s : State) : State :=
  if !scServes s then s
  else match s.sc.attest with
    | [] => s
    | (share, rd, buf, nonce) :: t =>
      let s1 := { s with sc := { s.sc with attest := t } }
      match attestBuffer s1 share rd buf with
      | .error st => setAttestView share st s1
      | .ok (h, off) => setAttestView share .ok (writePlace rd h off (reportBytes s1 share nonce) s1)

/-! ## The commands -/

/-- ATTEST_REPORT (R400). -/
def execAttestReport (s : State) : Host.Outcome State Fault Refusal := running s attestReport

/-- HELLO (R399). -/
def execHello (keyIndex qc : Nat) (s : State) : Host.Outcome State Fault Refusal := running s (hello keyIndex qc)

/-- PROVE (R399). -/
def execProve (keyIndex : Nat) (sigOk : Bool) (s : State) : Host.Outcome State Fault Refusal := running s (prove keyIndex sigOk)

/-- SC_SESSION_IDLE (R399). -/
def execScSessionIdle (n : Nat) (s : State) : Host.Outcome State Fault Refusal := running s (sessionIdle n)

/-- SC_AUTH_LOCK_END (R399): 60 s have passed. -/
def execScAuthLockEnd (s : State) : Host.Outcome State Fault Refusal :=
  running s (fun t => { t with sc := { t.sc with authLocked := false, failures := 0 } })

/-- READ (R430). -/
def execRead (h : Hdr) (off words : Nat) (s : State) : Host.Outcome State Fault Refusal := running s (readMsg h off words)

/-- WRITE (R430). -/
def execWrite (h : Hdr) (off : Nat) (values : List W64) (s : State) : Host.Outcome State Fault Refusal :=
  running s (writeMsg h off values)

/-- BULK_WRITE (R430). -/
def execBulkWrite (h : Hdr) (t : BulkTarget) (off : Nat) (data : List Byte) (s : State) : Host.Outcome State Fault Refusal :=
  running s (bulkWriteMsg h t off data)

/-- BULK_READ (R430). -/
def execBulkRead (h : Hdr) (t : BulkTarget) (off len : Nat) (s : State) : Host.Outcome State Fault Refusal :=
  running s (bulkReadMsg h t off len)

/-- EVENT_ACK (R431). -/
def execEventAck (h : Hdr) (seq : Nat) (s : State) : Host.Outcome State Fault Refusal := running s (eventAckMsg h seq)

/-- LOG_READ (R430). -/
def execLogRead (h : Hdr) (ring first count : Nat) (s : State) : Host.Outcome State Fault Refusal :=
  running s (logReadMsg h ring first count)

/-- TRACE_READ (R430). -/
def execTraceRead (h : Hdr) (first count : Nat) (s : State) : Host.Outcome State Fault Refusal :=
  running s (traceReadMsg h first count)

/-- CLOSE (R430). -/
def execClose (h : Hdr) (s : State) : Host.Outcome State Fault Refusal := running s (closeMsg h)

/-- MALFORMED_MESSAGE (R430). -/
def execMalformedMessage (session : Nat) (s : State) : Host.Outcome State Fault Refusal := running s (malformed session)

end Sys2Proof.Machine
end

