-- ==== Sys2Proof/Machine/Boot.lean ====
section
/-!
DEFINITION. Boot image, start-up, boot service, resets and firmware components (R404 to R420, R462).
-/

namespace Sys2Proof.Machine

/-! ## The checks of R408 -/

/-- Whether an image holds an entry of a type. -/
def imgHas (b : BootImage) (t : Nat) : Bool := b.entries.any fun e => decide (e.type = t)

/-- End of the last entry. -/
def imgTop (b : BootImage) : Nat := (b.entries.map fun e => e.offset + e.bytes).foldl max 0

/-- No two entries overlap. -/
def entriesApart : List BootEntry → Bool
  | [] => true
  | e :: t => (t.all fun f => decide (e.offset + e.bytes ≤ f.offset) || decide (f.offset + f.bytes ≤ e.offset)) && entriesApart t

/-- Header, directory and types (R406, R407). -/
def imgFormed (b : BootImage) : Bool :=
  let n := b.entries.length
  decide (b.magic = 0x54424C43) && decide (b.format = 1) && decide (1 ≤ n) && decide (n ≤ 64) && decide (b.imageBytes ≤ 201326592)
    && b.reservedZero && decide (b.sigOffset = (imgTop b + 63) / 64 * 64) && decide ((b.entries.map (·.type)).Nodup)
    && (b.entries.all fun e => decide (1 ≤ e.type) && decide (e.type ≤ 15) && decide (e.offset % 4096 = 0)
        && decide (256 + 64 * n ≤ e.offset) && decide (1 ≤ e.bytes) && decide (e.offset + e.bytes ≤ b.imageBytes))
    && entriesApart b.entries && [1, 2, 3, 4, 5, 6, 7, 10, 11, 13].all (imgHas b)

/-- The tick setting of an image. -/
def imgCfg (b : BootImage) : TickCfg := ⟨fld b.tick 15 0, fld b.tick 31 16, fld b.tick 47 32⟩

/-- A port as its word of FABRIC_PORTS binds it (R338): a word whose RTT_US is 0 binds no port (log 44). -/
def portOf (w : W64) : Port :=
  { portReset with state := if fld w 21 17 = 0 then .unbound else .down, width := 2 ^ fld w 3 2, pmd := fld w 5 4,
                   peer := fld w 15 6, switched := flag w 16, rttUs := fld w 21 17 }

/-- The ports of an image. -/
def imgPorts (b : BootImage) : Tab Port :=
  if imgHas b 8 then (b.fabricPorts.filter fun e => decide (e.1 < 256) && decide (fld e.2 21 17 ≠ 0)).map fun e => (e.1, portOf e.2)
  else []

/-- The rules of a binding (R322, R338). -/
def portsLegal (b : BootImage) : Bool :=
  (b.fabricPorts.all fun e => decide (e.1 < 256) && decide (fld e.2 1 0 = 0) && decide (fld e.2 63 22 = 0))
    && (imgPorts b).all fun e =>
      let p := e.2
      decide (e.1 % p.width = 0) && decide (p.rttUs ≤ 20) && decide (p.pmd < 3) && (!p.switched || decide (p.peer = 0))
        && (imgPorts b).all fun f => decide (f.1 ≤ e.1) || decide (e.1 + p.width ≤ f.1)

/-- The contents pass R21, R23, R322, R387, R176 and the rules of their registers (R181). -/
def imgLegal (b : BootImage) : Bool :=
  cfgLegal (imgCfg b) && decide (fld b.tick 63 48 = 0)
    && decide (fld b.tickSync 1 0 ≠ 3) && decide (50 ≤ fld b.tickSync 47 32) && decide (fld b.tickSync 15 2 = 0)
    && decide (fld b.tickSync 63 48 = 0)
    && [28, 32, 36, 40].contains (fld b.memory 5 0) && decide (fld b.memory 22 6 = 0) && decide (fld b.memory 63 43 = 0)
    && decide (500 ≤ fld b.memory 42 23) && decide (fld b.memory 42 23 ≤ 1000000)
    && (!imgHas b 8 || portsLegal b) && (tableCheck b.parts b.chans (imgPorts b) false).isNone && decide (b.pkg < 1024)
    && (!imgHas b 9 || b.envPorts.all fun e => decide (e.1 < 16) && decide (e.2.vlan < 4096) && decide (e.2.part < 16))
    && (!imgHas b 14 || b.tenants.all fun e =>
        decide (e.1 < 4096) && decide (e.2.toNat / 2 ^ 5 % 8 = 0) && decide (e.2.toNat / 2 ^ 112 = 0))
    && (!imgHas b 15 || (decide (1 ≤ b.latWindow) && decide (b.latWindow ≤ 65535)))
    && decide (b.publishers.length ≤ 16) && decide (b.sessionKeys.length ≤ 32)

/-- R408's checks of an image in their order. -/
def bootCheck (s : State) (x : Option BootImage) : Status :=
  match x with
  | none => .bootFlashError
  | some b =>
    if !imgFormed b then .bootImageInvalid
    else if !rootKnown s b.rootKeyHash then .bootRootRevoked
    else if !b.sigValid then .bootSignatureInvalid
    else if !b.digestsValid then .bootImageInvalid
    else if b.securityVersion < s.fuses.securityVersion then .bootVersionOld
    else if !imgLegal b then .bootConfigInvalid
    else .ok

/-! ## Start-up (R409 to R412) -/

/-- Boot service (R411), entered with the last completed step of R409. -/
def enterService (stage image : Nat) (primary recovery : Status) (s : State) : State :=
  { s with edge := { s.edge with power := .service },
           wn := { s.wn with stage := stage, image := image, service := true, primary := primary, recovery := recovery } }

/-- ORIGIN of an entry that comes from the boot image is 0 BOOT (R386, log 36). -/
def bootEntry (e : BitVec 1024) : BitVec 1024 := BitVec.ofNat 1024 (e.toNat - ptFld e 0 6 5 * 2 ^ 5)

/-- A tenant as TENANTS gives it, with a full balance when VALID (R195, R407). -/
def bootTenant (v : BitVec 128) : Tenant :=
  let cap := v.toNat / 2 ^ 40 % 2 ^ 32
  let valid := v.toNat / 2 ^ 4 % 2 == 1
  { part := v.toNat % 16, valid := valid, rate := v.toNat / 2 ^ 8 % 2 ^ 32, cap := cap, balance := if valid then 256 * cap else 0,
    lastShort := 0, win := (0, 0, 0, 0), lat := (0, 0, 0, 0) }

/-- Directory entry that carries a component (R407). -/
def compType (c : Nat) : Nat := if c ≤ 2 then 1 else if c ≤ 4 then 2 else if c ≤ 8 then 3 else 4

/-- A component as the boot image brings it. -/
def bootComp (b : BootImage) (c : Nat) : Comp :=
  { state := 0, stateVersion := b.stateVersions.getD (c - 1) 0, version := b.compVersions.getD (c - 1) 0, faults := [],
    digest := ((b.entries.find? fun e => decide (e.type = compType c)).map (·.digest)).getD 0 }

/-- The firmware processor that runs a component (R413): 0 the security core, 1 the power-management core, 2 the scheduler core,
3 a cluster control core. -/
def compCore (c : Nat) : Nat := if c ≤ 2 then 0 else if c ≤ 4 then 1 else if c ≤ 8 then 2 else 3

/-- Places the code of a component in the private memory of a processor, over what was there of it. -/
def placeCode (core : Nat) (x : CodeIn) (s : State) : State :=
  { s with wn := { s.wn with srams := s.wn.srams.zipIdx.map fun m =>
      if m.2 = core then { m.1 with code := m.1.code.filter (fun y => decide (y.component ≠ x.component)) ++ [x] } else m.1 } }

/-- The code of a component as the boot image brings it. -/
def bootCode (b : BootImage) (c : Nat) : CodeIn := ⟨c, (bootComp b c).version, (bootComp b c).digest⟩

/-- Step 2 of R409: the ROM places FW_SEC, FW_PM, and FW_SCHED with FW_CLUSTER as the image passes. -/
def placeImage (b : BootImage) (s : State) : State :=
  forEach ((List.range 9).map (· + 1)) (fun c t => placeCode (min 2 (compCore c)) (bootCode b c) t) s

/-- A table with another kind of value. -/
def tabMapTo {α β : Type} (f : α → β) (t : Tab α) : Tab β := t.map fun e => (e.1, f e.2)

/-- Steps 1 to 10 of R409 on an image that passes: tick 0 starts, with nothing latched at its intake edge. -/
def bootApply (b : BootImage) (image : Nat) (primary recovery : Status) (s : State) : State :=
  let s1 := { s with
    edge := { s.edge with power := .running, pulseNs := 1000 }
    fuses := { s.fuses with securityVersion := max s.fuses.securityVersion (min 64 b.securityVersion) }
    tk := { s.tk with cfg := imgCfg b, next := imgCfg b, started := true, tick := 0, phase := .step, startNs := 0,
                      role := fld b.tickSync 1 0, cableDelayNs := fld b.tickSync 31 16, lockLimitNs := fld b.tickSync 47 32 }
    mt := { s.mt with dataRate := fld b.memory 5 0, retrainPeriod := fld b.memory 42 23 }
    gen := { s.gen with tenants := if imgHas b 14 then tabMapTo bootTenant b.tenants else [],
                        latWindow := if imgHas b 15 then b.latWindow else 1000 }
    sq := { s.sq with ports := imgPorts b }
    envPorts := if imgHas b 9 then tabMapTo (fun r => ⟨r, false⟩) b.envPorts else []
    pt := { s.pt with table := tabMapTo bootEntry b.parts, chans := b.chans }
    pm := { s.pm with pgood := List.range 64 }
    wn := { s.wn with stage := 10, image := image, service := false, primary := primary, recovery := recovery, build := b.build,
                      pkg := b.pkg, comps := (List.range 9).map (fun i => (i + 1, bootComp b (i + 1))), bootImage := some b } }
  let kept := s1.units.filter fun e => (getUnit s1 e.1).suspectOvf
  let s2 := { placeCode 3 (bootCode b 9) s1 with units := kept.map fun e => (e.1, { unitReset s1 e.1 with suspectOvf := true }) }
  emit (.pulse 1000) (forEach ((validParts s2.pt.table).map (·.1)) (fun p t => placeTables p (coreRegions p t)) (powerChans s2))

/-- Start-up from step 2 on one device: the code is placed as the image passes; hardware failures lead to boot service, a failed
image to `failed`. -/
def tryImage (env : StartEnv) (x : Option BootImage) (reread : Bool) (image : Nat) (primary recovery : Status)
    (failed : Nat → Status → State → State) (s : State) : State :=
  let st := bootCheck s x
  match x with
  | none => failed 1 st s
  | some b =>
    let t := placeImage b s
    if st ≠ .ok then failed 2 st t
    else if !env.deadDies.isEmpty then enterService 4 image .bootDieFailed recovery t
    else if !env.deadDevices.isEmpty then enterService 5 image .bootMemoryFailed recovery t
    else if !reread then failed 6 .bootImageInvalid t
    else bootApply b image primary recovery t

/-- START_UP (R409, R410): the primary image, then the recovery image, then boot service. -/
def startUp (env : StartEnv) (s : State) : State :=
  if s.edge.power ≠ .released then s
  else
    let s1 := { s with fuses := { s.fuses with applied := min 2048 s.fuses.repair.length } }
    tryImage env s1.edge.flash0 env.reread0 0 .ok .ok
      (fun _ p t => tryImage env t.edge.flash1 env.reread1 1 p .ok (fun stage r u => enterService stage 1 p r u) t) s1

/-! ## Resets (R12, R14, R462) -/

/-- What every loss of die power leaves: the state of reset, with the fuses, the flash devices, the nonvolatile cell and the
model's own records (log 9). -/
def powerLost (s : State) : State :=
  { State.reset with
    pending := s.pending, free := s.free, out := s.out, fuses := { s.fuses with applied := 0 },
    edge := { State.reset.edge with flash0 := s.edge.flash0, flash1 := s.edge.flash1, brownCell := s.edge.brownCell,
                                    brownout := s.edge.brownout },
    sc := { State.reset.sc with draws := s.sc.draws } }

/-- Package reset (R462 step 4): every field that R14 resets; the ST fields and the peak temperatures stay. -/
def packageReset (s : State) : State :=
  let t := powerLost s
  { t with
    ovfs := s.ovfs, repairFull := s.repairFull,
    units := (s.units.filter fun e => (getUnit s e.1).suspectOvf).map fun e => (e.1, { unitReset t e.1 with suspectOvf := true }),
    tk := { t.tk with tickOvf := s.tk.tickOvf, syncLost := s.tk.syncLost },
    lrn := { t.lrn with libOvf := s.lrn.libOvf }, pm := { t.pm with peak := s.pm.peak },
    edge := { t.edge with power := .inReset, pwrGood := true, lowInput := s.edge.lowInput } }

/-- POWER_ON_RESET (R462 steps 1 and 2): PWR_GOOD rises, RST_N is still low. A device changed on the carrier while unpowered
holds its new contents. -/
def powerOn (f0 f1 : Option BootImage) (s : State) : State :=
  if s.edge.power = .off ∨ s.edge.power = .tripped then
    let t := powerLost s
    { t with edge := { t.edge with power := .inReset, pwrGood := true, brownout := s.edge.brownCell,
                                   flash0 := if f0.isSome then f0 else s.edge.flash0,
                                   flash1 := if f1.isSome then f1 else s.edge.flash1 } }
  else s

/-- RST_N_RELEASE (R462 step 3): the TAP goes back to Test-Logic-Reset (R465). -/
def release (s : State) : State :=
  if s.edge.power = .inReset then
    { s with edge := { s.edge with power := .released, rstN := true, jtag := .bypass, bypassBit := false } }
  else s

/-- PACKAGE_RESET (R462 step 4): a pulse shorter than 10 µs is ignored, and one on an unpowered package has no effect (R466).
After a REFCLK loss it makes the package start again, and PWR_GOOD rises (R459, log 45). -/
def resetPin (ns : Nat) (s : State) : State :=
  if ns < 10000 ∨ s.edge.power = .off ∨ s.edge.power = .tripped then s else packageReset s

/-- BROWNOUT (R457, R458): every die loses power, PWR_GOOD falls, and the cause goes into the nonvolatile cell. -/
def brownOut (rstLow : Bool) (s : State) : State :=
  if s.edge.power = .off then s
  else
    let t := powerLost s
    { t with edge := { t.edge with brownCell := !rstLow } }

/-- REFCLK_LOSS (R459): die power goes and PWR_GOOD stays low until RST_N has been pulsed with REFCLK back. -/
def refclkLost (s : State) : State :=
  match s.edge.power with
  | .released => { packageReset s with edge := { (packageReset s).edge with power := .clockLost, pwrGood := false, rstN := true } }
  | .service => { packageReset s with edge := { (packageReset s).edge with power := .clockLost, pwrGood := false, rstN := true } }
  | .running => { packageReset s with edge := { (packageReset s).edge with power := .clockLost, pwrGood := false, rstN := true } }
  | _ => s

/-- THERMAL_TRIP (R444, R464): at 110 °C on any die. -/
def thermalTrip (temp : Nat) (s : State) : State :=
  match s.edge.power with
  | .off => s
  | .inReset => s
  | .tripped => s
  | .clockLost => s
  | _ =>
    if temp < 110 then s
    else
      let t := packageReset s
      { t with edge := { t.edge with power := .tripped, pwrGood := false, thermTrip := true, rstN := s.edge.rstN } }

/-! ## Flash programming (R405) -/

/-- Contents of a flash device. -/
def setFlash (device : Nat) (x : Option BootImage) (s : State) : State :=
  if device = 0 then { s with edge := { s.edge with flash0 := x } } else { s with edge := { s.edge with flash1 := x } }

/-- FLASH_WRITE (R405): after a failure the device's contents are not guaranteed: a free value chooses whether the device still
holds an image (log 43). -/
def programFlash (device : Nat) (b : BootImage) (readBack : Bool) (s : State) : Status × State :=
  if bootCheck s (some b) = .ok ∧ readBack then (.ok, emit (.flashed device) (setFlash device (some b) s))
  else
    let (f, t) := takeFree s
    let old := if device = 0 then t.edge.flash0 else t.edge.flash1
    (.flashWriteFailed, setFlash device (if flag f 0 then old else none) t)

/-- FLASH_WRITE as a message of a session (R430). -/
def flashMsg (h : Hdr) (device : Nat) (b : BootImage) (readBack : Bool) (s : State) : State :=
  packageMessage h (fun t =>
    if 1 < device then answer h.session h.tag .mgmtMsgInvalid [] t
    else
      let (st, u) := programFlash device b readBack t
      answer h.session h.tag st [] u) s

/-- RESET as a message of a session (R430, R462): identical to RST_N held low and released. -/
def resetMsg (h : Hdr) (s : State) : State :=
  packageMessage h (fun t => release (packageReset (answer h.session h.tag .ok [] t))) s

/-! ## Boot service (R411) -/

/-- A reply of boot service, which has no session number of its own. -/
def bootReply (st : Status) (ws : List W64) (s : State) : State := emit (.reply 0 0#32 st ws) s

/-- A word of the WN block as the package view shows it. -/
def wnWord (s : State) (off : Nat) : W64 :=
  let caps := capWords 0 (capRecords s 16)
  if off < 0x10000 then BitVec.ofNat 64 (caps.getD (off / 8) 0)
  else match regAt off with
    | some (r, i, w) => (elemWords s (.session 0) 16 r i (regBytes r)).getD w 0#64
    | none => 0#64

/-- BOOT_SERVICE (R411): a session whose key's hash is an unrevoked ROOT_HASH; every other message ends WN_DENIED. -/
def bootService (keyHash : Nat) (m : BootMsg) (s : State) : State :=
  if s.edge.power ≠ .service then s
  else if !rootKnown s keyHash then emit (.authFailed .scAuthFailed) (bump .scAuthFails 0 s)
  else match m with
    | .readWn off n =>
      if n = 0 ∨ 128 < n then bootReply .mgmtMsgInvalid [] s
      else if 0x100000 < off + 8 * n ∨ off % 8 ≠ 0 then bootReply .wnDenied [] s
      else bootReply .ok ((List.range n).map fun i => wnWord s (off + 8 * i)) s
    | .bulkWriteStaging off data =>
      if data.isEmpty ∨ 8192 < data.length then bootReply .mgmtMsgInvalid [] s
      else if stagingBytes < off + data.length then bootReply .mtAddrInvalid [] s
      else bootReply .ok [] (putMem (bytesAt (stagingKey off) data) s)
    | .flashWrite device image ok =>
      if 1 < device then bootReply .mgmtMsgInvalid [] s
      else
        let (st, t) := programFlash device image ok s
        bootReply st [] t
    | .reset => release (packageReset (bootReply .ok [] s))
    | .other => bootReply .wnDenied [] s

/-! ## Firmware components (R414 to R420) -/

/-- Faults of a component that still count (R418). -/
def recentFaults (tick : Nat) (l : List Nat) : List Nat := l.filter fun t => decide (tick < t + 4096)

/-- Every job is torn down (R418). -/
def tearAll (s : State) : State := forEach (s.jobs.map (·.1)) (fun j t => decideEnd j .tornDown .tornDown t) s

/-- What a FAILED component brings (R418). -/
def compFailed (c : Nat) (s : State) : State :=
  let s1 := raise .wnComponentFailed 0xFF c s
  if 3 ≤ c ∧ c ≤ 8 then tearAll s1 else s1

/-- A fault of component 1 to 8 (R417): it restarts, or the third fault within 4,096 ticks makes it FAILED. -/
def compFault (c : Nat) (s : State) : State :=
  let x := getComp s c
  if x.state ≠ 0 then s
  else
    let l := recentFaults s.tk.tick x.faults ++ [s.tk.tick]
    let fail := decide (3 ≤ l.length)
    let x' : Comp := { x with faults := l, state := if fail then 2 else 1 }
    let s1 := raise .wnComponentFault 0xFF c { s with wn := { s.wn with comps := tabIns c x' s.wn.comps } }
    if fail then compFailed c s1 else s1

/-- The CLUSTER instance of a control core. -/
def getCore (s : State) (cl : Nat) : Comp := tabGet ⟨0, 0, 0, [], 0⟩ s.wn.cores cl

/-- A fault of a CLUSTER instance (R417, R418): the job of its cluster falls alone; the third fault holds the cluster at Dusk. -/
def coreFault (cl : Nat) (s : State) : State :=
  let x := getCore s cl
  if 1792 ≤ cl ∨ x.state ≠ 0 then s
  else
    let l := recentFaults s.tk.tick x.faults ++ [s.tk.tick]
    let fail := decide (3 ≤ l.length)
    let x' : Comp := { x with faults := l, state := if fail then 2 else 1 }
    let s1 := raise .wnComponentFault 0xFF (9 + 16 * cl) { s with wn := { s.wn with cores := tabIns cl x' s.wn.cores } }
    let s2 := match (getCl s1 cl).owner with
      | some (_, _, j) => decideEnd j .tornDown .tornDown s1
      | none => s1
    let s3 := modCl cl (fun c => { c with coreDown := true }) s2
    if fail then modCl cl (fun c => { c with pm := .dusk }) (raise .wnComponentFailed 0xFF (9 + 16 * cl) s3) else s3

/-- COMPONENT_FAULT (R417). -/
def componentFault (c inst : Nat) (s : State) : State :=
  if c = 9 then coreFault inst s else if 1 ≤ c ∧ c ≤ 8 then compFault c s else s

/-- The points at which boundary work is done: after W. -/
def afterWork (s : State) : Bool := match s.tk.phase with
  | .drain => true
  | .slot => true
  | .boundary => true
  | _ => false

/-- Restart of a component at a boundary (R417): it has its code again and resumes at the next intake edge. State 3 stands for
that interval and reads as RESTARTING. -/
def restartComp (c : Nat) (s : State) : State :=
  let x := getComp s c
  if x.state = 1 then
    let x' : Comp := { x with state := 3 }
    bump .wnRestarts c (placeCode (compCore c) ⟨c, x.version, x.digest⟩ { s with wn := { s.wn with comps := tabIns c x' s.wn.comps } })
  else s

/-- Restart of a CLUSTER instance: the pool is zeroed (R103, R417). -/
def restartCore (cl : Nat) (s : State) : State :=
  let x := getCore s cl
  if x.state = 1 then
    let x' : Comp := { x with state := 3 }
    bump .wnRestarts 9 (zeroMem (poolKey cl 0) 0x400000 { s with wn := { s.wn with cores := tabIns cl x' s.wn.cores } })
  else s

/-- COMPONENT_RESTART (R417). -/
def componentRestart (c inst : Nat) (s : State) : State :=
  if !afterWork s then s
  else if c = 9 then restartCore inst s
  else restartComp c s

/-- Every restart that is due at a boundary. -/
def restartAll (s : State) : State :=
  forEach (s.wn.cores.map (·.1)) restartCore (forEach ((List.range 8).map (· + 1)) restartComp s)

/-- Restarted components resume at the intake edge. -/
def resumeComps (s : State) : State :=
  let back := (s.wn.cores.filter fun e => decide (e.2.state = 3)).map (·.1)
  let up := fun (x : Comp) => ({ x with state := if x.state = 3 then 0 else x.state } : Comp)
  forEach back (modCl · fun c => { c with coreDown := false })
    { s with wn := { s.wn with comps := tabMap (fun _ x => up x) s.wn.comps, cores := tabMap (fun _ x => up x) s.wn.cores } }

/-- The new image of a component comes into force: a FAILED component runs again (R418, R420). -/
def installComp (h : HotPend) (s : State) : State :=
  let x := getComp s h.component
  let x' : Comp := { state := if x.state = 2 then 0 else x.state, stateVersion := h.image.stateOut, version := h.image.version,
                     faults := if x.state = 2 then [] else x.faults, digest := h.image.digest }
  let s1 := placeCode (compCore h.component) ⟨h.component, h.image.version, h.image.digest⟩
    { s with wn := { s.wn with comps := tabIns h.component x' s.wn.comps, hot := none, hotLast := .ok } }
  if h.component = 9 then
    let failed := (s1.wn.cores.filter fun e => decide (e.2.state = 2)).map (·.1)
    let up := fun (y : Comp) => ({ y with state := if y.state = 2 then 0 else y.state, faults := if y.state = 2 then [] else y.faults } : Comp)
    forEach failed (modCl · fun c => { c with coreDown := false })
      { s1 with wn := { s1.wn with cores := tabMap (fun _ y => up y) s1.wn.cores } }
  else s1

/-- HOT_SWITCH (R420, R436): at the boundary that ends tick AT − 1. A fault of the component in that tick ends the update. -/
def hotSwitch (s : State) : State :=
  match s.wn.hot with
  | none => s
  | some h =>
    if !afterWork s ∨ s.tk.tick + 1 < h.tickAt then s
    else if h.component ≠ 9 ∧ (getComp s h.component).faults.contains s.tk.tick then
      { s with wn := { s.wn with hot := none, hotLast := .hotAborted } }
    else installComp h s

/-! ## The commands -/

/-- START_UP (R409). -/
def execStartUp (env : StartEnv) (s : State) : Host.Outcome State Fault Refusal := .next (startUp env s)

/-- BOOT_SERVICE (R411). -/
def execBootService (keyHash : Nat) (m : BootMsg) (s : State) : Host.Outcome State Fault Refusal := .next (bootService keyHash m s)

/-- FLASH_WRITE (R405). -/
def execFlashWrite (h : Hdr) (device : Nat) (image : BootImage) (ok : Bool) (s : State) : Host.Outcome State Fault Refusal :=
  running s (flashMsg h device image ok)

/-- RESET (R462). -/
def execReset (h : Hdr) (s : State) : Host.Outcome State Fault Refusal := running s (resetMsg h)

/-- POWER_ON_RESET (R462). -/
def execPowerOnReset (f0 f1 : Option BootImage) (s : State) : Host.Outcome State Fault Refusal := .next (powerOn f0 f1 s)

/-- RST_N_RELEASE (R462). -/
def execRstNRelease (s : State) : Host.Outcome State Fault Refusal := .next (release s)

/-- PACKAGE_RESET (R462). -/
def execPackageReset (ns : Nat) (s : State) : Host.Outcome State Fault Refusal := .next (resetPin ns s)

/-- BROWNOUT (R457): an overvoltage is handled as one. -/
def execBrownout (_over rstLow : Bool) (s : State) : Host.Outcome State Fault Refusal := .next (brownOut rstLow s)

/-- REFCLK_LOSS (R459). -/
def execRefclkLoss (s : State) : Host.Outcome State Fault Refusal := .next (refclkLost s)

/-- THERMAL_TRIP (R464). -/
def execThermalTrip (_die temp : Nat) (s : State) : Host.Outcome State Fault Refusal := .next (thermalTrip temp s)

/-- COMPONENT_FAULT (R417). -/
def execComponentFault (c inst : Nat) (s : State) : Host.Outcome State Fault Refusal := running s (componentFault c inst)

/-- COMPONENT_RESTART (R417). -/
def execComponentRestart (c inst : Nat) (s : State) : Host.Outcome State Fault Refusal := running s (componentRestart c inst)

/-- HOT_SWITCH (R420). -/
def execHotSwitch (s : State) : Host.Outcome State Fault Refusal := running s hotSwitch

end Sys2Proof.Machine
end

