-- ==== Sys2Proof/Machine/Power.lean ====
section
/-!
DEFINITION. Power states of clusters (R438 to R440) and the board-test port (R465).
-/

namespace Sys2Proof.Machine

/-! ## Haze and Mist (R439) -/

/-- The clusters that components 3 and 4 hold where one of them is FAILED stay at Mist (R418). -/
def heldAtMist (s : State) : Bool := decide (compState s 3 = 2) || decide (compState s 4 = 2)

/-- HAZE_ENTER: a unit's queue has been empty for 256 cycles of the tick. -/
def hazeEnter (cl u : Nat) (s : State) : State :=
  let c := getCl s cl
  match physOf s cl u with
  | none => s
  | some k =>
    if (s.tk.phase = .step ∨ s.tk.phase = .late) ∧ awake c ∧ (getQ c u).cards = [] ∧ tabFind u c.runs = none then
      modUnit k (fun x => { x with haze := true }) s
    else s

/-- HAZE_EXIT: every unit is back at Clear before the intake edge. -/
def hazeExit (s : State) : State := { s with units := tabMap (fun _ u => { u with haze := false }) s.units }

/-- Nothing of a cluster waits or runs. -/
def clIdle (c : Cluster) : Bool :=
  (c.queues.all fun q => q.2.cards.isEmpty) && c.runs.isEmpty && c.tier.isEmpty && c.colls.isEmpty && c.list.isNone
    && c.exec9.isNone

/-- The class window of the cluster's owner is closed; a cluster without an owner has none open. -/
def classClosed (s : State) (cl : Nat) : Bool := !listWindow s cl

/-- MIST_ENTER. -/
def mistEnter (cl : Nat) (s : State) : State :=
  let c := getCl s cl
  if awake c ∧ clIdle c ∧ classClosed s cl then
    forEach (List.range 8) (fun i => modUnit (8 * cl + i) fun u => { u with haze := false })
      (modCl cl (fun x => { x with pm := .mist }) s)
  else s

/-- MIST_EXIT: the clusters that hold a job are in Clear at the intake edge. -/
def mistExit (s : State) : State :=
  if heldAtMist s then s
  else { s with clusters := tabMap (fun _ c =>
    if c.pm = .mist ∧ c.owner.isSome then { c with pm := .clear } else c) s.clusters }

/-! ## Fog and Dusk (R439, R440) -/

/-- No accumulation of the cluster is open, and no unit of it is in test (R77). -/
def noOpenAcc (s : State) (cl : Nat) : Bool :=
  (List.range 8).all fun i =>
    let u := getUnit s (8 * cl + i)
    u.acc.isNone && decide (u.state ≠ .inTest)

/-- PM_SLEEP_APPLY: the first boundary after PM_SLEEP retires at which every queue is empty and no accumulation is open. Contents
written after the card was accepted keep the cluster awake while they have no copy (R94, log 92). -/
def sleepApply (cl : Nat) (s : State) : State :=
  let c := getCl s cl
  match c.sleep with
  | none => s
  | some (_, st) =>
    if afterWork s ∧ c.pm ≠ .fog ∧ c.pm ≠ .dusk ∧ clIdle c ∧ noOpenAcc s cl ∧ hasSource s cl then modCl cl (fun x => { x with pm := st }) s else s

/-- Every cluster that can go to sleep at a boundary does. -/
def sleepAll (s : State) : State :=
  forEach ((s.clusters.filter fun e => e.2.sleep.isSome).map (·.1)) sleepApply s

/-- A unit of a cluster that leaves Fog or Dusk: its contents are STALE until refilled and re-checksummed (R438). A unit that was
STALE starts anew, and one whose cards run in relief is filled as well (R87, R260). -/
def staleUnit (k : Nat) (s : State) : State :=
  let u := getUnit s k
  if 8 ≤ u.logical then s
  else
    let copy := !u.source.none
    whenB copy (queueRefill k) (modUnit k (fun x =>
      { x with state := if x.state = .available then .stale else x.state, refill := some (.running copy false) }) s)

/-- PM_WAKE: at the intake edge of tick WAKE_AT − WAKE_LEAD. WAKE_AT is presented until it is reached. -/
def wake (cl : Nat) (s : State) : State :=
  let c := getCl s cl
  match c.sleep with
  | none => s
  | some (lead, _) =>
    if s.tk.phase ≠ .step ∨ heldAtMist s ∨ c.coreDown ∨ s.tk.tick + lead < c.wakeAt then s
    else if c.pm = .fog ∨ c.pm = .dusk then
      forEach (List.range 8) (fun i => staleUnit (8 * cl + i))
        (modCl cl (fun x => { x with pm := .clear, sleep := none }) s)
    else modCl cl (fun x => { x with sleep := none }) s

/-- At an intake edge the clusters whose wake is due leave Fog or Dusk, and WAKE_AT falls to 0 once it is reached. -/
def wakeAll (s : State) : State :=
  let s1 := forEach ((s.clusters.filter fun e => e.2.sleep.isSome).map (·.1)) wake s
  { s1 with clusters := tabMap (fun _ c =>
      if c.sleep.isNone ∧ c.wakeAt ≤ s.tk.tick then { c with wakeAt := 0 } else c) s1.clusters }

/-- Every enabled unit of a cluster is AVAILABLE. -/
def allAvailable (s : State) (cl : Nat) : Bool :=
  (List.range 8).all fun i =>
    let u := getUnit s (8 * cl + i)
    !unitEnabled u || decide (u.state = .available)

/-- Whether the scheduler core posts run lists to a cluster: not from the boundary at which it sleeps until it is AVAILABLE
again; from WAKE_AT on its cards wait under R95 (R440). -/
def takesLists (s : State) (cl : Nat) : Bool :=
  let c := getCl s cl
  !decide (c.pm = .fog) && !decide (c.pm = .dusk)
    && (decide (c.wakeAt ≤ s.tk.tick) || c.sleep.isSome || allAvailable s cl)

/-! ## Board test (R465) -/

/-- The TAP responds only while RST_N is low; in boundary scan the covered signals are 64 cells. -/
def tap (s : State) (f : State → State) : State := if s.edge.power = .inReset ∧ s.edge.rstN = false then f s else s

/-- A JTAG instruction comes into force. -/
def setJtag (j : Jtag) (s : State) : State := { s with edge := { s.edge with jtag := j } }

/-- BYPASS and CLAMP select the bypass register, which captures 0 (IEEE 1149.1). -/
def selectBypass (s : State) : State := { s with edge := { s.edge with bypassBit := false } }

/-! ## The commands -/

/-- HAZE_ENTER (R439). -/
def execHazeEnter (cl u : Nat) (s : State) : Host.Outcome State Fault Refusal := running s (hazeEnter cl u)

/-- HAZE_EXIT (R439): before the intake edge. -/
def execHazeExit (s : State) : Host.Outcome State Fault Refusal :=
  running s (whenB (decide (s.tk.phase = .boundary)) hazeExit)

/-- MIST_ENTER (R439). -/
def execMistEnter (cl : Nat) (s : State) : Host.Outcome State Fault Refusal := running s (mistEnter cl)

/-- MIST_EXIT (R439): before the intake edge. -/
def execMistExit (s : State) : Host.Outcome State Fault Refusal :=
  running s (whenB (decide (s.tk.phase = .boundary)) mistExit)

/-- PM_SLEEP_APPLY (R439). -/
def execPmSleepApply (cl : Nat) (s : State) : Host.Outcome State Fault Refusal := running s (sleepApply cl)

/-- PM_WAKE (R439). -/
def execPmWake (cl : Nat) (s : State) : Host.Outcome State Fault Refusal := running s (wake cl)

/-- BYPASS (R465): every opcode that is no other instruction selects it. -/
def execBypass (s : State) : Host.Outcome State Fault Refusal := .next (tap s fun t => selectBypass (setJtag .bypass t))

/-- SAMPLE/PRELOAD (R465): the boundary-scan register takes the cells shifted in, and the pins are not disturbed. -/
def execSamplePreload (cells : BitVec 64) (s : State) : Host.Outcome State Fault Refusal :=
  .next (tap s fun t => { t with edge := { t.edge with jtag := .sample, scan := cells } })

/-- EXTEST (R465): the boundary-scan register drives the pins. -/
def execExtest (s : State) : Host.Outcome State Fault Refusal :=
  .next (tap s fun t => emit (.pins (some t.edge.scan)) (setJtag .extest t))

/-- CLAMP (R465): the boundary-scan register drives the pins, with the bypass register selected. -/
def execClamp (s : State) : Host.Outcome State Fault Refusal :=
  .next (tap s fun t => emit (.pins (some t.edge.scan)) (selectBypass (setJtag .clamp t)))

/-- HIGHZ (R465): the pins are high-impedance, with the bypass register selected. -/
def execHighz (s : State) : Host.Outcome State Fault Refusal :=
  .next (tap s fun t => emit (.pins none) (selectBypass (setJtag .highz t)))

end Sys2Proof.Machine
end

