-- ==== Sys2Proof/Machine/Ticks.lean ====
section
/-!
DEFINITION. The points of a tick (R20, R29 to R32) and its alignment (R26 to R28, R461). Each point also does what was
due before it and has not been commanded (log 47).
-/

namespace Sys2Proof.Machine

/-! ## What an intake edge does -/

/-- A SOURCE or FOLLOWER with valid IEEE 1588 time takes the number of the tick that starts now from it: tick n starts at the
base time plus n × P (R27). From then on TK_TICK counts tick starts, throttled ticks included (R445), until time or lock is
lost. It never counts back (log 48). -/
def takesNumber (s : State) : Bool :=
  decide (s.tk.role ≠ 0) && s.tk.ptpValid && !s.tk.numbered && decide (0 < s.tk.cfg.periodUs)

/-- The number of a tick that starts at `start` of the package's time. -/
def nextTick (start : Nat) (s : State) : Nat :=
  let n := s.tk.tick + 1
  let base : Nat := (s.wn.bootImage.map BootImage.baseTimeNs).getD 0
  let period := s.tk.cfg.periodUs * 1000
  let master : Int := (start : Int) - s.tk.ptpOffset - (base : Int)
  if takesNumber s then max n ((master + (period / 2 : Nat)).toNat / period) else n

/-- The next tick starts (R19, R20): its number, its start, its TKSYNC_OUT pulse (R461), and the ticks that run throttled. -/
def openTick (s : State) : State :=
  let start := ((s.tk.startNs + s.tk.lenNs : Nat) + s.tk.slewNs).toNat
  let n := nextTick start s
  let pulse := (1 + levelInForce s) * 1000
  let s1 := { s with
    tk := { s.tk with tick := min n (2 ^ 64 - 1), tickOvf := s.tk.tickOvf || decide (2 ^ 64 - 1 ≤ n), phase := .step, startNs := start,
                      slewNs := 0, numbered := s.tk.numbered || takesNumber s }
    edge := { s.edge with pulseNs := pulse } }
  emit (.pulse pulse) (if levelInForce s = 0 then s1 else bump .pmThrottleTicks 0 s1)

/-- What starts anew with every tick: permits, deferrals and capping, the meters, the retry counts (R68, R69, R181, R443). The
permits and the meter of the tick that has completed are kept (R76, R451). -/
def freshTick (s : State) : State :=
  { s with
    clusters := tabMap (fun _ c => { c with permitsUsed := 0, capped := false, deferred := [] }) s.clusters
    units := tabMap (fun _ u => { u with permit := false }) s.units
    parts := tabMap (fun _ p => { p with meter := 0, meterLast := p.meter / 10000000 % 2 ^ 30, permits := 0,
                                          permitsLast := p.permits }) s.parts
    mt := { s.mt with chans := tabMap (fun _ c => { c with retries := 0, exhausted := 0, trained := false }) s.mt.chans }
    gen := { s.gen with latDone := false } }

/-- The RUN_LIST card of a table entry (R108, R116). -/
def runListCard (cls p j epoch : Nat) (entry : W64) : Card :=
  ⟨BitVec.ofNat 64 (9 + cls * 2 ^ 4 + p * 2 ^ 8 + 2 ^ 16), BitVec.ofNat 64 (j + epoch * 2 ^ 16), entry, 0#64, 0#64, 0#64, 0#64, 0#64⟩

/-- The learner clusters of a job run only while its Afterglow context is RUNNING (R364). -/
def learnRuns (s : State) (j cls : Nat) : Bool := match agOf s j with
  | some (_, a) => decide (cls ≠ 1) || decide (a.state = .running)
  | none => true

/-- Posts a RUN_LIST to a cluster's control core; without a credit the post is refused with NO_CREDIT, and is made again at a
later intake edge (R40, R106). -/
def postRunList (cl j : Nat) (e : W64) (s : State) : State :=
  let c := getCl s cl
  match c.owner with
  | none => s
  | some (cls, p, _) =>
    if (getQ c 17).credits = 0 then emit (.postRefused .noCredit 0 cl) (modCl cl (fun x => { x with owed := x.owed ++ [e] }) s)
    else modCl cl (postQ 17 ⟨runListCard cls p j c.epoch e, ⟨0, 0⟩⟩) s

/-- Makes the refused posts of a cluster again, oldest first. -/
def postOwed (cl j : Nat) (s : State) : State :=
  forEach (getCl s cl).owed (postRunList cl j) (modCl cl (fun x => { x with owed := [] }) s)

/-- Posts the RUN_LIST of one cluster's table for the tick (R434), after those that were refused; an entry with COUNT 0 posts
nothing. -/
def postList (j n : Nat) (r : Nat × Nat × Nat) (s : State) : State :=
  let c := getCl s r.1
  match c.owner with
  | none => s
  | some (cls, p, k) =>
    if k ≠ j ∨ !takesLists s r.1 ∨ !learnRuns s j cls then s
    else match readNear s p j cls r.1 (r.2.1 + 8 * (n % max 1 r.2.2)) 8 with
      | .error st => if fatalStatus st then faultJob j st (noteNear r.1 (r.2.1 + 8 * (n % max 1 r.2.2)) 8 s) else s
      | .ok bs =>
        let e := BitVec.ofNat 64 (leNat bs)
        let s1 := postOwed r.1 j s
        if fld e 63 48 = 0 then s1 else postRunList r.1 j e s1

/-- The RUN_LIST posts of a job at an intake edge. -/
def postLists (j : Nat) (s : State) : State :=
  match getJob s j with
  | none => s
  | some x =>
    if !jobIssues s j ∨ s.tk.tick < x.firstTick then s
    else forEach x.runTable (postList j (s.tk.tick - x.firstTick)) s

/-- Prefetch entries still in flight at the intake edge of their tick are late (R175). -/
def countLate (s : State) : State :=
  forEach s.clusters (fun e t => match e.2.owner with
    | some (_, p, _) =>
      let n := (e.2.prefetch.filter fun x => decide (x.due = s.tk.tick)).length
      if n = 0 then t else bumpBy .mtPrefetchLate p n t
    | none => t) s

/-- Every job, in ascending handle. -/
def eachJob (f : Nat → State → State) (s : State) : State := forEach (s.jobs.map (·.1)) f s

/-- Every Contrail context. -/
def eachCtx (f : Nat → State → State) (s : State) : State := forEach (s.lrn.ctxs.map (·.1)) f s

/-! ## What is due before a point -/

/-- The time limits that end at a boundary (R200, R217, R248, R291, R334, R393). -/
def boundaryLimits (s : State) : State :=
  let slots := s.gen.reqs.filterMap fun r => if r.waiting then r.slot else none
  let s1 := forEach slots pageWaitLimit (latWindowEnd s)
  let s2 := eachCtx publishTimeout s1
  let s3 := forEach s2.lrn.rings (fun r t =>
    forEach (List.range r.2.recs.length) (fun i u => expTimeout 3 r.1 (r.2.consume + i) (expTimeout 1 r.1 (r.2.consume + i) u)) t) s2
  let s4 := forEach s3.clusters (fun e t => forEach (e.2.colls.map fun r => clGroup r.card) (collTimeout e.1) t) s3
  let norms := s4.jobs.flatMap fun x => match x.2.upd with
    | some u => u.posters.map fun p => (p.cl, u.normGroup)
    | none => []
  let s5 := forEach norms (fun p t => collTimeout p.1 p.2 t) s4
  forEach s5.pt.open_ (fun g => grantExpire g.1 g.2.1 g.2.2.1) s5

/-- What follows the boundary actions and precedes the next intake edge: the limits, rollbacks (R337), step advances (R307), hot switches and
restarts (R417, R420), and the clusters that go to sleep (R439). -/
def boundaryRest (s : State) : State := sleepAll (restartAll (hotSwitch (eachJob stepAdvance (eachJob rollback (boundaryLimits s)))))

/-- What an intake edge brings and was not commanded: admissions, publish starts, copies, drains, and the limits counted from
intake edges (R170, R181, R191, R240, R345, R351, R353, R395). -/
def intakeRest (s : State) : State :=
  let s1 := eachCtx publishStart (admitDue s)
  let s2 := eachJob (fun j t => drainTimeout j false (drainStart j (copyOpens j t))) s1
  let s3 := forEach s2.gen.reqs (fun r t => if r.state = .queued then admitTimeout r.part r.id t else t) s2
  let s4 := forEach s3.clusters (fun e t => forEach (List.range e.2.tier.length) (remoteTimeout e.1) t) s3
  retrainPeriodic s4

/-- INTAKE_EDGE (R20, R193): what the boundary left is done, the next tick starts, and what has arrived is latched. -/
def intakeEdge (s : State) : State :=
  if s.tk.phase ≠ .boundary then s
  else
    let s1 := freshTick (openTick (sameTk boundaryRest s))
    let s2 := agResumes (resumeComps (wakeAll (mistExit (hazeExit s1))))
    let s3 := latchAnnots (heldPublishes (if compUp s2 6 then genIntake s2 else s2))
    let s4 := eachJob postLists (countLate (hzIntake s3))
    { startRefills (grantUnheld (eachJob issuePrefetch s4)) with tk := s1.tk }

/-! ## The commit point (R29, R30, R198 to R204, R288) -/

/-- A tenant's window with one more token: TTFT for a first token, else TBT, in µs, and its miss (R200). -/
def windowToken (first miss : Bool) (us : Nat) (w : Nat × Nat × Nat × Nat) : Nat × Nat × Nat × Nat :=
  let more := fun (n : Nat) => if miss then min (2 ^ 24) (n + 1) else n
  if first then (max w.1 us, w.2.1, more w.2.2.1, w.2.2.2) else (w.1, max w.2.1 us, w.2.2.1, more w.2.2.2)

/-- The request after a token: its latencies and its next position (R198, R199). -/
def afterToken (r : Req) (t : TokRes) (at_ tick ns us : Nat) (miss : Bool) : Req :=
  let first := decide (r.tokens = 0)
  { r with tokens := r.tokens + 1, lastTick := tick, lastNs := ns, lastToken := t.token,
           ttftUs := if first then us else r.ttftUs, tbtMaxUs := if first then r.tbtMaxUs else max r.tbtMaxUs us,
           tbtMiss := if !first && miss then min 65535 (r.tbtMiss + 1) else r.tbtMiss,
           tbtMissOvf := r.tbtMissOvf || (!first && miss && decide (65535 ≤ r.tbtMiss + 1)),
           state := .decode, toIndex := r.toIndex || decide (r.state = .prefill), pos := at_, step := none, lateStep := false,
           stepDone := false, ready := none }

/-- The kind of end that a token brings: EOS with STOP_EOS, or MAX_TOKENS (R191). -/
def tokenEnds (g : GenSt) (r : Req) (t : TokRes) : Option Nat :=
  if rqStopEos r.card ∧ t.token = g.eos then some 0 else if rqMax r.card ≤ r.tokens + 1 then some 1 else none

/-- A token becomes visible (R202, R203). -/
def deliverToken (g : GenSt) (r : Req) (t : TokRes) (at_ : Nat) (s : State) : State :=
  let tick := s.tk.tick
  let ns := s.tk.startNs + s.tk.cfg.commitUs * 1000
  let first := decide (r.tokens = 0)
  let us := (ns - (if first then r.arrivalNs else r.lastNs)) / 1000
  let ticks := if first then tick - r.latchTick + 1 else tick - r.lastTick
  let target := if first then rqTtft r.card else rqTbt r.card
  let miss := decide (target ≠ 0) && decide (target < ticks)
  let s1 := ringPut r.part r.job (tokenRec r t at_ tick r.lateStep (first && miss) (!first && miss)) s
  let s2 := match r.ring with
    | some k => expToken k r t at_ r.lateStep s1
    | none => s1
  let s3 := modReq r.part r.id (fun q => afterToken q t at_ tick ns us miss) s2
  let s4 := bump .smTokens (rqTenant r.card) (modTenant (rqTenant r.card) (fun y => { y with win := windowToken first miss us y.win }) s3)
  match tokenEnds g r t with
  | some reason => flushExpEnds r.job (endReq r.part r.id .complete reason .ok true s4)
  | none => s4

/-- The waiting token of a request becomes visible. -/
def deliverReady (r : Req) (s : State) : State :=
  match r.step, r.ready, genOf s r.job with
  | some (a, n), some t, some g => deliverToken g r t (a + n) s
  | _, _, _ => s

/-- One sequence at a commit point: its token is delivered or waits for room in the ring behind earlier records, its chunk is done,
or its step is late (R29, R202). -/
def commitReq (p id : Nat) (s : State) : State :=
  match findReq s p id with
  | none => s
  | some r => match r.step, genOf s r.job with
    | some (a, n), some g =>
      let late := modReq p id (fun q => { q with lateStep := true }) s
      if !r.stepDone ∨ !compUp s 6 then late
      else if r.ready.isNone then modReq p id (fun q => { q with pos := a + n, step := none, lateStep := false, stepDone := false }) s
      else if g.wait = [] ∧ ringRoom g then deliverReady r s
      else if g.wait.contains (.token id) then late
      else modGen r.job (fun x => { x with wait := x.wait ++ [.token id] }) late
    | _, _ => s

/-- The END records that wait for this commit point are set aside, so that those of its own tokens come first (R202, R288). -/
def setAside (s : State) : List (Nat × List RingRec × List (Nat × Nat × Card)) × State :=
  (s.jobs.map fun j => (j.1, (j.2.gen.map GenSt.ends).getD [], (j.2.learn.map LearnSt.expEnds).getD []),
   { s with jobs := tabMap (fun _ x => { x with gen := x.gen.map fun g => { g with ends := [] },
                                                learn := x.learn.map fun l => { l with expEnds := [] } }) s.jobs })

/-- The records of a commit point after its tokens: the ENDs of its tokens, then those that waited. -/
def endsOut (e : Nat × List RingRec × List (Nat × Nat × Card)) (s : State) : State :=
  expEndsOut e.2.2 (flushRing none e.1 (modGen e.1 (fun g => { g with ends := [] })
    (waitRecs e.1 (((genOf s e.1).map (·.ends)).getD [] ++ e.2.1) s)))

/-- Partitions with a late sequence (R30). -/
def lateGen (s : State) : List Nat :=
  (s.gen.reqs.filter fun r => r.lateStep && r.step.isSome).foldl (fun l r => setIns r.part l) []

/-- COMMIT_POINT (R20, R29, R202). With component 6 down its outputs are late (R417). -/
def commitPoint (s : State) : State :=
  if s.tk.phase ≠ .step then s
  else
    let s0 := intakeRest s
    let s1 := { s0 with wn := { s0.wn with pkgNext := if s0.wn.pkgNext = some s0.wn.pkg then none else s0.wn.pkgNext } }
    let s2 :=
      if compUp s1 6 then
        let (old, u) := setAside s1
        let v := eachJob (flushRing (some deliverReady)) u
        ringHeaders s1 (forEach old endsOut (forEach (bySlot v.gen.reqs) (fun r => commitReq r.part r.id) v))
      else forEach s1.gen.reqs (fun r => commitReq r.part r.id) s1
    let s3 := forEach (lateGen s2) (fun p => bump .tkOverrun (8 * p)) s2
    let s4 := hzCommit s3
    { s4 with tk := { s.tk with phase := .late } }

/-! ## W (R29, R30) -/

/-- A cluster's queues but the tile sender's hold work. -/
def holdsWork (c : Cluster) : Bool := (c.queues.any fun q => decide (q.1 ≠ 15) && !q.2.cards.isEmpty) || c.list.isSome || c.exec9.isSome

/-- Whether an entry of a publish under way still waits for this package: to be captured at its source, or sealed at its
destination (R241 to R246). -/
def entryWaits (s : State) (e : MapEntry) : Bool :=
  (decide (e.srcPkg = s.wn.pkg) && !e.captured) || (decide (e.dstPkg = s.wn.pkg) && !e.sealedOk)

/-- Partition and class pairs, as 8 × partition + class, that still hold work at W (R30): the queues of clusters, their tile
senders and collectives, which are SQUALL's (R36), publishes, copies and drains. -/
def lateClasses (s : State) : List Nat :=
  let cl := s.clusters.flatMap fun e => match e.2.owner with
    | some (cls, p, _) =>
      (if holdsWork e.2 ∧ cls ≠ 0 ∧ cls ≠ 6 ∧ cls ≠ 7 then [8 * p + cls] else [])
        ++ (if e.2.colls.isEmpty ∧ (getQ e.2 15).cards = [] then [] else [8 * p + 4])
    | none => []
  let ct := s.lrn.ctxs.filterMap fun c =>
    if (c.2.phase = .capture ∨ c.2.phase = .send) ∧ c.2.entries.any (entryWaits s) then some (8 * c.2.part + 3) else none
  let ag := s.lrn.ags.filterMap fun a => if a.2.copyOpen ∨ a.2.narrowing ∨ a.2.draining then some (8 * a.2.part + 5) else none
  (cl ++ ct ++ ag).foldl (fun l k => setIns k l) []

/-- Partitions of which a card waited on the budget in this tick (R443). -/
def cappedParts (s : State) : List Nat :=
  s.clusters.foldl (fun l e => match e.2.owner with
    | some (_, p, _) => if e.2.capped then setIns p l else l
    | none => l) []

/-- WORK_END (R20): no engine starts a card from here; missed deadlines are counted. -/
def workEnd (s : State) : State :=
  if s.tk.phase ≠ .late then s
  else
    let s1 := forEach (lateClasses s) (bump .tkOverrun) s
    let s2 := forEach (cappedParts s1) (bump .pmCapTicks) s1
    { s2 with tk := { s.tk with phase := .drain } }

/-! ## The boundary (R31) -/

/-- Length of the tick with its stretch, in ns (R445). -/
def tickLength (s : State) : Nat :=
  s.tk.cfg.periodUs * 1000 + levelInForce s * ((s.tk.cfg.periodUs + 7) / 8) * 1000

/-- The boundary interval begins: the tick's length is fixed, and a follower corrects its phase by at most 0.5 µs, carrying the
rest forward (R28). -/
def openBoundary (s : State) : State :=
  let c := max (-500) (min 500 s.tk.carryNs)
  let slews := decide (s.tk.role = 2) && decide (s.tk.missedEdges < 3) && !s.tk.timeLost
  { s with tk := { s.tk with phase := .boundary, lenNs := tickLength s, slewNs := if slews then -c else 0,
                             carryNs := if slews then s.tk.carryNs - c else s.tk.carryNs } }

/-- Step 1 of R31: seals, cuts, and pre-emptions that take effect (R344, R349, R359). Component 7 owns them. -/
def cutStep (s : State) : State :=
  let s1 := eachJob agSeal (eachJob copyTimeout (sweepColls s))
  eachJob preemptApply (if compUp s1 7 then boundaryCuts s1 else s1)

/-- Step 2 of R31: the ends of jobs and the teardown of a partition (R392, R396). -/
def teardownStep (s : State) : State :=
  let ends := fun (t : State) => if compUp t 5 then endJobs t else t
  match (if ptServes s && compUp s 2 && compUp s 5 then teardownDue s else none) with
  | none => ends s
  | some p =>
    let s1 := forEach ((s.jobs.filter fun j => decide (j.2.part = p)).map (·.1)) (fun j t => decideEnd j .tornDown .tornDown t) s
    releasePart p (resetPart p (hzTeardown p (ends s1)))

/-- Step 3 of R31: an accepted tick setting takes effect, and is disarmed (R24). -/
def settingStep (s : State) : State :=
  match s.tk.pending with
  | some (c, t) => if t ≤ s.tk.tick + 1 then { s with tk := { s.tk with cfg := c, pending := none, applyAt := 0 } } else s
  | none => s

/-- Whether a credited queue passes its audit: credits, cards in the FIFO and the card in execution make up the depth (R42). -/
def auditOk (c : Cluster) (k : Nat) (q : Queue) : Bool :=
  let running := match tabFind k c.runs with
    | some r => r.finish.isNone
    | none => false
  decide (q.credits + q.cards.length + (if running then 1 else 0) = q.depth)

/-- The audit of a cluster's queues, the collectives' among them (R42, R328). -/
def auditCl (e : Nat × Cluster) (s : State) : State :=
  match e.2.owner with
  | none => s
  | some (_, p, j) =>
    if e.2.queues.all (fun q => auditOk e.2 q.1 q.2) && decide (e.2.collCredits + e.2.colls.length = 4) then s
    else faultJob j .creditMismatch (raise .creditMismatch p e.1 s)

/-- The audit of a partition's own FIFOs, of requests and of annotations (R42, R186, R290). No job owns them: the mismatch is
raised, with 2,048 or 2,049 as its detail (log 83). -/
def auditPart (e : Nat × PartSt) (s : State) : State :=
  whenB (decide (e.2.annotCredits + e.2.annots.length ≠ 1024)) (raise .creditMismatch e.1 2049)
    (whenB (decide (e.2.intakeCredits + e.2.intake.length ≠ 1024)) (raise .creditMismatch e.1 2048) s)

/-- Steps 4 to 6 of R31: creation, bank switches, and the release of slots with the audit. -/
def lastSteps (s : State) : State :=
  let s1 := if ptServes s && compUp s 2 then applyCreate s else s
  let s2 := bankSwitches (eachCtx switchArm s1)
  let s3 := if compUp s2 6 then freeEnded s2 else s2
  forEach s3.parts auditPart (forEach s3.clusters auditCl s3)

/-- Generation's own boundary work (R195, R196, R217, R220). -/
def genBoundary (s : State) : State := if compUp s 6 then indexPrompts (reservePages (tenantBoundary s)) else s

/-- Readings of the boundary (R182, R444, R458): temperatures, corrections, refresh rates, input voltage and current. -/
def takeReadings (r : Readings) (s : State) : State :=
  let s1 := forEach r.junction (fun x t =>
    if x.1 < 64 then
      { t with pm := { t.pm with temp := tabIns x.1 (x.2 % 256) t.pm.temp,
                                 peak := tabIns x.1 (max (tabGet 0 t.pm.peak x.1) (x.2 % 256)) t.pm.peak } }
    else t) s
  let four := fun (d : Nat) (f : Chan → Chan) (t : State) => if d < 32 then forEach (List.range 4) (fun i => modChan (4 * d + i) f) t else t
  let s2 := forEach r.device (fun x => four x.1 fun c =>
    { c with tempC := x.2 % 256, refresh := if x.2 < 85 then 0 else if x.2 ≤ 95 then 1 else 2 }) s1
  let s3 := forEach r.odecc (fun x => four x.1 fun c => { c with odecc := x.2 % 65536 }) s2
  { s3 with
    edge := { s3.edge with vinMv := r.vinMv % 65536, iinDa := r.iinDa % 65536,
                           lowInput := s3.edge.lowInput || (decide (46000 ≤ r.vinMv) && decide (r.vinMv < 48000)) }
    pm := { s3.pm with junctionMax := (s3.pm.temp.map (·.2)).foldl max 0,
                       inputs := (s3.pm.inputs ++ [r.inputW]).drop (s3.pm.inputs.length + 1 - 16) } }

/-- Average of the input power over the last 16 ticks. -/
def averageInput (l : List Nat) : Nat := l.sum / max 1 l.length

/-- A new throttle level, with its event (R444): the detail is the level, with the cause from bit 4 on (log 49). -/
def setLevel (level cause : Nat) (s : State) : State :=
  raise .pmThrottle 0xFF (level + 16 * cause) { s with pm := { s.pm with level := level } }

/-- The throttle of R444. -/
def throttle (s : State) : State :=
  let avg := averageInput s.pm.inputs
  let temps := s.pm.temp.map (·.2)
  let devs := s.mt.chans.map fun c => c.2.tempC
  let bit := fun (b : Bool) (n : Nat) => if b then n else 0
  let cause := bit (temps.any fun t => decide (100 ≤ t)) 1 + bit (devs.any fun t => decide (95 < t)) 2 + bit (decide (9600 < avg)) 4
  let cold := temps.all (fun t => decide (t < 95)) && devs.all (fun t => decide (t ≤ 95)) && decide (avg ≤ 9120)
  let since := min 16 (s.pm.sinceRise + 1)
  let cool := if cold then min 1024 (s.pm.cool + 1) else 0
  let s1 := { s with pm := { s.pm with inputW := avg % 65536, sinceRise := since, cool := cool } }
  if cause ≠ 0 ∧ since = 16 ∧ s.pm.level < 7 then
    setLevel (s.pm.level + 1) cause { s1 with pm := { s1.pm with sinceRise := 0, cause := cause } }
  else if cool = 1024 ∧ 0 < s.pm.level then setLevel (s.pm.level - 1) s.pm.cause { s1 with pm := { s1.pm with cool := 0 } }
  else s1

/-- A WN_PKG write applies (R428); admissions stay refused until the commit point of the next tick (R436). -/
def applyPkg (s : State) : State := match s.wn.pkgNext with
  | some n => { s with wn := { s.wn with pkg := n } }
  | none => s

/-- Afterglow's holds and releases of a boundary (R356, R359). -/
def agBoundary (s : State) : State := if compUp s 7 then boundaryReleases (boundaryHolds s) else s

/-- The other work of a boundary. -/
def otherWork (r : Readings) (s : State) : State :=
  let s1 := publishTicks (genBoundary s)
  let s2 := if ptServes s1 && compUp s1 2 then applyGrants s1 else s1
  let s3 := takeReadings r s2
  let s4 := hzBoundary (if compUp s3 3 then throttle s3 else s3)
  agBoundary (nightDies (applyPkg (renumberAll (maintBoundary s4))))

/-- BOUNDARY (R20, R31). -/
def boundary (r : Readings) (s : State) : State :=
  if s.tk.phase ≠ .drain ∧ s.tk.phase ≠ .slot then s
  else sameTk (fun t => otherWork r (lastSteps t)) (settingStep (sameTk (fun t => teardownStep (cutStep t)) (openBoundary s)))

/-! ## Alignment (R26 to R28, R461) -/

/-- A follower loses lock (R28). -/
def loseSync (s : State) : State :=
  raise .tickSyncLost 0xFF 0 { s with tk := { s.tk with syncLost := true, locked := false, carryNs := 0, numbered := false } }

/-- One more tick without an edge; with the third in a row lock is lost. -/
def missedEdge (s : State) : State :=
  if s.tk.role ≠ 2 then s
  else
    let s1 := { s with tk := { s.tk with missedEdges := s.tk.missedEdges + 1 } }
    if s.tk.missedEdges + 1 = 3 then loseSync s1 else s1

/-- Level that a pulse width signals, rounded to the nearest µs (R461). -/
def pulseLevel (widthNs : Nat) : Nat := min 7 ((widthNs + 500) / 1000 - 1)

/-- TKSYNC_EDGE: `off` is the local tick start minus the edge as it comes in, in ns; the reference lies CABLE_DELAY_NS before
the edge (R27, log 48). While IEEE 1588 time is lost the follower runs freely: it measures, but neither slews nor locks (R28). -/
def tksyncEdge (off : Int) (width : Nat) (s : State) : State :=
  if s.tk.role ≠ 2 then s
  else if width < 500 ∨ 8500 < width then missedEdge s
  else
    let o := off + s.tk.cableDelayNs
    { s with tk := { s.tk with offsetNs := o, carryNs := if s.tk.timeLost then 0 else o, missedEdges := 0,
                               locked := !s.tk.timeLost && decide (o.natAbs ≤ s.tk.lockLimitNs) }
             pm := { s.pm with sourceLevel := pulseLevel width } }

/-- A Sync's two times are known: the offset follows from the delay, and a Delay_Req goes out; its send stamp is a free value
(log 48). -/
def ptpSynced (t1 t2 : Nat) (s : State) : State :=
  let (v, s1) := takeFree s
  emit (.delayReq v.toNat) { s1 with
    tk := { s1.tk with ptpOffset := (t2 : Int) - t1 - s1.tk.ptpDelay, ptpSync := none, ptpReq := some v.toNat } }

/-- A Delay_Resp gives the mean path delay, and time is valid. -/
def ptpDelayed (t3 t4 : Nat) (s : State) : State :=
  let there := s.tk.ptpOffset + s.tk.ptpDelay
  let d := (there + ((t4 : Int) - t3)) / 2
  { s with tk := { s.tk with ptpOffset := there - d, ptpDelay := d, ptpReq := none, ptpValid := true,
                             timeLost := false } }

/-- PTP_MESSAGE (R27): the package is an ordinary clock; FREE ignores it. -/
def ptpMessage (m : PtpMsg) (s : State) : State :=
  if s.tk.role = 0 then s
  else match m.kind with
    | .sync => if m.twoStep then { s with tk := { s.tk with ptpSync := some m.stampNs } } else ptpSynced m.originNs m.stampNs s
    | .followUp => (match s.tk.ptpSync with
      | some t2 => ptpSynced m.originNs t2 s
      | none => s)
    | .delayResp => (match s.tk.ptpReq with
      | some t3 => ptpDelayed t3 m.originNs s
      | none => s)
    | .delayReq => s
    | .announce => s
    | .other => s

/-- PTP_TIME_LOST (R28): a follower loses lock with it; a source's LOCKED falls. -/
def ptpTimeLost (s : State) : State :=
  if s.tk.role = 0 ∨ !s.tk.ptpValid then s
  else
    let s1 := { s with tk := { s.tk with ptpValid := false, timeLost := true, numbered := false } }
    if s.tk.role = 2 then loseSync s1 else s1

/-! ## The commands -/

/-- INTAKE_EDGE (R20). -/
def execIntakeEdge (s : State) : Host.Outcome State Fault Refusal := running s intakeEdge

/-- COMMIT_POINT (R20). -/
def execCommitPoint (s : State) : Host.Outcome State Fault Refusal := running s commitPoint

/-- WORK_END (R29). -/
def execWorkEnd (s : State) : Host.Outcome State Fault Refusal := running s workEnd

/-- BOUNDARY (R31). -/
def execBoundary (r : Readings) (s : State) : Host.Outcome State Fault Refusal := running s (boundary r)

/-- TKSYNC_EDGE (R28). -/
def execTksyncEdge (off : Int) (width : Nat) (s : State) : Host.Outcome State Fault Refusal := running s (tksyncEdge off width)

/-- TICK_SYNC_LOST (R28). -/
def execTickSyncLost (s : State) : Host.Outcome State Fault Refusal := running s missedEdge

/-- PTP_MESSAGE (R27). -/
def execPtpMessage (m : PtpMsg) (s : State) : Host.Outcome State Fault Refusal := running s (ptpMessage m)

/-- PTP_TIME_LOST (R28). -/
def execPtpTimeLost (s : State) : Host.Outcome State Fault Refusal := running s ptpTimeLost

end Sys2Proof.Machine
end

