-- ==== Sys2Proof/Machine/Riscv.lean ====
section
/-!
DEFINITION. The vector engine's scalar instructions (R119): RV32I, M, F and the CSRs of F and V. The spec names the
instruction sets; what each instruction does is taken from the RISC-V standard (PRESUMED, log 50).
-/

namespace Sys2Proof.Machine

/-! ## FP32 with rounding modes and flags -/

/-- A result and its exception flags: NV 16, DZ 8, OF 4, UF 2, NX 1. -/
structure FpOut where
  v : W32
  fl : Nat

/-- The rounding modes of F. -/
inductive Rm where
  | rne
  | rtz
  | rdn
  | rup
  | rmm
deriving DecidableEq, Repr

/-- A rounding mode by its code. -/
def rmOf : Nat → Option Rm
  | 0 => some .rne
  | 1 => some .rtz
  | 2 => some .rdn
  | 3 => some .rup
  | 4 => some .rmm
  | _ => none

/-- Whether a magnitude q + f / d, f < d, rounds away from zero. -/
def awayFrom (rm : Rm) (s : Bool) (q f d : Nat) : Bool :=
  match rm with
  | .rne => decide (d < 2 * f) || (decide (2 * f = d) && decide (q % 2 = 1))
  | .rtz => false
  | .rdn => s && decide (f ≠ 0)
  | .rup => !s && decide (f ≠ 0)
  | .rmm => decide (d ≤ 2 * f)

/-- A magnitude as a count of units of 2^u, and whether it was inexact. -/
def countRm (rm : Rm) (s : Bool) (x : Mag) (u : Int) : Nat × Bool :=
  let n := x.n * pow2 (x.e - u)
  let d := x.d * pow2 (u - x.e)
  (n / d + (if awayFrom rm s (n / d) (n % d) d then 1 else 0), decide (n % d ≠ 0))

/-- The code with a sign. -/
def signed (s : Bool) (w : Nat) : W32 := BitVec.ofNat 32 (w + if s then 2 ^ 31 else 0)

/-- What an overflow gives. -/
def overflowed (rm : Rm) (s : Bool) : FpOut :=
  let inf := match rm with
    | .rne => true
    | .rtz => false
    | .rdn => s
    | .rup => !s
    | .rmm => true
  ⟨signed s (if inf then 0x7F800000 else 0x7F7FFFFF), 5⟩

/-- Rounds a signed magnitude once to FP32; tininess is found after rounding. -/
def fpPack (rm : Rm) (s : Bool) (x : Mag) : FpOut :=
  if x.n = 0 then ⟨signed s 0, 0⟩
  else
    let u := max (x.log - 23) (-149)
    let (c, nx) := countRm rm s x u
    if c ≠ 0 ∧ 128 ≤ u + (Nat.log2 c : Int) then overflowed rm s
    else
      let (c', _) := countRm rm s x (x.log - 23)
      let tiny := decide (x.log - 23 + (Nat.log2 c' : Int) < -126)
      ⟨BitVec.ofNat 32 (encParts 8 23 127 s c u), if nx then (if tiny then 3 else 1) else 0⟩

/-- A signalling NaN. -/
def fpSnan (w : W32) : Bool := fNan w && decide (w.toNat / 2 ^ 22 % 2 = 0)

/-- NV when one of the operands is a signalling NaN. -/
def nvOf (l : List W32) : Nat := if l.any fpSnan then 16 else 0

/-- Sign bit. -/
def fpSign (w : W32) : Bool := w.toNat / 2 ^ 31 == 1

/-- Rounds an exact sum of a term of sign `sa` and one of sign `sb`. -/
def fpSum (rm : Rm) (sa sb : Bool) : Val → FpOut
  | .nan => ⟨nan32, 16⟩
  | .inf s => ⟨signed s 0x7F800000, 0⟩
  | .fin s m e => if m = 0 ∧ sa ≠ sb then ⟨signed (decide (rm = .rdn)) 0, 0⟩ else fpPack rm s ⟨m, 1, e⟩

/-- a + b. -/
def fpAdd (rm : Rm) (a b : W32) : FpOut :=
  if fNan a || fNan b then ⟨nan32, nvOf [a, b]⟩ else fpSum rm (fpSign a) (fpSign b) ((val32 a).add (val32 b))

/-- a × b. -/
def fpMul (rm : Rm) (a b : W32) : FpOut :=
  if fNan a || fNan b then ⟨nan32, nvOf [a, b]⟩
  else
    let s := xor (fpSign a) (fpSign b)
    fpSum rm s s ((val32 a).mul (val32 b))

/-- a × b + c. -/
def fpFma (rm : Rm) (a b c : W32) : FpOut :=
  let p := (val32 a).mul (val32 b)
  if fNan a || fNan b || fNan c then ⟨nan32, max (nvOf [a, b, c]) (if p.isNan && !fNan a && !fNan b then 16 else 0)⟩
  else fpSum rm (xor (fpSign a) (fpSign b)) (fpSign c) (p.add (val32 c))

/-- a / b. -/
def fpDiv (rm : Rm) (a b : W32) : FpOut :=
  let s := xor (fpSign a) (fpSign b)
  match val32 a, val32 b with
  | .nan, _ => ⟨nan32, nvOf [a, b]⟩
  | _, .nan => ⟨nan32, nvOf [a, b]⟩
  | .inf _, .inf _ => ⟨nan32, 16⟩
  | .inf _, .fin _ _ _ => ⟨signed s 0x7F800000, 0⟩
  | .fin _ _ _, .inf _ => ⟨signed s 0, 0⟩
  | .fin _ m e, .fin _ n f =>
    if n = 0 then (if m = 0 then ⟨nan32, 16⟩ else ⟨signed s 0x7F800000, 8⟩)
    else fpPack rm s ⟨m, n, e - f⟩

/-- √a. -/
def fpSqrt (rm : Rm) (a : W32) : FpOut :=
  match val32 a with
  | .nan => ⟨nan32, nvOf [a]⟩
  | .inf s => if s then ⟨nan32, 16⟩ else ⟨a, 0⟩
  | .fin s m e => if m = 0 then ⟨a, 0⟩ else if s then ⟨nan32, 16⟩ else fpPack rm false (Mag.sqrt ⟨m, 1, e⟩)

/-- The smaller of two values, or the larger: −0 is below +0, and a number is taken before a NaN. -/
def fpMinMax (mx : Bool) (a b : W32) : FpOut :=
  let nv := nvOf [a, b]
  if fNan a && fNan b then ⟨nan32, nv⟩
  else if fNan a then ⟨b, nv⟩
  else if fNan b then ⟨a, nv⟩
  else
    let below := fLt a b || (!fLt b a && fpSign a && !fpSign b)
    ⟨if below = mx then b else a, nv⟩

/-- A comparison: 0 ≤ , 1 <, 2 =; the first two signal with any NaN. -/
def fpCmp (k : Nat) (a b : W32) : Bool × Nat :=
  let nan := fNan a || fNan b
  match k with
  | 0 => (fLe a b, if nan then 16 else 0)
  | 1 => (fLt a b, if nan then 16 else 0)
  | _ => (fLe a b && fLe b a, nvOf [a, b])

/-- An integer between `lo` and `hi` from an FP32 value; out of range it saturates with NV. -/
def fpToInt (rm : Rm) (lo hi : Int) (a : W32) : Int × Nat :=
  match val32 a with
  | .nan => (hi, 16)
  | .inf s => (if s then lo else hi, 16)
  | .fin s m e =>
    let (c, nx) := countRm rm s ⟨m, 1, e⟩ 0
    let v : Int := if s then -(c : Int) else c
    if v < lo then (lo, 16) else if hi < v then (hi, 16) else (v, if nx then 1 else 0)

/-- The FP32 value of an integer. -/
def fpOfInt (rm : Rm) (i : Int) : FpOut := fpPack rm (decide (i < 0)) ⟨i.natAbs, 1, 0⟩

/-- Class mask of FCLASS. -/
def fpClass (a : W32) : Nat :=
  let s := fpSign a
  match val32 a with
  | .nan => if fpSnan a then 256 else 512
  | .inf _ => if s then 1 else 128
  | .fin _ m _ =>
    if m = 0 then (if s then 8 else 16)
    else if a.toNat / 2 ^ 23 % 256 = 0 then (if s then 4 else 32)
    else if s then 2 else 64

/-- Sign injection: 0 the sign of b, 1 its opposite, 2 the product of signs. -/
def fpSgnj (k : Nat) (a b : W32) : W32 :=
  let s := match k with
    | 0 => fpSign b
    | 1 => !fpSign b
    | _ => xor (fpSign a) (fpSign b)
  signed s (a.toNat % 2 ^ 31)

/-! ## The engine while a program runs -/

/-- A vector engine that runs: the package, the cluster, its registers, the card's random selection, cycles left. -/
structure Vm where
  s : State
  cl : Nat
  vx : VecSt
  rs : RSel
  left : Nat

/-- What one instruction comes to: the next one, ECALL, or a fault with its cause (R120). -/
inductive Ran where
  | next (m : Vm)
  | ecall (m : Vm)
  | trap (cause : Nat) (m : Vm)

/-- An x register; x0 reads 0. -/
def VecSt.xr (v : VecSt) (i : Nat) : W32 := if i = 0 then 0#32 else tabGet 0#32 v.x i

/-- Writes an x register; x0 discards the value. -/
def VecSt.setX (i : Nat) (w : W32) (v : VecSt) : VecSt := if i = 0 then v else { v with x := tabSet 0#32 v.x i w }

/-- An f register. -/
def VecSt.fr (v : VecSt) (i : Nat) : W32 := tabGet 0#32 v.f i

/-- Writes an f register. -/
def VecSt.setF (i : Nat) (w : W32) (v : VecSt) : VecSt := { v with f := tabSet 0#32 v.f i w }

/-- Accrues exception flags. -/
def VecSt.accrue (fl : Nat) (v : VecSt) : VecSt := { v with fflags := v.fflags ||| BitVec.ofNat 5 fl }

/-- Bits [hi:lo] of an instruction. -/
def ib (w : W32) (hi lo : Nat) : Nat := w.toNat / 2 ^ lo % 2 ^ (hi - lo + 1)

/-- Sign extension of the low `n` bits to 32. -/
def sx (n k : Nat) : W32 := BitVec.ofInt 32 (if k < 2 ^ (n - 1) then (k : Int) else (k : Int) - 2 ^ n)

/-- I immediate. -/
def immI (w : W32) : W32 := sx 12 (ib w 31 20)

/-- S immediate. -/
def immS (w : W32) : W32 := sx 12 (ib w 31 25 * 32 + ib w 11 7)

/-- B immediate. -/
def immB (w : W32) : W32 := sx 13 (ib w 31 31 * 4096 + ib w 7 7 * 2048 + ib w 30 25 * 32 + ib w 11 8 * 2)

/-- J immediate. -/
def immJ (w : W32) : W32 := sx 21 (ib w 31 31 * 2 ^ 20 + ib w 19 12 * 4096 + ib w 20 20 * 2048 + ib w 30 21 * 2)

/-- Moves on to the next instruction. -/
def Vm.go (m : Vm) (v : VecSt) : Ran := .next { m with vx := { v with pc := (v.pc + 4) % 2 ^ 32 } }

/-- Jumps; a target that is not a multiple of 4 is a fault (cause 0). -/
def Vm.jump (m : Vm) (v : VecSt) (target : W32) : Ran :=
  if target.toNat % 4 ≠ 0 then .trap 0 m else .next { m with vx := { v with pc := target.toNat } }

/-- `n` bytes of the pool: a load outside it faults (R119). -/
def Vm.load (m : Vm) (a n : Nat) : Option Nat := if 0x400000 < a + n then none else some (memNat m.s.mem (poolKey m.cl a) n)

/-- Stores `n` bytes: a store outside the job area faults (R119). -/
def Vm.store (m : Vm) (a n x : Nat) : Option Vm :=
  if a < 0x40000 ∨ 0x400000 < a + n then none
  else some { m with s := putMem (bytesAt (poolKey m.cl a) (leBytes n x)) m.s }

/-! ## RV32I and M -/

/-- The integer operation of OP and OP-IMM: funct3 and bit 30. -/
def aluOp (f3 : Nat) (alt : Bool) (a b : W32) : W32 :=
  match f3 with
  | 0 => if alt then a - b else a + b
  | 1 => a <<< (b.toNat % 32)
  | 2 => if a.toInt < b.toInt then 1#32 else 0#32
  | 3 => if a.toNat < b.toNat then 1#32 else 0#32
  | 4 => a ^^^ b
  | 5 => if alt then a.sshiftRight (b.toNat % 32) else a >>> (b.toNat % 32)
  | 6 => a ||| b
  | _ => a &&& b

/-- Quotient rounding toward zero, and its remainder: by zero −1 and the dividend. -/
def divInt (a b : Int) : Int × Int := if b = 0 then (-1, a) else (a.tdiv b, a.tmod b)

/-- The operations of M. -/
def mulOp (f3 : Nat) (a b : W32) : W32 :=
  let hi := fun (p : Int) => BitVec.ofInt 32 (p / 2 ^ 32)
  match f3 with
  | 0 => a * b
  | 1 => hi (a.toInt * b.toInt)
  | 2 => hi (a.toInt * b.toNat)
  | 3 => hi ((a.toNat * b.toNat : Nat) : Int)
  | 4 => BitVec.ofInt 32 (divInt a.toInt b.toInt).1
  | 5 => if b = 0#32 then 0xFFFFFFFF#32 else BitVec.ofNat 32 (a.toNat / b.toNat)
  | 6 => BitVec.ofInt 32 (divInt a.toInt b.toInt).2
  | _ => if b = 0#32 then a else BitVec.ofNat 32 (a.toNat % b.toNat)

/-- Whether a branch is taken; none for a reserved funct3. -/
def branchTaken (f3 : Nat) (a b : W32) : Option Bool :=
  match f3 with
  | 0 => some (decide (a = b))
  | 1 => some (decide (a ≠ b))
  | 4 => some (decide (a.toInt < b.toInt))
  | 5 => some (decide (b.toInt ≤ a.toInt))
  | 6 => some (decide (a.toNat < b.toNat))
  | 7 => some (decide (b.toNat ≤ a.toNat))
  | _ => none

/-- A load into an x register. -/
def doLoad (m : Vm) (w : W32) : Ran :=
  let a := (m.vx.xr (ib w 19 15) + immI w).toNat
  let put := fun (n : Nat) (ext : Nat → W32) => match m.load a n with
    | some x => m.go (m.vx.setX (ib w 11 7) (ext x))
    | none => .trap 5 m
  match ib w 14 12 with
  | 0 => put 1 (sx 8)
  | 1 => put 2 (sx 16)
  | 2 => put 4 (BitVec.ofNat 32)
  | 4 => put 1 (BitVec.ofNat 32)
  | 5 => put 2 (BitVec.ofNat 32)
  | _ => .trap 2 m

/-- A store of the low bytes of a value. -/
def doStore (m : Vm) (a n x : Nat) : Ran := match m.store a n x with
  | some t => t.go t.vx
  | none => .trap 7 m

/-- OP: base operations and M. -/
def doOp (m : Vm) (w : W32) : Ran :=
  let a := m.vx.xr (ib w 19 15)
  let b := m.vx.xr (ib w 24 20)
  let f3 := ib w 14 12
  match ib w 31 25 with
  | 0 => m.go (m.vx.setX (ib w 11 7) (aluOp f3 false a b))
  | 1 => m.go (m.vx.setX (ib w 11 7) (mulOp f3 a b))
  | 32 => if f3 = 0 ∨ f3 = 5 then m.go (m.vx.setX (ib w 11 7) (aluOp f3 true a b)) else .trap 2 m
  | _ => .trap 2 m

/-- OP-IMM. -/
def doOpImm (m : Vm) (w : W32) : Ran :=
  let f3 := ib w 14 12
  let f7 := ib w 31 25
  if (f3 = 1 ∧ f7 ≠ 0) ∨ (f3 = 5 ∧ f7 ≠ 0 ∧ f7 ≠ 32) then .trap 2 m
  else
    let b := if f3 = 1 ∨ f3 = 5 then BitVec.ofNat 32 (ib w 24 20) else immI w
    m.go (m.vx.setX (ib w 11 7) (aluOp f3 (decide (f3 = 5) && decide (f7 = 32)) (m.vx.xr (ib w 19 15)) b))

/-! ## CSRs -/

/-- A CSR of F or V. -/
def csrRead (v : VecSt) : Nat → Option W32
  | 0x001 => some (v.fflags.zeroExtend 32)
  | 0x002 => some (v.frm.zeroExtend 32)
  | 0x003 => some (BitVec.ofNat 32 (v.frm.toNat * 32 + v.fflags.toNat))
  | 0x008 => some (BitVec.ofNat 32 v.vstart)
  | 0x009 => some (if v.vxsat then 1#32 else 0#32)
  | 0x00A => some (v.vxrm.zeroExtend 32)
  | 0x00F => some (BitVec.ofNat 32 (v.vxrm.toNat * 2 + if v.vxsat then 1 else 0))
  | 0xC20 => some (BitVec.ofNat 32 v.vl)
  | 0xC21 => some v.vtype
  | 0xC22 => some 256#32
  | _ => none

/-- A write of a CSR; those from 0xC00 on are read-only. -/
def csrWrite (v : VecSt) (w : W32) : Nat → Option VecSt
  | 0x001 => some { v with fflags := w.truncate 5 }
  | 0x002 => some { v with frm := w.truncate 3 }
  | 0x003 => some { v with fflags := w.truncate 5, frm := (w >>> 5).truncate 3 }
  | 0x008 => some { v with vstart := w.toNat % 256 }
  | 0x009 => some { v with vxsat := w.toNat % 2 == 1 }
  | 0x00A => some { v with vxrm := w.truncate 2 }
  | 0x00F => some { v with vxsat := w.toNat % 2 == 1, vxrm := (w >>> 1).truncate 2 }
  | _ => none

/-- A CSR instruction. -/
def doCsr (m : Vm) (w : W32) : Ran :=
  let f3 := ib w 14 12
  let n := ib w 31 20
  let src := if 4 ≤ f3 then BitVec.ofNat 32 (ib w 19 15) else m.vx.xr (ib w 19 15)
  match csrRead m.vx n with
  | none => .trap 2 m
  | some old =>
    let v := m.vx
    let done := fun (u : VecSt) => m.go (u.setX (ib w 11 7) old)
    let write := fun (x : W32) => match csrWrite v x n with
      | some u => done u
      | none => .trap 2 m
    match f3 % 4 with
    | 1 => write src
    | 2 => if ib w 19 15 = 0 then done v else write (old ||| src)
    | 3 => if ib w 19 15 = 0 then done v else write (old &&& ~~~src)
    | _ => .trap 2 m

/-- SYSTEM: ECALL ends the program, EBREAK is a fault (cause 3), CSR instructions. -/
def doSystem (m : Vm) (w : W32) : Ran :=
  if ib w 14 12 ≠ 0 then doCsr m w
  else if w = 0x00000073#32 then .ecall m
  else if w = 0x00100073#32 then .trap 3 m
  else .trap 2 m

/-! ## F -/

/-- The rounding mode of an instruction: its field, or frm for 7. -/
def rmFor (m : Vm) (code : Nat) : Option Rm := if code = 7 then rmOf m.vx.frm.toNat else rmOf code

/-- A result goes to an f register, its flags accrue. -/
def putF (m : Vm) (rd : Nat) (r : FpOut) : Ran := m.go ((m.vx.setF rd r.v).accrue r.fl)

/-- A result goes to an x register. -/
def putX (m : Vm) (rd : Nat) (x : W32) (fl : Nat) : Ran := m.go ((m.vx.setX rd x).accrue fl)

/-- The fused instructions: 0 a × b + c, 1 a × b − c, 2 −(a × b) + c, 3 −(a × b) − c. -/
def fusedOp (k : Nat) (rm : Rm) (a b c : W32) : FpOut :=
  match k with
  | 0 => fpFma rm a b c
  | 1 => fpFma rm a b (fNeg c)
  | 2 => fpFma rm (fNeg a) b c
  | _ => fpFma rm (fNeg a) b (fNeg c)

/-- FMADD.S, FMSUB.S, FNMSUB.S and FNMADD.S. -/
def doFused (m : Vm) (w : W32) (k : Nat) : Ran :=
  match (if ib w 26 25 = 0 then rmFor m (ib w 14 12) else none) with
  | none => .trap 2 m
  | some rm => putF m (ib w 11 7) (fusedOp k rm (m.vx.fr (ib w 19 15)) (m.vx.fr (ib w 24 20)) (m.vx.fr (ib w 31 27)))

/-- OP-FP. -/
def doFp (m : Vm) (w : W32) : Ran :=
  let rd := ib w 11 7
  let r1 := ib w 19 15
  let r2 := ib w 24 20
  let f3 := ib w 14 12
  let a := m.vx.fr r1
  let b := m.vx.fr r2
  let rounded := fun (f : Rm → Ran) => match rmFor m f3 with
    | some rm => f rm
    | none => .trap 2 m
  match ib w 31 25 with
  | 0 => rounded fun rm => putF m rd (fpAdd rm a b)
  | 4 => rounded fun rm => putF m rd (fpAdd rm a (fNeg b))
  | 8 => rounded fun rm => putF m rd (fpMul rm a b)
  | 12 => rounded fun rm => putF m rd (fpDiv rm a b)
  | 44 => if r2 = 0 then rounded fun rm => putF m rd (fpSqrt rm a) else .trap 2 m
  | 16 => if f3 < 3 then putF m rd ⟨fpSgnj f3 a b, 0⟩ else .trap 2 m
  | 20 => if f3 < 2 then putF m rd (fpMinMax (decide (f3 = 1)) a b) else .trap 2 m
  | 80 =>
    if f3 < 3 then
      let (t, fl) := fpCmp f3 a b
      putX m rd (if t then 1#32 else 0#32) fl
    else .trap 2 m
  | 96 => rounded fun rm =>
    let (lo, hi) : Int × Int := if r2 = 0 then (-2147483648, 2147483647) else (0, 4294967295)
    if 1 < r2 then .trap 2 m
    else
      let (i, fl) := fpToInt rm lo hi a
      putX m rd (BitVec.ofInt 32 i) fl
  | 104 => rounded fun rm =>
    let x := m.vx.xr r1
    if 1 < r2 then .trap 2 m else putF m rd (fpOfInt rm (if r2 = 0 then x.toInt else (x.toNat : Int)))
  | 112 =>
    if r2 ≠ 0 then .trap 2 m
    else if f3 = 0 then putX m rd a 0
    else if f3 = 1 then putX m rd (BitVec.ofNat 32 (fpClass a)) 0
    else .trap 2 m
  | 120 => if r2 = 0 ∧ f3 = 0 then putF m rd ⟨m.vx.xr r1, 0⟩ else .trap 2 m
  | _ => .trap 2 m

/-- One scalar instruction. -/
def rvScalar (m : Vm) (w : W32) : Ran :=
  let rd := ib w 11 7
  let v := m.vx
  let a := v.xr (ib w 19 15)
  let b := v.xr (ib w 24 20)
  match ib w 6 0 with
  | 0x37 => m.go (v.setX rd (BitVec.ofNat 32 (ib w 31 12 * 4096)))
  | 0x17 => m.go (v.setX rd (BitVec.ofNat 32 (v.pc + ib w 31 12 * 4096)))
  | 0x6F => m.jump (v.setX rd (BitVec.ofNat 32 (v.pc + 4))) (BitVec.ofNat 32 v.pc + immJ w)
  | 0x67 =>
    if ib w 14 12 = 0 then m.jump (v.setX rd (BitVec.ofNat 32 (v.pc + 4))) ((a + immI w) &&& ~~~1#32) else .trap 2 m
  | 0x63 => (match branchTaken (ib w 14 12) a b with
    | none => .trap 2 m
    | some t => if t then m.jump v (BitVec.ofNat 32 v.pc + immB w) else m.go v)
  | 0x03 => doLoad m w
  | 0x23 => (match ib w 14 12 with
    | 0 => doStore m (a + immS w).toNat 1 b.toNat
    | 1 => doStore m (a + immS w).toNat 2 b.toNat
    | 2 => doStore m (a + immS w).toNat 4 b.toNat
    | _ => .trap 2 m)
  | 0x13 => doOpImm m w
  | 0x33 => doOp m w
  | 0x0F => if ib w 14 12 = 0 then m.go v else .trap 2 m
  | 0x73 => doSystem m w
  | 0x07 => (match m.load (a + immI w).toNat 4 with
    | some x => m.go (v.setF rd (BitVec.ofNat 32 x))
    | none => .trap 5 m)
  | 0x27 => doStore m (a + immS w).toNat 4 (v.fr (ib w 24 20)).toNat
  | 0x43 => doFused m w 0
  | 0x47 => doFused m w 1
  | 0x4B => doFused m w 2
  | 0x4F => doFused m w 3
  | 0x53 => doFp m w
  | _ => .trap 2 m

end Sys2Proof.Machine
end

