-- ==== Sys2Proof/Machine/RiscvVec.lean ====
section
/-!
DEFINITION. The vector engine's Zve32f instructions (R119), VLEN 2,048 and ELEN 32. The spec names the extension; what
each instruction does is taken from the RISC-V vector standard 1.0 (PRESUMED, log 50). Tail and masked-off elements stay
undisturbed; a reserved encoding is an illegal instruction (cause 2).
-/

namespace Sys2Proof.Machine

/-! ## Elements -/

/-- Element `i` of `eb` bytes in the group that begins at register `r`. -/
def vget (v : VecSt) (r eb i : Nat) : Nat :=
  let off := r * 256 + i * eb
  (tabGet 0#32 v.v (off / 4)).toNat / 2 ^ (8 * (off % 4)) % 2 ^ (8 * eb)

/-- Puts `n` bits at bit `k` of a word. -/
def putBits (w : W32) (k n x : Nat) : W32 :=
  BitVec.ofNat 32 (w.toNat % 2 ^ k + x % 2 ^ n * 2 ^ k + w.toNat / 2 ^ (k + n) * 2 ^ (k + n))

/-- Writes an element. -/
def vput (r eb i x : Nat) (v : VecSt) : VecSt :=
  let off := r * 256 + i * eb
  { v with v := tabSet 0#32 v.v (off / 4) (putBits (tabGet 0#32 v.v (off / 4)) (8 * (off % 4)) (8 * eb) x) }

/-- Bit `i` of a mask register. -/
def vbit (v : VecSt) (r i : Nat) : Bool := (tabGet 0#32 v.v (r * 64 + i / 32)).toNat / 2 ^ (i % 32) % 2 == 1

/-- Writes a bit of a mask register. -/
def vputBit (r i : Nat) (b : Bool) (v : VecSt) : VecSt :=
  { v with v := tabSet 0#32 v.v (r * 64 + i / 32) (putBits (tabGet 0#32 v.v (r * 64 + i / 32)) (i % 32) 1 (if b then 1 else 0)) }

/-- Signed reading of `n` bits. -/
def sgn (n x : Nat) : Int := if x < 2 ^ (n - 1) then (x : Int) else (x : Int) - 2 ^ n

/-- An integer in `n` bits. -/
def wr (n : Nat) (i : Int) : Nat := (i % 2 ^ n).toNat

/-- The active elements: from vstart to vl, those whose mask bit is set. -/
def active (v : VecSt) (vm : Bool) : List Nat :=
  (List.range v.vl).filter fun i => decide (v.vstart ≤ i) && (vm || vbit v 0 i)

/-- Writes the active elements; the values are those of the state before. -/
def vwrite (v : VecSt) (vd eb : Nat) (is : List Nat) (f : Nat → Nat) : VecSt := is.foldl (fun u i => vput vd eb i (f i) u) v

/-- Writes active bits of a mask register. -/
def vwriteBits (v : VecSt) (vd : Nat) (is : List Nat) (f : Nat → Bool) : VecSt :=
  is.foldl (fun u i => vputBit vd i (f i) u) v

/-! ## The configuration -/

/-- The element width in bytes and eight times LMUL. -/
structure VCfg where
  eb : Nat
  lm : Nat

/-- The configuration a vtype value names; none where it is not supported. -/
def vcfgOf (t : Nat) : Option VCfg :=
  let eb := 2 ^ (t / 8 % 8)
  let lm := match t % 8 with
    | 0 => 8
    | 1 => 16
    | 2 => 32
    | 3 => 64
    | 5 => 1
    | 6 => 2
    | 7 => 4
    | _ => 0
  if 2 ^ 8 ≤ t ∨ 4 < eb ∨ lm < 2 * eb then none else some ⟨eb, lm⟩

/-- VLMAX. -/
def VCfg.vlmax (c : VCfg) : Nat := 32 * c.lm / c.eb

/-- Bits of an element. -/
def VCfg.bits (c : VCfg) : Nat := 8 * c.eb

/-- Sets vtype and vl. `avl` none: vl is kept, which needs VLMAX to stay. -/
def setVtype (m : Vm) (rd t : Nat) (avl : Option Nat) : Ran :=
  let vill := { m.vx with vl := 0, vtype := 0x80000000#32, vstart := 0 }
  match vcfgOf t with
  | none => m.go (vill.setX rd 0#32)
  | some c =>
    let put := fun (n : Nat) =>
      m.go ({ m.vx with vl := n, vtype := BitVec.ofNat 32 t, vstart := 0 }.setX rd (BitVec.ofNat 32 n))
    match avl with
    | some n => put (min n c.vlmax)
    | none => if (vcfgOf m.vx.vtype.toNat).map VCfg.vlmax = some c.vlmax then put m.vx.vl else m.go (vill.setX rd 0#32)

/-- VSETVLI, VSETIVLI and VSETVL. -/
def doVset (m : Vm) (w : W32) : Ran :=
  let rd := ib w 11 7
  let r1 := ib w 19 15
  let avl := if r1 ≠ 0 then some (m.vx.xr r1).toNat else if rd ≠ 0 then some (2 ^ 32 - 1) else none
  if ib w 31 31 = 0 then setVtype m rd (ib w 30 20) avl
  else if ib w 31 30 = 3 then setVtype m rd (ib w 29 20) (some r1)
  else if ib w 31 25 = 64 then setVtype m rd (m.vx.xr (ib w 24 20)).toNat avl
  else .trap 2 m

/-! ## Register groups -/

/-- Registers of a group of eight times EMUL `e8`. -/
def vgroupRegs (e8 : Nat) : Nat := max 1 (e8 / 8)

/-- A group is aligned and its EMUL legal. -/
def vgroupOk (r e8 : Nat) : Bool := decide (1 ≤ e8) && decide (e8 ≤ 64) && decide (r % vgroupRegs e8 = 0)

/-- Whether two groups share a register. -/
def share (a na b nb : Nat) : Bool := decide (a < b + nb) && decide (b < a + na)

/-- Whether a destination group (register, bits, EMUL) may overlap a source group as it does: of one width; or narrower,
in the lowest register of the source; or wider, in the highest registers of the destination. -/
def overlapOk (d dw d8 s sw s8 : Nat) : Bool :=
  !share d (vgroupRegs d8) s (vgroupRegs s8) || decide (dw = sw) || (decide (dw < sw) && decide (d = s))
    || (decide (sw < dw) && decide (8 ≤ s8) && decide (s + vgroupRegs s8 = d + vgroupRegs d8))

/-- An instruction's fields. -/
structure VIns where
  f6 : Nat
  vm : Bool
  vs2 : Nat
  vs1 : Nat
  f3 : Nat
  vd : Nat

/-- The fields of a word. -/
def vinsOf (w : W32) : VIns := ⟨ib w 31 26, ib w 25 25 == 1, ib w 24 20, ib w 19 15, ib w 14 12, ib w 11 7⟩

/-- The vector operand 1 is a register: OPIVV, OPFVV, OPMVV. -/
def VIns.vv (n : VIns) : Bool := decide (n.f3 < 3)

/-- The destination is not v0 where the instruction is masked. -/
def VIns.clearOfMask (n : VIns) : Bool := n.vm || decide (n.vd ≠ 0)

/-- Runs an instruction whose conditions hold; else it is illegal. -/
def legal (ok : Bool) (m : Vm) (v : VecSt) : Ran := if ok then m.go { v with vstart := 0 } else .trap 2 m

/-- Operand 1 as `eb` bytes: an element of vs1, x[rs1], or the 5-bit immediate, sign-extended unless `uimm`. -/
def opOne (v : VecSt) (n : VIns) (eb : Nat) (uimm : Bool) (i : Nat) : Nat :=
  if n.vv then vget v n.vs1 eb i
  else if n.f3 = 3 then (if uimm then n.vs1 else wr (8 * eb) (sgn 5 n.vs1))
  else (v.xr n.vs1).toNat % 2 ^ (8 * eb)

/-- Groups of the configuration's EMUL: vd, vs2 and, where it is a register, vs1. -/
def sameGroups (c : VCfg) (n : VIns) : Bool :=
  vgroupOk n.vd c.lm && vgroupOk n.vs2 c.lm && (!n.vv || vgroupOk n.vs1 c.lm)

/-- An element-wise operation of operand 2 and operand 1, masked. -/
def vBin (m : Vm) (c : VCfg) (n : VIns) (uimm : Bool) (f : Nat → Nat → Nat) : Ran :=
  legal (sameGroups c n && n.clearOfMask) m
    (vwrite m.vx n.vd c.eb (active m.vx n.vm) fun i => f (vget m.vx n.vs2 c.eb i) (opOne m.vx n c.eb uimm i))

/-- Groups of a mask-producing instruction. -/
def maskGroups (c : VCfg) (n : VIns) : Bool :=
  vgroupOk n.vs2 c.lm && overlapOk n.vd 1 8 n.vs2 c.bits c.lm
    && (!n.vv || (vgroupOk n.vs1 c.lm && overlapOk n.vd 1 8 n.vs1 c.bits c.lm))

/-- A comparison into a mask. -/
def vCmp (m : Vm) (c : VCfg) (n : VIns) (f : Nat → Nat → Bool) : Ran :=
  legal (maskGroups c n) m
    (vwriteBits m.vx n.vd (active m.vx n.vm) fun i => f (vget m.vx n.vs2 c.eb i) (opOne m.vx n c.eb false i))

/-! ## Fixed point -/

/-- An integer shifted right by `d` bits, rounded as vxrm says. -/
def roundoff (vxrm : Nat) (x : Int) (d : Nat) : Int :=
  let q := x / 2 ^ d
  let r := x % 2 ^ d
  let up := match vxrm with
    | 0 => decide (r ≠ 0) && decide ((2 : Int) ^ d ≤ 2 * r)
    | 1 => decide ((2 : Int) ^ d < 2 * r) || (decide (r ≠ 0) && decide (2 * r = 2 ^ d) && decide (q % 2 = 1))
    | 2 => false
    | _ => decide (q % 2 = 0) && decide (r ≠ 0)
  q + if up then 1 else 0

/-- Saturates to a range; whether it did. -/
def saturate (lo hi x : Int) : Int × Bool := if x < lo then (lo, true) else if hi < x then (hi, true) else (x, false)

/-- Saturates to `n` bits, signed or unsigned, as a bit pattern. -/
def satBits (n : Nat) (signd : Bool) (x : Int) : Nat × Bool :=
  let (y, b) := if signd then saturate (-(2 ^ (n - 1))) (2 ^ (n - 1) - 1) x else saturate 0 (2 ^ n - 1) x
  (wr n y, b)

/-- An element-wise operation that may saturate: vxsat accrues. -/
def vSat (m : Vm) (c : VCfg) (n : VIns) (f : Nat → Nat → Nat × Bool) : Ran :=
  let is := active m.vx n.vm
  let g := fun (i : Nat) => f (vget m.vx n.vs2 c.eb i) (opOne m.vx n c.eb false i)
  let v := vwrite m.vx n.vd c.eb is fun i => (g i).1
  legal (sameGroups c n && n.clearOfMask) m { v with vxsat := v.vxsat || is.any fun i => (g i).2 }

/-- The narrowing shifts and clips: vs2 is twice as wide. -/
def vNarrow (m : Vm) (c : VCfg) (n : VIns) (f : Nat → Nat → Nat × Bool) : Ran :=
  let is := active m.vx n.vm
  let g := fun (i : Nat) => f (vget m.vx n.vs2 (2 * c.eb) i) (opOne m.vx n c.eb true i % (16 * c.eb))
  let v := vwrite m.vx n.vd c.eb is fun i => (g i).1
  legal (decide (c.eb < 4) && vgroupOk n.vd c.lm && vgroupOk n.vs2 (2 * c.lm) && (!n.vv || vgroupOk n.vs1 c.lm)
      && overlapOk n.vd c.bits c.lm n.vs2 (2 * c.bits) (2 * c.lm) && n.clearOfMask) m
    { v with vxsat := v.vxsat || is.any fun i => (g i).2 }

/-! ## Permutations, carries, reductions -/

/-- A destination that shares no register with vs2. -/
def clearOfVs2 (c : VCfg) (n : VIns) : Bool := !share n.vd (vgroupRegs c.lm) n.vs2 (vgroupRegs c.lm)

/-- VRGATHER: an index at or beyond VLMAX reads 0. -/
def vGather (m : Vm) (c : VCfg) (n : VIns) : Ran :=
  let ix := fun (i : Nat) => if n.vv then vget m.vx n.vs1 c.eb i else if n.f3 = 3 then n.vs1 else (m.vx.xr n.vs1).toNat
  legal (sameGroups c n && n.clearOfMask && clearOfVs2 c n && (!n.vv || !share n.vd (vgroupRegs c.lm) n.vs1 (vgroupRegs c.lm))) m
    (vwrite m.vx n.vd c.eb (active m.vx n.vm) fun i => if ix i < c.vlmax then vget m.vx n.vs2 c.eb (ix i) else 0)

/-- VRGATHEREI16: 16-bit indices. -/
def vGather16 (m : Vm) (c : VCfg) (n : VIns) : Ran :=
  let e8 := 2 * c.lm / c.eb
  legal (vgroupOk n.vd c.lm && vgroupOk n.vs2 c.lm && vgroupOk n.vs1 e8 && n.clearOfMask && clearOfVs2 c n
      && !share n.vd (vgroupRegs c.lm) n.vs1 (vgroupRegs e8)) m
    (vwrite m.vx n.vd c.eb (active m.vx n.vm) fun i =>
      let k := vget m.vx n.vs1 2 i
      if k < c.vlmax then vget m.vx n.vs2 c.eb k else 0)

/-- The offset of a slide. -/
def slideBy (m : Vm) (n : VIns) : Nat := if n.f3 = 3 then n.vs1 else (m.vx.xr n.vs1).toNat

/-- VSLIDEUP. -/
def vSlideUp (m : Vm) (c : VCfg) (n : VIns) : Ran :=
  let k := slideBy m n
  legal (sameGroups c n && n.clearOfMask && clearOfVs2 c n) m
    (vwrite m.vx n.vd c.eb ((active m.vx n.vm).filter fun i => decide (k ≤ i)) fun i => vget m.vx n.vs2 c.eb (i - k))

/-- VSLIDEDOWN. -/
def vSlideDown (m : Vm) (c : VCfg) (n : VIns) : Ran :=
  let k := slideBy m n
  legal (sameGroups c n && n.clearOfMask) m
    (vwrite m.vx n.vd c.eb (active m.vx n.vm) fun i => if i + k < c.vlmax then vget m.vx n.vs2 c.eb (i + k) else 0)

/-- VSLIDE1UP and VFSLIDE1UP. -/
def vSlide1Up (m : Vm) (c : VCfg) (n : VIns) (x : Nat) : Ran :=
  legal (sameGroups c n && n.clearOfMask && clearOfVs2 c n) m
    (vwrite m.vx n.vd c.eb (active m.vx n.vm) fun i => if i = 0 then x else vget m.vx n.vs2 c.eb (i - 1))

/-- VSLIDE1DOWN and VFSLIDE1DOWN. -/
def vSlide1Down (m : Vm) (c : VCfg) (n : VIns) (x : Nat) : Ran :=
  legal (sameGroups c n && n.clearOfMask) m
    (vwrite m.vx n.vd c.eb (active m.vx n.vm) fun i => if i + 1 = m.vx.vl then x else vget m.vx n.vs2 c.eb (i + 1))

/-- The body elements, masked or not. -/
def body (v : VecSt) : List Nat := active v true

/-- VADC and VSBC: always with the mask bits, never masked. -/
def vCarry (m : Vm) (c : VCfg) (n : VIns) (f : Nat → Nat → Nat → Int) : Ran :=
  legal (sameGroups c n && !n.vm && decide (n.vd ≠ 0)) m
    (vwrite m.vx n.vd c.eb (body m.vx) fun i =>
      wr c.bits (f (vget m.vx n.vs2 c.eb i) (opOne m.vx n c.eb false i) (if vbit m.vx 0 i then 1 else 0)))

/-- VMADC and VMSBC: the carry or borrow out. -/
def vCarryOut (m : Vm) (c : VCfg) (n : VIns) (f : Nat → Nat → Nat → Bool) : Ran :=
  legal (maskGroups c n) m
    (vwriteBits m.vx n.vd (body m.vx) fun i =>
      f (vget m.vx n.vs2 c.eb i) (opOne m.vx n c.eb false i) (if !n.vm && vbit m.vx 0 i then 1 else 0))

/-- VMERGE and VMV.V: operand 1 where the mask bit is set, else vs2. -/
def vMerge (m : Vm) (c : VCfg) (n : VIns) (one : Nat → Nat) : Ran :=
  legal (sameGroups c n && (if n.vm then decide (n.vs2 = 0) else decide (n.vd ≠ 0))) m
    (vwrite m.vx n.vd c.eb (body m.vx) fun i => if n.vm || vbit m.vx 0 i then one i else vget m.vx n.vs2 c.eb i)

/-- Copies the register group of VMVnR.V. -/
def vMoveRegs (m : Vm) (c : VCfg) (n : VIns) : Ran :=
  let k := n.vs1 + 1
  let is := (List.range (k * 256 / c.eb)).filter fun i => decide (m.vx.vstart ≤ i)
  legal (n.vm && decide (k = 1 ∨ k = 2 ∨ k = 4 ∨ k = 8) && decide (n.vd % k = 0) && decide (n.vs2 % k = 0)) m
    (vwrite m.vx n.vd c.eb is fun i => vget m.vx n.vs2 c.eb i)

/-- A reduction into element 0 of vd from element 0 of vs1 over the active elements of vs2, in their order. -/
def vReduce (m : Vm) (c : VCfg) (n : VIns) (db : Nat) (f : Nat → Nat → Nat) : Ran :=
  let r := (active m.vx n.vm).foldl (fun a i => f a (vget m.vx n.vs2 c.eb i)) (vget m.vx n.vs1 db 0)
  legal (n.vv && decide (m.vx.vstart = 0) && decide (db ≤ 4) && vgroupOk n.vs2 c.lm) m
    (if m.vx.vl = 0 then m.vx else vput n.vd db 0 r m.vx)

/-! ## OPIVV, OPIVX, OPIVI -/

/-- The forms an operation has. -/
def formIn (n : VIns) (l : List Nat) (r : Ran) (m : Vm) : Ran := if l.contains n.f3 then r else .trap 2 m

/-- The integer instructions of funct3 0, 3 and 4. -/
def vecInt (m : Vm) (c : VCfg) (n : VIns) : Ran :=
  let b := c.bits
  let rm := m.vx.vxrm.toNat
  let bin := fun (l : List Nat) (f : Nat → Nat → Nat) => formIn n l (vBin m c n false f) m
  let shift := fun (f : Nat → Nat → Nat) => vBin m c n true f
  let cmp := fun (l : List Nat) (f : Nat → Nat → Bool) => formIn n l (vCmp m c n f) m
  match n.f6 with
  | 0 => bin [0, 3, 4] fun x y => wr b (x + y)
  | 2 => bin [0, 4] fun x y => wr b (x - y)
  | 3 => bin [3, 4] fun x y => wr b (y - x)
  | 4 => bin [0, 4] fun x y => min x y
  | 5 => bin [0, 4] fun x y => if sgn b x < sgn b y then x else y
  | 6 => bin [0, 4] fun x y => max x y
  | 7 => bin [0, 4] fun x y => if sgn b x < sgn b y then y else x
  | 9 => bin [0, 3, 4] fun x y => x &&& y
  | 10 => bin [0, 3, 4] fun x y => x ||| y
  | 11 => bin [0, 3, 4] fun x y => x ^^^ y
  | 12 => vGather m c n
  | 14 => if n.f3 = 0 then vGather16 m c n else vSlideUp m c n
  | 15 => formIn n [3, 4] (vSlideDown m c n) m
  | 16 => vCarry m c n fun x y k => x + y + k
  | 17 => vCarryOut m c n fun x y k => decide (2 ^ b ≤ x + y + k)
  | 18 => formIn n [0, 4] (vCarry m c n fun x y k => (x : Int) - y - k) m
  | 19 => formIn n [0, 4] (vCarryOut m c n fun x y k => decide (x < y + k)) m
  | 23 => vMerge m c n (opOne m.vx n c.eb false)
  | 24 => cmp [0, 3, 4] fun x y => decide (x = y)
  | 25 => cmp [0, 3, 4] fun x y => decide (x ≠ y)
  | 26 => cmp [0, 4] fun x y => decide (x < y)
  | 27 => cmp [0, 4] fun x y => decide (sgn b x < sgn b y)
  | 28 => cmp [0, 3, 4] fun x y => decide (x ≤ y)
  | 29 => cmp [0, 3, 4] fun x y => decide (sgn b x ≤ sgn b y)
  | 30 => cmp [3, 4] fun x y => decide (y < x)
  | 31 => cmp [3, 4] fun x y => decide (sgn b y < sgn b x)
  | 32 => vSat m c n fun x y => satBits b false (x + y)
  | 33 => vSat m c n fun x y => satBits b true (sgn b x + sgn b y)
  | 34 => formIn n [0, 4] (vSat m c n fun x y => satBits b false ((x : Int) - y)) m
  | 35 => formIn n [0, 4] (vSat m c n fun x y => satBits b true (sgn b x - sgn b y)) m
  | 37 => shift fun x y => x * 2 ^ (y % b) % 2 ^ b
  | 39 =>
    if n.f3 = 3 then vMoveRegs m c n
    else vSat m c n fun x y => satBits b true (roundoff rm (sgn b x * sgn b y) (b - 1))
  | 40 => shift fun x y => x / 2 ^ (y % b)
  | 41 => shift fun x y => wr b (sgn b x / 2 ^ (y % b))
  | 42 => shift fun x y => wr b (roundoff rm x (y % b))
  | 43 => shift fun x y => wr b (roundoff rm (sgn b x) (y % b))
  | 44 => vNarrow m c n fun x y => (x / 2 ^ y % 2 ^ b, false)
  | 45 => vNarrow m c n fun x y => (wr b (sgn (2 * b) x / 2 ^ y), false)
  | 46 => vNarrow m c n fun x y => satBits b false (roundoff rm x y)
  | 47 => vNarrow m c n fun x y => satBits b true (roundoff rm (sgn (2 * b) x) y)
  | 48 => vReduce m c n (2 * c.eb) fun a x => (a + x) % 2 ^ (2 * b)
  | 49 => vReduce m c n (2 * c.eb) fun a x => wr (2 * b) (a + sgn b x)
  | _ => .trap 2 m

/-! ## OPMVV, OPMVX -/

/-- The mask instructions of two mask registers, never masked. -/
def vMaskOp (m : Vm) (n : VIns) (f : Bool → Bool → Bool) : Ran :=
  legal (n.vm && n.vv) m (vwriteBits m.vx n.vd (body m.vx) fun i => f (vbit m.vx n.vs2 i) (vbit m.vx n.vs1 i))

/-- The first active element whose bit of vs2 is set. -/
def firstSet (m : Vm) (n : VIns) : Option Nat := (active m.vx n.vm).find? fun i => vbit m.vx n.vs2 i

/-- VMV.X.S, VCPOP.M and VFIRST.M. -/
def vToX (m : Vm) (c : VCfg) (n : VIns) : Ran :=
  let put := fun (x : W32) => m.vx.setX n.vd x
  match n.vs1 with
  | 0 => legal n.vm m (put (BitVec.ofInt 32 (sgn c.bits (vget m.vx n.vs2 c.eb 0))))
  | 16 => legal (decide (m.vx.vstart = 0)) m
    (put (BitVec.ofNat 32 ((active m.vx n.vm).filter fun i => vbit m.vx n.vs2 i).length))
  | 17 => legal (decide (m.vx.vstart = 0)) m (put (match firstSet m n with
    | some i => BitVec.ofNat 32 i
    | none => 0xFFFFFFFF#32))
  | _ => .trap 2 m

/-- Writes element 0 where the body is not empty: VMV.S.X and VFMV.S.F. -/
def vPutFirst (m : Vm) (c : VCfg) (n : VIns) (x : Nat) : Ran :=
  legal (n.vm && decide (n.vs2 = 0)) m (if m.vx.vstart < m.vx.vl then vput n.vd c.eb 0 x m.vx else m.vx)

/-- VZEXT and VSEXT from `c.eb / k` bytes. -/
def vExtend (m : Vm) (c : VCfg) (n : VIns) (k : Nat) (signd : Bool) : Ran :=
  let sb := c.eb / k
  legal (decide (1 ≤ sb) && vgroupOk n.vd c.lm && vgroupOk n.vs2 (c.lm / k) && n.clearOfMask
      && overlapOk n.vd c.bits c.lm n.vs2 (8 * sb) (c.lm / k)) m
    (vwrite m.vx n.vd c.eb (active m.vx n.vm) fun i =>
      let x := vget m.vx n.vs2 sb i
      if signd then wr c.bits (sgn (8 * sb) x) else x)

/-- VMSBF, VMSIF, VMSOF, VIOTA and VID. -/
def vMaskUnary (m : Vm) (c : VCfg) (n : VIns) : Ran :=
  let is := active m.vx n.vm
  let ok := decide (m.vx.vstart = 0) && n.clearOfMask && decide (n.vd ≠ n.vs2)
  let from1 := fun (f : Nat → Nat → Bool) =>
    legal ok m (vwriteBits m.vx n.vd is fun i => match firstSet m n with
      | some k => f i k
      | none => f i (2 ^ 32))
  match n.vs1 with
  | 1 => from1 fun i k => decide (i < k)
  | 2 => from1 fun i k => decide (i = k)
  | 3 => from1 fun i k => decide (i ≤ k)
  | 16 => legal (decide (m.vx.vstart = 0) && n.clearOfMask && vgroupOk n.vd c.lm
      && !share n.vd (vgroupRegs c.lm) n.vs2 1) m
    (vwrite m.vx n.vd c.eb is fun i => (is.filter fun k => decide (k < i) && vbit m.vx n.vs2 k).length % 2 ^ c.bits)
  | 17 => legal (decide (n.vs2 = 0) && n.clearOfMask && vgroupOk n.vd c.lm) m
    (vwrite m.vx n.vd c.eb is fun i => i % 2 ^ c.bits)
  | _ => .trap 2 m

/-- VCOMPRESS: the elements of vs2 whose bit of vs1 is set, packed from element 0. -/
def vCompress (m : Vm) (c : VCfg) (n : VIns) : Ran :=
  let src := (List.range m.vx.vl).filter fun i => vbit m.vx n.vs1 i
  legal (n.vm && n.vv && decide (m.vx.vstart = 0) && vgroupOk n.vd c.lm && vgroupOk n.vs2 c.lm && clearOfVs2 c n
      && !share n.vd (vgroupRegs c.lm) n.vs1 1) m
    (vwrite m.vx n.vd c.eb (List.range src.length) fun i => vget m.vx n.vs2 c.eb (src.getD i 0))

/-- A multiply-add: vd, operand 1 and vs2 give the new vd. -/
def vMac (m : Vm) (c : VCfg) (n : VIns) (f : Nat → Nat → Nat → Int) : Ran :=
  legal (sameGroups c n && n.clearOfMask) m
    (vwrite m.vx n.vd c.eb (active m.vx n.vm) fun i =>
      wr c.bits (f (vget m.vx n.vd c.eb i) (opOne m.vx n c.eb false i) (vget m.vx n.vs2 c.eb i)))

/-- A widening operation: vd of twice the width from vd, vs2 (of twice the width when `wide`) and operand 1. -/
def vWiden (m : Vm) (c : VCfg) (n : VIns) (wide : Bool) (f : Nat → Nat → Nat → Int) : Ran :=
  let sb := if wide then 2 * c.eb else c.eb
  legal (decide (c.eb < 4) && vgroupOk n.vd (2 * c.lm) && vgroupOk n.vs2 (if wide then 2 * c.lm else c.lm)
      && (!n.vv || (vgroupOk n.vs1 c.lm && overlapOk n.vd (2 * c.bits) (2 * c.lm) n.vs1 c.bits c.lm))
      && overlapOk n.vd (2 * c.bits) (2 * c.lm) n.vs2 (8 * sb) (if wide then 2 * c.lm else c.lm) && n.clearOfMask) m
    (vwrite m.vx n.vd (2 * c.eb) (active m.vx n.vm) fun i =>
      wr (2 * c.bits) (f (vget m.vx n.vd (2 * c.eb) i) (vget m.vx n.vs2 sb i) (opOne m.vx n c.eb false i)))

/-- The integer instructions of funct3 2 and 6. -/
def vecMul (m : Vm) (c : VCfg) (n : VIns) : Ran :=
  let b := c.bits
  let s := sgn b
  let rm := m.vx.vxrm.toNat
  let bin := vBin m c n false
  let red := fun (f : Nat → Nat → Nat) => vReduce m c n c.eb f
  match n.f6 with
  | 0 => red fun a x => (a + x) % 2 ^ b
  | 1 => red fun a x => a &&& x
  | 2 => red fun a x => a ||| x
  | 3 => red fun a x => a ^^^ x
  | 4 => red fun a x => min a x
  | 5 => red fun a x => if s x < s a then x else a
  | 6 => red fun a x => max a x
  | 7 => red fun a x => if s a < s x then x else a
  | 8 => bin fun x y => wr b (roundoff rm (x + y) 1)
  | 9 => bin fun x y => wr b (roundoff rm (s x + s y) 1)
  | 10 => bin fun x y => wr b (roundoff rm ((x : Int) - y) 1)
  | 11 => bin fun x y => wr b (roundoff rm (s x - s y) 1)
  | 14 => formIn n [6] (vSlide1Up m c n ((m.vx.xr n.vs1).toNat % 2 ^ b)) m
  | 15 => formIn n [6] (vSlide1Down m c n ((m.vx.xr n.vs1).toNat % 2 ^ b)) m
  | 16 => if n.vv then vToX m c n else vPutFirst m c n ((m.vx.xr n.vs1).toNat % 2 ^ b)
  | 18 => formIn n [2] (match n.vs1 with
    | 4 => vExtend m c n 4 false
    | 5 => vExtend m c n 4 true
    | 6 => vExtend m c n 2 false
    | 7 => vExtend m c n 2 true
    | _ => .trap 2 m) m
  | 20 => formIn n [2] (vMaskUnary m c n) m
  | 23 => vCompress m c n
  | 24 => vMaskOp m n fun x y => x && !y
  | 25 => vMaskOp m n fun x y => x && y
  | 26 => vMaskOp m n fun x y => x || y
  | 27 => vMaskOp m n fun x y => xor x y
  | 28 => vMaskOp m n fun x y => x || !y
  | 29 => vMaskOp m n fun x y => !(x && y)
  | 30 => vMaskOp m n fun x y => !(x || y)
  | 31 => vMaskOp m n fun x y => !(xor x y)
  | 32 => bin fun x y => if y = 0 then 2 ^ b - 1 else x / y
  | 33 => bin fun x y => wr b (divInt (s x) (s y)).1
  | 34 => bin fun x y => if y = 0 then x else x % y
  | 35 => bin fun x y => wr b (divInt (s x) (s y)).2
  | 36 => bin fun x y => x * y / 2 ^ b
  | 37 => bin fun x y => x * y % 2 ^ b
  | 38 => bin fun x y => wr b (s x * y / 2 ^ b)
  | 39 => bin fun x y => wr b (s x * s y / 2 ^ b)
  | 41 => vMac m c n fun d y x => y * d + x
  | 43 => vMac m c n fun d y x => (x : Int) - y * d
  | 45 => vMac m c n fun d y x => y * x + d
  | 47 => vMac m c n fun d y x => (d : Int) - y * x
  | 48 => vWiden m c n false fun _ x y => x + y
  | 49 => vWiden m c n false fun _ x y => s x + s y
  | 50 => vWiden m c n false fun _ x y => (x : Int) - y
  | 51 => vWiden m c n false fun _ x y => s x - s y
  | 52 => vWiden m c n true fun _ x y => x + y
  | 53 => vWiden m c n true fun _ x y => x + s y
  | 54 => vWiden m c n true fun _ x y => (x : Int) - y
  | 55 => vWiden m c n true fun _ x y => x - s y
  | 56 => vWiden m c n false fun _ x y => x * y
  | 58 => vWiden m c n false fun _ x y => s x * y
  | 59 => vWiden m c n false fun _ x y => s x * s y
  | 60 => vWiden m c n false fun d x y => d + y * x
  | 61 => vWiden m c n false fun d x y => d + s y * s x
  | 62 => formIn n [6] (vWiden m c n false fun d x y => d + y * s x) m
  | 63 => vWiden m c n false fun d x y => d + s y * x
  | _ => .trap 2 m

/-! ## OPFVV, OPFVF -/

/-- FP operand 1: an element of vs1 or f[rs1]. -/
def fpOne (v : VecSt) (n : VIns) (i : Nat) : W32 := if n.vv then BitVec.ofNat 32 (vget v n.vs1 4 i) else v.fr n.vs1

/-- Element of FP32. -/
def fpEl (v : VecSt) (r i : Nat) : W32 := BitVec.ofNat 32 (vget v r 4 i)

/-- An element-wise FP operation of vs2, operand 1 and vd; flags accrue from the active elements. -/
def vFp (m : Vm) (c : VCfg) (n : VIns) (f : W32 → W32 → W32 → FpOut) : Ran :=
  let is := active m.vx n.vm
  let g := fun (i : Nat) => f (fpEl m.vx n.vs2 i) (fpOne m.vx n i) (fpEl m.vx n.vd i)
  legal (sameGroups c n && n.clearOfMask) m
    (is.foldl (fun u i => (vput n.vd 4 i (g i).v.toNat u).accrue (g i).fl) m.vx)

/-- An FP comparison into a mask. -/
def vFpCmp (m : Vm) (c : VCfg) (n : VIns) (f : W32 → W32 → Bool × Nat) : Ran :=
  let g := fun (i : Nat) => f (fpEl m.vx n.vs2 i) (fpOne m.vx n i)
  legal (maskGroups c n) m
    ((active m.vx n.vm).foldl (fun u i => (vputBit n.vd i (g i).1 u).accrue (g i).2) m.vx)

/-- An FP reduction, in element order. -/
def vFpReduce (m : Vm) (c : VCfg) (n : VIns) (f : W32 → W32 → FpOut) : Ran :=
  let r := (active m.vx n.vm).foldl (fun (a : FpOut) i =>
    let o := f a.v (fpEl m.vx n.vs2 i)
    FpOut.mk o.v (a.fl ||| o.fl)) (FpOut.mk (fpEl m.vx n.vs1 0) 0)
  legal (n.vv && decide (m.vx.vstart = 0) && vgroupOk n.vs2 c.lm) m
    (if m.vx.vl = 0 then m.vx else (vput n.vd 4 0 r.v.toNat m.vx).accrue r.fl)

/-- Seven bits of 2 / (1 + i / 128), taken in the middle of the interval, less 1. -/
def rec7Bits (i : Nat) : Nat := (131072 + 257 + 2 * i) / (2 * (257 + 2 * i)) - 128

/-- Seven bits of the reciprocal square root, by the exponent's low bit and six bits of the significand. -/
def rsqrt7Bits (i : Nat) : Nat :=
  let q := 4 * (2097152 * (if i < 64 then 2 else 4)) / (129 + 2 * (i % 64))
  (isqrt q + 1) / 2 - 128

/-- A value normalised: the exponent, 0 and below for subnormals, and 23 bits of significand. -/
def normParts (a : W32) : Int × Nat :=
  let e : Nat := a.toNat / 2 ^ 23 % 256
  let f := a.toNat % 2 ^ 23
  if e = 0 then ((Nat.log2 f : Int) - 22, f * 2 ^ (23 - Nat.log2 f) % 2 ^ 23) else (e, f)

/-- VFREC7: a 7-bit estimate of 1 / a. -/
def fpRec7 (rm : Rm) (a : W32) : FpOut :=
  let s := fpSign a
  match val32 a with
  | .nan => ⟨nan32, nvOf [a]⟩
  | .inf _ => ⟨signed s 0, 0⟩
  | .fin _ n _ =>
    if n = 0 then ⟨signed s 0x7F800000, 8⟩
    else
      let (e, f) := normParts a
      if e < -1 then overflowed rm s
      else
        let o := 253 - e
        let sig := rec7Bits (f / 2 ^ 16) * 2 ^ 16
        if 0 < o then ⟨signed s (o.toNat * 2 ^ 23 + sig), 0⟩
        else ⟨signed s ((sig / 2 + 2 ^ 22) / (if o = 0 then 1 else 2)), 0⟩

/-- VFRSQRT7: a 7-bit estimate of 1 / √a. -/
def fpRsqrt7 (a : W32) : FpOut :=
  match val32 a with
  | .nan => ⟨nan32, nvOf [a]⟩
  | .inf s => if s then ⟨nan32, 16⟩ else ⟨0#32, 0⟩
  | .fin s n _ =>
    if n = 0 then ⟨signed s 0x7F800000, 8⟩
    else if s then ⟨nan32, 16⟩
    else
      let (e, f) := normParts a
      ⟨BitVec.ofNat 32 (((380 - e) / 2).toNat * 2 ^ 23 + rsqrt7Bits ((e % 2).toNat * 64 + f / 2 ^ 17) * 2 ^ 16), 0⟩

/-- The conversions of one width: FP32 from and to 32-bit integers. -/
def vConvert (m : Vm) (c : VCfg) (n : VIns) (rm : Rm) : Ran :=
  let un := fun (f : W32 → FpOut) =>
    let is := active m.vx n.vm
    legal (vgroupOk n.vd c.lm && vgroupOk n.vs2 c.lm && n.clearOfMask) m
      (is.foldl (fun u i => (vput n.vd 4 i (f (fpEl m.vx n.vs2 i)).v.toNat u).accrue (f (fpEl m.vx n.vs2 i)).fl) m.vx)
  let toInt := fun (r : Rm) (signd : Bool) (a : W32) =>
    let (i, fl) := if signd then fpToInt r (-2147483648) 2147483647 a else fpToInt r 0 4294967295 a
    FpOut.mk (BitVec.ofInt 32 i) fl
  match n.vs1 with
  | 0 => un (toInt rm false)
  | 1 => un (toInt rm true)
  | 2 => un fun a => fpOfInt rm a.toNat
  | 3 => un fun a => fpOfInt rm a.toInt
  | 6 => un (toInt .rtz false)
  | 7 => un (toInt .rtz true)
  | _ => .trap 2 m

/-- The conversions between FP32 and 16-bit integers (SEW 16): 10 and 11 widen, 16, 17, 22 and 23 narrow. -/
def vConvert16 (m : Vm) (c : VCfg) (n : VIns) (rm : Rm) : Ran :=
  let is := active m.vx n.vm
  let up := fun (signd : Bool) =>
    let g := fun (i : Nat) =>
      let x := vget m.vx n.vs2 2 i
      fpOfInt rm (if signd then sgn 16 x else x)
    legal (vgroupOk n.vd (2 * c.lm) && vgroupOk n.vs2 c.lm && n.clearOfMask
        && overlapOk n.vd 32 (2 * c.lm) n.vs2 16 c.lm) m
      (is.foldl (fun u i => (vput n.vd 4 i (g i).v.toNat u).accrue (g i).fl) m.vx)
  let down := fun (r : Rm) (lo hi : Int) =>
    let g := fun (i : Nat) => fpToInt r lo hi (fpEl m.vx n.vs2 i)
    legal (vgroupOk n.vd c.lm && vgroupOk n.vs2 (2 * c.lm) && n.clearOfMask
        && overlapOk n.vd 16 c.lm n.vs2 32 (2 * c.lm)) m
      (is.foldl (fun u i => (vput n.vd 2 i (wr 16 (g i).1) u).accrue (g i).2) m.vx)
  match n.vs1 with
  | 10 => up false
  | 11 => up true
  | 16 => down rm 0 65535
  | 17 => down rm (-32768) 32767
  | 22 => down .rtz 0 65535
  | 23 => down .rtz (-32768) 32767
  | _ => .trap 2 m

/-- VFSQRT, VFRSQRT7, VFREC7 and VFCLASS. -/
def vFpUnary (m : Vm) (c : VCfg) (n : VIns) (rm : Rm) : Ran :=
  let un := fun (f : W32 → FpOut) =>
    legal (vgroupOk n.vd c.lm && vgroupOk n.vs2 c.lm && n.clearOfMask) m
      ((active m.vx n.vm).foldl
        (fun u i => (vput n.vd 4 i (f (fpEl m.vx n.vs2 i)).v.toNat u).accrue (f (fpEl m.vx n.vs2 i)).fl) m.vx)
  match n.vs1 with
  | 0 => un (fpSqrt rm)
  | 4 => un fpRsqrt7
  | 5 => un (fpRec7 rm)
  | 16 => un fun a => ⟨BitVec.ofNat 32 (fpClass a), 0⟩
  | _ => .trap 2 m

/-- The FP32 instructions of funct3 1 and 5. -/
def vecFp32 (m : Vm) (c : VCfg) (n : VIns) (rm : Rm) : Ran :=
  let bin := fun (f : W32 → W32 → FpOut) => vFp m c n fun x y _ => f x y
  let cmp := vFpCmp m c n
  match n.f6 with
  | 0 => bin (fpAdd rm)
  | 1 => vFpReduce m c n (fpAdd rm)
  | 2 => bin fun x y => fpAdd rm x (fNeg y)
  | 3 => vFpReduce m c n (fpAdd rm)
  | 4 => bin (fpMinMax false)
  | 5 => vFpReduce m c n (fpMinMax false)
  | 6 => bin (fpMinMax true)
  | 7 => vFpReduce m c n (fpMinMax true)
  | 8 => bin fun x y => ⟨fpSgnj 0 x y, 0⟩
  | 9 => bin fun x y => ⟨fpSgnj 1 x y, 0⟩
  | 10 => bin fun x y => ⟨fpSgnj 2 x y, 0⟩
  | 14 => formIn n [5] (vSlide1Up m c n (m.vx.fr n.vs1).toNat) m
  | 15 => formIn n [5] (vSlide1Down m c n (m.vx.fr n.vs1).toNat) m
  | 16 =>
    if n.vv then legal (n.vm && decide (n.vs1 = 0)) m (m.vx.setF n.vd (fpEl m.vx n.vs2 0))
    else vPutFirst m c n (m.vx.fr n.vs1).toNat
  | 18 => formIn n [1] (vConvert m c n rm) m
  | 19 => formIn n [1] (vFpUnary m c n rm) m
  | 23 => formIn n [5] (vMerge m c n fun _ => (m.vx.fr n.vs1).toNat) m
  | 24 => cmp (fpCmp 2)
  | 25 => cmp (fpCmp 0)
  | 27 => cmp (fpCmp 1)
  | 28 => cmp fun x y => (!(fpCmp 2 x y).1, (fpCmp 2 x y).2)
  | 29 => formIn n [5] (cmp fun x y => fpCmp 1 y x) m
  | 31 => formIn n [5] (cmp fun x y => fpCmp 0 y x) m
  | 32 => bin (fpDiv rm)
  | 33 => formIn n [5] (bin fun x y => fpDiv rm y x) m
  | 36 => bin (fpMul rm)
  | 39 => formIn n [5] (bin fun x y => fpAdd rm y (fNeg x)) m
  | 40 => vFp m c n fun x y d => fusedOp 0 rm y d x
  | 41 => vFp m c n fun x y d => fusedOp 3 rm y d x
  | 42 => vFp m c n fun x y d => fusedOp 1 rm y d x
  | 43 => vFp m c n fun x y d => fusedOp 2 rm y d x
  | 44 => vFp m c n fun x y d => fusedOp 0 rm y x d
  | 45 => vFp m c n fun x y d => fusedOp 3 rm y x d
  | 46 => vFp m c n fun x y d => fusedOp 1 rm y x d
  | 47 => vFp m c n fun x y d => fusedOp 2 rm y x d
  | _ => .trap 2 m

/-- The FP instructions: at SEW 32, and the conversions of 16-bit integers at SEW 16; frm must name a mode. -/
def vecFp (m : Vm) (c : VCfg) (n : VIns) : Ran :=
  match rmOf m.vx.frm.toNat with
  | none => .trap 2 m
  | some rm =>
    if c.eb = 4 then vecFp32 m c n rm
    else if c.eb = 2 ∧ n.f3 = 1 ∧ n.f6 = 18 then vConvert16 m c n rm
    else .trap 2 m

/-- One instruction of OP-V (0x57). -/
def vecOp (m : Vm) (w : W32) : Ran :=
  let n := vinsOf w
  if n.f3 = 7 then doVset m w
  else match vcfgOf m.vx.vtype.toNat with
    | none => .trap 2 m
    | some c =>
      if n.f3 = 0 ∨ n.f3 = 3 ∨ n.f3 = 4 then vecInt m c n
      else if n.f3 = 1 ∨ n.f3 = 5 then vecFp m c n
      else vecMul m c n

/-! ## Vector loads and stores -/

/-- The accesses of a vector memory instruction, in order: element, register, address. -/
structure VAcc where
  i : Nat
  r : Nat
  a : Nat

/-- Loads the accesses; at a fault it says at which element. -/
def loadAll (m : Vm) (eb : Nat) : List VAcc → VecSt → VecSt × Option Nat
  | [], v => (v, none)
  | x :: l, v => match m.load x.a eb with
    | some w => loadAll m eb l (vput x.r eb x.i w v)
    | none => (v, some x.i)

/-- Stores the accesses, stopping at a fault. -/
def storeAll (eb : Nat) : List VAcc → Vm → Vm × Option Nat
  | [], m => (m, none)
  | x :: l, m => match m.store x.a eb (vget m.vx x.r eb x.i) with
    | some t => storeAll eb l t
    | none => (m, some x.i)

/-- Runs a list of loads. `first`: a fault beyond element 0 shortens vl instead (the fault-only-first form). -/
def vLoads (m : Vm) (ok : Bool) (eb : Nat) (first : Bool) (l : List VAcc) : Ran :=
  if !ok then .trap 2 m
  else match loadAll m eb l m.vx with
    | (v, none) => m.go { v with vstart := 0 }
    | (v, some i) =>
      if first && decide (i ≠ 0) then m.go { v with vstart := 0, vl := i } else .trap 5 { m with vx := { v with vstart := i } }

/-- Runs a list of stores. -/
def vStores (m : Vm) (ok : Bool) (eb : Nat) (l : List VAcc) : Ran :=
  if !ok then .trap 2 m
  else match storeAll eb l m with
    | (t, none) => t.go { t.vx with vstart := 0 }
    | (t, some i) => .trap 7 { t with vx := { t.vx with vstart := i } }

/-- The accesses of `nf` fields of elements `is`, element by element. -/
def accesses (is : List Nat) (nf vd regs : Nat) (addr : Nat → Nat → Nat) : List VAcc :=
  is.flatMap fun i => (List.range nf).map fun k => ⟨i, vd + k * regs, addr i k % 2 ^ 32⟩

/-- Whether a segment's registers fit. -/
def segOk (vd nf e8 : Nat) : Bool := vgroupOk vd e8 && decide (nf * e8 ≤ 64) && decide (vd + nf * vgroupRegs e8 ≤ 32)

/-- A vector load or store with its width in bytes. -/
def vecMem (m : Vm) (w : W32) (store : Bool) (wb : Nat) : Ran :=
  let n := vinsOf w
  let nf := ib w 31 29 + 1
  let mop := ib w 27 26
  let base := (m.vx.xr n.vs1).toNat
  let all := fun (k : Nat) => (List.range k).filter fun i => decide (m.vx.vstart ≤ i)
  let run := fun (ok : Bool) (eb : Nat) (first : Bool) (l : List VAcc) =>
    if store then vStores m ok eb l else vLoads m ok eb first l
  if ib w 28 28 = 1 then .trap 2 m
  else if mop = 0 ∧ n.vs2 = 8 then
    let ok := n.vm && decide (nf = 1 ∨ nf = 2 ∨ nf = 4 ∨ nf = 8) && decide (n.vd % nf = 0) && (!store || decide (wb = 1))
    run ok wb false ((all (nf * 256 / wb)).map fun i => ⟨i, n.vd, (base + i * wb) % 2 ^ 32⟩)
  else match vcfgOf m.vx.vtype.toNat with
    | none => .trap 2 m
    | some c =>
      let is := active m.vx n.vm
      let e8 := wb * c.lm / c.eb
      let masked := store || n.clearOfMask
      let unit := accesses is nf n.vd (vgroupRegs e8) fun i k => base + (i * nf + k) * wb
      if mop = 0 then
        if n.vs2 = 0 then run (segOk n.vd nf e8 && masked) wb false unit
        else if n.vs2 = 16 ∧ store = false then run (segOk n.vd nf e8 && masked) wb true unit
        else if n.vs2 = 11 then
          run (n.vm && decide (nf = 1) && decide (wb = 1)) 1 false
            ((all ((m.vx.vl + 7) / 8)).map fun i => ⟨i, n.vd, (base + i) % 2 ^ 32⟩)
        else .trap 2 m
      else if mop = 2 then
        let stride := (m.vx.xr n.vs2).toNat
        run (segOk n.vd nf e8 && masked) wb false (accesses is nf n.vd (vgroupRegs e8) fun i k => base + i * stride + k * wb)
      else
        let apart := store || (if nf = 1 then overlapOk n.vd c.bits c.lm n.vs2 (8 * wb) e8
          else !share n.vd (nf * vgroupRegs c.lm) n.vs2 (vgroupRegs e8))
        run (segOk n.vd nf c.lm && vgroupOk n.vs2 e8 && apart && masked) c.eb false
          (accesses is nf n.vd (vgroupRegs c.lm) fun i k => base + vget m.vx n.vs2 wb i + k * c.eb)

/-- LOAD-FP and STORE-FP: the vector widths, and FLW and FSW. -/
def vecLoadStore (m : Vm) (w : W32) (store : Bool) : Ran :=
  match ib w 14 12 with
  | 0 => vecMem m w store 1
  | 2 => rvScalar m w
  | 5 => vecMem m w store 2
  | 6 => vecMem m w store 4
  | _ => .trap 2 m

end Sys2Proof.Machine
end

