-- ==== Sys2Proof/Machine/Vector.lean ====
section
/-!
DEFINITION. The vector engine (R119, R120, R145, R146, R149, R152): its four own instructions, the run of a program, and
vector cards.
-/

namespace Sys2Proof.Machine

/-! ## Draws of the vector lanes (R145, R146) -/

/-- One word from a vector lane's generator: the card's pinned stream, or the cluster's free-mode generator. -/
def vxDraw (m : Vm) (lane : Nat) : W32 × Vm :=
  if m.rs.pinned then
    let (y, st) := drawOne ((tabFind lane m.vx.pinned).getD [])
    (y, { m with vx := { m.vx with pinned := tabIns lane st m.vx.pinned } })
  else
    let (ys, t) := freeDraw m.cl 8 lane 1 m.s
    (ys.headD 0#32, { m with s := t })

/-- The pinned generators of a vector card: one per lane, of its vector tile (R140, R142). -/
def vxSeeds (seed : W64) (r : RSel) : Tab (List W32) :=
  (List.range 64).map fun i => (i, seedState (rngKey seed r.tensor r.step) (vectorStream r.rowTile i))

/-! ## The four instructions of custom-2 (R119) -/

/-- The format codes they accept: BF16, FP16, E4M3 and E5M2. -/
def vxFormat (f : Nat) : Bool := [2, 3, 5, 6].contains f

/-- VX.SRN: each element is rounded stochastically by the full-width rule (R149), one word each, and written as FP32. -/
def vxSrn (m : Vm) (vd vs2 f : Nat) : Ran :=
  let t := (List.range 64).foldl (fun (u : Vm) i =>
    let (y, u') := vxDraw u i
    { u' with vx := vput vd 4 i (widen f (narrow f (.full y) (fpEl m.vx vs2 i)).1).toNat u'.vx }) m
  t.go t.vx

/-- VX.PACK: each element is rounded to nearest even; the codes go to the low bytes of vd, whose other bytes stay. -/
def vxPack (m : Vm) (vd vs2 f : Nat) : Ran :=
  m.go (vwrite m.vx vd (fmtWidth f / 8) (List.range 64) fun i => (narrow f .rne (fpEl m.vx vs2 i)).1)

/-- VX.UNPK: packed elements are widened exactly. -/
def vxUnpk (m : Vm) (vd vs2 f : Nat) : Ran :=
  m.go (vwrite m.vx vd 4 (List.range 64) fun i => (widen f (vget m.vx vs2 (fmtWidth f / 8) i)).toNat)

/-- r of R152, 3.6541529, in units of 2⁻²³, rounded to nearest. -/
def normR : Nat := 30653256

/-- One attempt of R152 on a lane: the words it took and the value where it accepts. The arithmetic of the wedge's density test and of
the tail is free, a function of the words alone, the tail's excess being less than 16 (log 51). The tail's two words are the one that
chose layer 0 and one more, and a rejected tail starts a new attempt (DESIGN CHOICE, log 97). -/
def normAttempt (m : Vm) (lane : Nat) : Nat × Option W32 × Vm :=
  let (y, m1) := vxDraw m lane
  let w := y.toNat
  let layer := w % 256
  let (x, ratio, f) := Config.normTable layer
  let u := to32 (.fin false (w / 512) (-23))
  let neg := w / 256 % 2 == 1
  let v := signed neg ((fMul u x).toNat % 2 ^ 31)
  if fLt u ratio then (1, some v, m1)
  else if layer = 0 then
    let (y2, m2) := vxDraw m1 lane
    (2, (Config.normTail (w / 512) y2).map fun e => to32 (.fin neg (normR + e % 2 ^ 27) (-23)), m2)
  else
    let (y2, m2) := vxDraw m1 lane
    (2, if Config.normWedge f (Config.normTable (layer + 1)).2.2 v y2 then some v else none, m2)

/-- A lane draws until it accepts, within `fuel` words: the words it took and its value. -/
def normLane (lane : Nat) : Nat → Nat → Vm → Nat × Option W32 × Vm
  | 0, n, m => (n, none, m)
  | fuel + 1, n, m => match normAttempt m lane with
    | (k, some v, t) => (n + k, some v, t)
    | (k, none, t) => normLane lane fuel (n + k) t

/-- VX.NORM: one cycle per word of the slowest lane (R152). A lane that has not accepted when the budget ends leaves the
instruction unfinished: nothing is written and no cycle is left. -/
def vxNorm (m : Vm) (vd : Nat) : Ran :=
  let (slow, vals, t) := (List.range 64).foldl (fun (a : Nat × List (Option W32) × Vm) i =>
    let (n, v, u) := normLane i (m.left + 1) 0 a.2.2
    (max a.1 n, a.2.1 ++ [v], u)) (1, [], m)
  if m.left + 1 < slow ∨ vals.any Option.isNone then .next { t with left := 0 }
  else
    let u := { t with left := m.left + 1 - slow }
    u.go (vwrite u.vx vd 4 (List.range 64) fun i => ((vals.getD i none).getD 0#32).toNat)

/-- An instruction of custom-2; funct3 4 to 7 and other format codes are illegal (R119). -/
def vxOwn (m : Vm) (f3 vd vs2 rs1 : Nat) : Ran :=
  let f := (m.vx.xr rs1).toNat % 16
  match f3 with
  | 0 => if vxFormat f then vxSrn m vd vs2 f else .trap 2 m
  | 1 => if vxFormat f then vxPack m vd vs2 f else .trap 2 m
  | 2 => if vxFormat f then vxUnpk m vd vs2 f else .trap 2 m
  | 3 => vxNorm m vd
  | _ => .trap 2 m

/-! ## A program (R119, R120) -/

/-- One instruction, fetched from the instruction memory; beyond its end the fetch faults (cause 1). -/
def vmStep (m : Vm) : Ran :=
  if 0x10000 < m.vx.pc + 4 then .trap 1 m
  else
    let w := memW32 m.s.mem (imemKey m.cl m.vx.pc)
    match ib w 6 0 with
    | 0x5B => vxOwn m (ib w 14 12) (ib w 11 7) (ib w 24 20) (ib w 19 15)
    | 0x57 => vecOp m w
    | 0x07 => vecLoadStore m w false
    | 0x27 => vecLoadStore m w true
    | _ => rvScalar m w

/-- Runs until ECALL, a fault (its cause goes to a7), or the end of the budget, one cycle per instruction. -/
def vmRun : Nat → Vm → Status × Vm
  | 0, m => (.vxBudgetExceeded, m)
  | n + 1, m =>
    if m.left = 0 then (.vxBudgetExceeded, m)
    else match vmStep { m with left := m.left - 1 } with
      | .next t => vmRun n t
      | .ecall t => (.ok, t)
      | .trap c t => (.vxFault, { t with vx := t.vx.setX 17 (BitVec.ofNat 32 c) })

/-- BUDGET. -/
def vxBudget (c : Card) : Nat := fld c.w2 28 16

/-- The arguments, loaded into a0 to a7. -/
def vxArgs (c : Card) (v : VecSt) : VecSt :=
  (List.range 8).foldl (fun u i => u.setX (10 + i) (((cardWord c (3 + i / 2)) >>> (32 * (i % 2))).truncate 32)) v

/-- The engine at the start of a card: entry, arguments, and in pinned mode the generators seeded in 31 cycles of the
budget (R120, R146). -/
def vxStart (cl : Nat) (c : Card) (s : State) : Vm :=
  let r := rselOf c.w7
  let v := vxArgs c (getCl s cl).vx
  { s := s, cl := cl, rs := r, left := vxBudget c - if r.pinned then 31 else 0,
    vx := { v with pc := 4 * fld c.w2 13 0, pinned := if r.pinned then vxSeeds (clSeed s cl) r else [] } }

/-- Puts the engine's registers back into the cluster. -/
def vxKeep (m : Vm) : State := modCl m.cl (fun c => { c with vx := m.vx }) m.s

/-- Issues a vector card: the program runs, its stores stand, and the card retires with its end (R120). -/
def issueVector (cl : Nat) (s : State) : State :=
  issueHead cl 9 (fun c => decide (c.opcode = 0)) (fun _ q => 2500 * vxBudget q.card)
    (fun q t =>
      let (st, m) := vmRun (vxBudget q.card) (vxStart cl q.card t)
      let n := vxBudget q.card - m.left
      putRun cl 9 (Work.run ⟨st, Flags.none, [], n⟩ q)
        (whenB (flag q.card.w7 0) (bumpBy .rgPinnedTiles q.card.part 1) (vxKeep m))) s

/-- The engine as an instruction of a command finds it: the registers, and the selection of the card in execution. -/
def vxNow (cl : Nat) (s : State) : Vm :=
  let r := match tabFind 9 (getCl s cl).runs with
    | some r => rselOf r.card.w7
    | none => rselOf 0#64
  { s := s, cl := cl, vx := (getCl s cl).vx, rs := r, left := 7520 }

/-- What an instruction leaves: the registers, or for a fault the cause in a7 and VX_FAULT for the card in execution. -/
def vxEnd (r : Ran) : State :=
  match r with
  | .next m => vxKeep m
  | .ecall m => vxKeep m
  | .trap c m =>
    modCl m.cl (fun x => match tabFind 9 x.runs with
      | some y => { x with runs := tabIns 9 { y with status := .vxFault } x.runs }
      | none => x) (vxKeep { m with vx := m.vx.setX 17 (BitVec.ofNat 32 c) })

/-- One of the engine's own instructions on an awake cluster. -/
def vxCommand (cl f3 vd vs2 rs1 : Nat) (s : State) : State :=
  if awake (getCl s cl) then vxEnd (vxOwn (vxNow cl s) f3 vd vs2 rs1) else s

/-- VECTOR_CARD (R120). -/
def execVectorCard (cl : Nat) (s : State) : Host.Outcome State Fault Refusal := running s (issueVector cl)

/-- VX_SRN (R119, R149). -/
def execVxSrn (cl vd vs2 rs1 : Nat) (s : State) : Host.Outcome State Fault Refusal :=
  running s (vxCommand cl 0 vd vs2 rs1)

/-- VX_PACK (R119). -/
def execVxPack (cl vd vs2 rs1 : Nat) (s : State) : Host.Outcome State Fault Refusal :=
  running s (vxCommand cl 1 vd vs2 rs1)

/-- VX_UNPK (R119). -/
def execVxUnpk (cl vd vs2 rs1 : Nat) (s : State) : Host.Outcome State Fault Refusal :=
  running s (vxCommand cl 2 vd vs2 rs1)

/-- VX_NORM (R152). -/
def execVxNorm (cl vd : Nat) (s : State) : Host.Outcome State Fault Refusal := running s (vxCommand cl 3 vd 0 0)

end Sys2Proof.Machine
end

