-- ==== Sys2Proof/Machine/Dispatch.lean ====
section
/-!
DEFINITION. One arm for each command; every arm is one direct call of the command's meaning.
-/

namespace Sys2Proof.Machine

def exec (i : Instr) (s : State) : Host.Outcome State Fault Refusal :=
  match i with
  | .intakeEdge => Sys2Proof.Machine.execIntakeEdge s
  | .commitPoint => Sys2Proof.Machine.execCommitPoint s
  | .workEnd => Sys2Proof.Machine.execWorkEnd s
  | .maintenanceSlot => Sys2Proof.Machine.execMaintenanceSlot s
  | .boundary r => Sys2Proof.Machine.execBoundary r s
  | .tkApplyAtArm who tick => Sys2Proof.Machine.execTkApplyAtArm who tick s
  | .tkApplyAtDisarm who => Sys2Proof.Machine.execTkApplyAtDisarm who s
  | .regWrite who off bytes value => Sys2Proof.Machine.execRegWrite who off bytes value s
  | .tksyncEdge offsetNs widthNs => Sys2Proof.Machine.execTksyncEdge offsetNs widthNs s
  | .tickSyncLost => Sys2Proof.Machine.execTickSyncLost s
  | .ptpMessage m => Sys2Proof.Machine.execPtpMessage m s
  | .ptpTimeLost => Sys2Proof.Machine.execPtpTimeLost s
  | .runList cl => Sys2Proof.Machine.execRunList cl s
  | .cardPost cl => Sys2Proof.Machine.execCardPost cl s
  | .cardRetire cl slot poolBad => Sys2Proof.Machine.execCardRetire cl slot poolBad s
  | .mv cl u up => Sys2Proof.Machine.execMv cl u up s
  | .mmN cl u up => Sys2Proof.Machine.execMmN cl u up s
  | .rv cl u up => Sys2Proof.Machine.execRv cl u up s
  | .op cl u up => Sys2Proof.Machine.execOp cl u up s
  | .ckRetry cl u up => Sys2Proof.Machine.execCkRetry cl u up s
  | .ckRelief cl u up => Sys2Proof.Machine.execCkRelief cl u up s
  | .arithTestReq who target => Sys2Proof.Machine.execArithTestReq who target s
  | .storeTestReq who target => Sys2Proof.Machine.execStoreTestReq who target s
  | .retrainReq who target => Sys2Proof.Machine.execRetrainReq who target s
  | .linkCalReq who target => Sys2Proof.Machine.execLinkCalReq who target s
  | .arithTestPass unit f => Sys2Proof.Machine.execArithTestPass unit f s
  | .storeTestStep unit f => Sys2Proof.Machine.execStoreTestStep unit f s
  | .retrain ch busy ok => Sys2Proof.Machine.execRetrain ch busy ok s
  | .linkCal lane => Sys2Proof.Machine.execLinkCal lane s
  | .retrainPeriodic => Sys2Proof.Machine.execRetrainPeriodic s
  | .testOutcomeApply unit => Sys2Proof.Machine.execTestOutcomeApply unit s
  | .unitRenumber cl => Sys2Proof.Machine.execUnitRenumber cl s
  | .unitRefill unit => Sys2Proof.Machine.execUnitRefill unit s
  | .unitRechecksum unit diff => Sys2Proof.Machine.execUnitRechecksum unit diff s
  | .chainOpen cl => Sys2Proof.Machine.execChainOpen cl s
  | .chainAbort cl => Sys2Proof.Machine.execChainAbort cl s
  | .vectorCard cl => Sys2Proof.Machine.execVectorCard cl s
  | .vxSrn cl vd vs2 rs1 => Sys2Proof.Machine.execVxSrn cl vd vs2 rs1 s
  | .vxPack cl vd vs2 rs1 => Sys2Proof.Machine.execVxPack cl vd vs2 rs1 s
  | .vxUnpk cl vd vs2 rs1 => Sys2Proof.Machine.execVxUnpk cl vd vs2 rs1 s
  | .vxNorm cl vd => Sys2Proof.Machine.execVxNorm cl vd s
  | .transpose cl => Sys2Proof.Machine.execTranspose cl s
  | .gather cl => Sys2Proof.Machine.execGather cl s
  | .chkrow cl => Sys2Proof.Machine.execChkrow cl s
  | .stat cl => Sys2Proof.Machine.execStat cl s
  | .softmax cl => Sys2Proof.Machine.execSoftmax cl s
  | .rmsnorm cl => Sys2Proof.Machine.execRmsnorm cl s
  | .layernorm cl => Sys2Proof.Machine.execLayernorm cl s
  | .act cl => Sys2Proof.Machine.execAct cl s
  | .deriv cl => Sys2Proof.Machine.execDeriv cl s
  | .merge cl => Sys2Proof.Machine.execMerge cl s
  | .reduce cl => Sys2Proof.Machine.execReduce cl s
  | .check cl => Sys2Proof.Machine.execCheck cl s
  | .round cl => Sys2Proof.Machine.execRound cl s
  | .quant cl => Sys2Proof.Machine.execQuant cl s
  | .finishCard cl => Sys2Proof.Machine.execFinishCard cl s
  | .tileSender cl poolBad => Sys2Proof.Machine.execTileSender cl poolBad s
  | .tileArrival h data => Sys2Proof.Machine.execTileArrival h data s
  | .append cl => Sys2Proof.Machine.execAppend cl s
  | .walk cl => Sys2Proof.Machine.execWalk cl s
  | .fill cl => Sys2Proof.Machine.execFill cl s
  | .rgMask cl => Sys2Proof.Machine.execRgMask cl s
  | .scan cl => Sys2Proof.Machine.execScan cl s
  | .final cl => Sys2Proof.Machine.execFinal cl s
  | .gmInit cl => Sys2Proof.Machine.execGmInit cl s
  | .gmMask cl => Sys2Proof.Machine.execGmMask cl s
  | .advance cl => Sys2Proof.Machine.execAdvance cl s
  | .stepDone cl poolBad => Sys2Proof.Machine.execStepDone cl poolBad s
  | .move cl up => Sys2Proof.Machine.execMove cl up s
  | .accum cl up => Sys2Proof.Machine.execAccum cl up s
  | .mtRemoteTimeout cl k => Sys2Proof.Machine.execMtRemoteTimeout cl k s
  | .prefetchLand cl ix up data refused => Sys2Proof.Machine.execPrefetchLand cl ix up data refused s
  | .refreshSlot ch corrected poisoned => Sys2Proof.Machine.execRefreshSlot ch corrected poisoned s
  | .regionZero ch => Sys2Proof.Machine.execRegionZero ch s
  | .reqArrive p rec ns => Sys2Proof.Machine.execReqArrive p rec ns s
  | .cancel p rec atPoint => Sys2Proof.Machine.execCancel p rec atPoint s
  | .reqAdmitTimeout p id => Sys2Proof.Machine.execReqAdmitTimeout p id s
  | .kvPageWaitLimit slot => Sys2Proof.Machine.execKvPageWaitLimit slot s
  | .ringReadIndex job index => Sys2Proof.Machine.execRingReadIndex job index s
  | .smTenantWrite who t value => Sys2Proof.Machine.execSmTenantWrite who t value s
  | .smLatWindowWrite who value => Sys2Proof.Machine.execSmLatWindowWrite who value s
  | .smLatWindowEnd => Sys2Proof.Machine.execSmLatWindowEnd s
  | .publish cl => Sys2Proof.Machine.execPublish cl s
  | .ctPublishStart ctx => Sys2Proof.Machine.execCtPublishStart ctx s
  | .ctCapture ctx ix => Sys2Proof.Machine.execCtCapture ctx ix s
  | .ctEntryReceive ctx ix crcOk => Sys2Proof.Machine.execCtEntryReceive ctx ix crcOk s
  | .ctSwitchArm ctx => Sys2Proof.Machine.execCtSwitchArm ctx s
  | .ctSwitchBroadcast ctx tick => Sys2Proof.Machine.execCtSwitchBroadcast ctx tick s
  | .ctPublishTimeout ctx => Sys2Proof.Machine.execCtPublishTimeout ctx s
  | .ctLoadReq who value => Sys2Proof.Machine.execCtLoadReq who value s
  | .ctLoadComplete p sigOk => Sys2Proof.Machine.execCtLoadComplete p sigOk s
  | .stPush cl up => Sys2Proof.Machine.execStPush cl up s
  | .stPop a => Sys2Proof.Machine.execStPop a s
  | .stRead a => Sys2Proof.Machine.execStRead a s
  | .teachDone cl poolBad => Sys2Proof.Machine.execTeachDone cl poolBad s
  | .expTake cl => Sys2Proof.Machine.execExpTake cl s
  | .expAnnotate p w0 w1 w2 w3 => Sys2Proof.Machine.execExpAnnotate p w0 w1 w2 w3 s
  | .teachTimeout ring index => Sys2Proof.Machine.execTeachTimeout ring index s
  | .rewardTimeout ring index => Sys2Proof.Machine.execRewardTimeout ring index s
  | .lsGet cl u up => Sys2Proof.Machine.execLsGet cl u up s
  | .lsPut cl u => Sys2Proof.Machine.execLsPut cl u s
  | .updDone cl => Sys2Proof.Machine.execUpdDone cl s
  | .updStepAdvance job => Sys2Proof.Machine.execUpdStepAdvance job s
  | .normPost cl poolBad => Sys2Proof.Machine.execNormPost cl poolBad s
  | .normResult job remote => Sys2Proof.Machine.execNormResult job remote s
  | .coll cl => Sys2Proof.Machine.execColl cl s
  | .collSetup job group reports grants => Sys2Proof.Machine.execCollSetup job group reports grants s
  | .chunkIn h data => Sys2Proof.Machine.execChunkIn h data s
  | .chunkOut rank h data => Sys2Proof.Machine.execChunkOut rank h data s
  | .memReq pkg h cls addr => Sys2Proof.Machine.execMemReq pkg h cls addr s
  | .memData cl k first data refused => Sys2Proof.Machine.execMemData cl k first data refused s
  | .sqTimeout cl group => Sys2Proof.Machine.execSqTimeout cl group s
  | .abort job group seq => Sys2Proof.Machine.execAbort job group seq s
  | .poison job group seq chunk step => Sys2Proof.Machine.execPoison job group seq chunk step s
  | .jobRollback job => Sys2Proof.Machine.execJobRollback job s
  | .sqFrameRx port f => Sys2Proof.Machine.execSqFrameRx port f s
  | .sqAck port f => Sys2Proof.Machine.execSqAck port f s
  | .sqNak port f => Sys2Proof.Machine.execSqNak port f s
  | .sqRetransTimeout port dead => Sys2Proof.Machine.execSqRetransTimeout port dead s
  | .sqPortUp port => Sys2Proof.Machine.execSqPortUp port s
  | .sqCtrlMsg m => Sys2Proof.Machine.execSqCtrlMsg m s
  | .contrailMsg job ix data crc => Sys2Proof.Machine.execContrailMsg job ix data crc s
  | .afterglowMsg job pkg die cut offset data last crcOk => Sys2Proof.Machine.execAfterglowMsg job pkg die cut offset data last crcOk s
  | .horizonMsg stream toPort tick epochTag payload => Sys2Proof.Machine.execHorizonMsg stream toPort tick epochTag payload s
  | .agCopyOpen job => Sys2Proof.Machine.execAgCopyOpen job s
  | .agCopyClose job die => Sys2Proof.Machine.execAgCopyClose job die s
  | .agCopyTimeout job => Sys2Proof.Machine.execAgCopyTimeout job s
  | .agSeal job => Sys2Proof.Machine.execAgSeal job s
  | .agDrainStart job => Sys2Proof.Machine.execAgDrainStart job s
  | .agNarrowDone job die => Sys2Proof.Machine.execAgNarrowDone job die s
  | .agDrainTimeout job failed => Sys2Proof.Machine.execAgDrainTimeout job failed s
  | .preempt who job => Sys2Proof.Machine.execPreempt who job s
  | .agPreemptApply job => Sys2Proof.Machine.execAgPreemptApply job s
  | .resume who job => Sys2Proof.Machine.execResume who job s
  | .recover who job pkg => Sys2Proof.Machine.execRecover who job pkg s
  | .shrink who job pkg => Sys2Proof.Machine.execShrink who job pkg s
  | .exportImage who job rd region => Sys2Proof.Machine.execExportImage who job rd region s
  | .hzObsRx port d => Sys2Proof.Machine.execHzObsRx port d s
  | .hzPost cl poolBad => Sys2Proof.Machine.execHzPost cl poolBad s
  | .hzHoldLimit stream => Sys2Proof.Machine.execHzHoldLimit stream s
  | .hzOpen who stream => Sys2Proof.Machine.execHzOpen who stream s
  | .hzClose who stream => Sys2Proof.Machine.execHzClose who stream s
  | .hzActstoreWrite who stream park w value => Sys2Proof.Machine.execHzActstoreWrite who stream park w value s
  | .hzStreamWrite who stream peer w value => Sys2Proof.Machine.execHzStreamWrite who stream peer w value s
  | .hzNeighborReq port v6 ip => Sys2Proof.Machine.execHzNeighborReq port v6 ip s
  | .hzPortDown port => Sys2Proof.Machine.execHzPortDown port s
  | .create who p => Sys2Proof.Machine.execCreate who p s
  | .teardown who p => Sys2Proof.Machine.execTeardown who p s
  | .jobEnd who job => Sys2Proof.Machine.execJobEnd who job s
  | .kill who job => Sys2Proof.Machine.execKill who job s
  | .grant who rd region p => Sys2Proof.Machine.execGrant who rd region p s
  | .accept who rd region p => Sys2Proof.Machine.execAccept who rd region p s
  | .revoke who rd region p => Sys2Proof.Machine.execRevoke who rd region p s
  | .ptGrantExpire rd region p => Sys2Proof.Machine.execPtGrantExpire rd region p s
  | .ptViewWrite who value => Sys2Proof.Machine.execPtViewWrite who value s
  | .wnJobSubmit who value => Sys2Proof.Machine.execWnJobSubmit who value s
  | .jobAdmit view => Sys2Proof.Machine.execJobAdmit view s
  | .dieFault die => Sys2Proof.Machine.execDieFault die s
  | .scAttestReq who value nonce => Sys2Proof.Machine.execScAttestReq who value nonce s
  | .attestReport => Sys2Proof.Machine.execAttestReport s
  | .hello keyIndex qc => Sys2Proof.Machine.execHello keyIndex qc s
  | .prove keyIndex sigOk => Sys2Proof.Machine.execProve keyIndex sigOk s
  | .scSessionIdle n => Sys2Proof.Machine.execScSessionIdle n s
  | .scAuthLockEnd => Sys2Proof.Machine.execScAuthLockEnd s
  | .read h off words => Sys2Proof.Machine.execRead h off words s
  | .write h off values => Sys2Proof.Machine.execWrite h off values s
  | .bulkWrite h t off data => Sys2Proof.Machine.execBulkWrite h t off data s
  | .bulkRead h t off len => Sys2Proof.Machine.execBulkRead h t off len s
  | .eventAck h seq => Sys2Proof.Machine.execEventAck h seq s
  | .logRead h ring first count => Sys2Proof.Machine.execLogRead h ring first count s
  | .traceRead h first count => Sys2Proof.Machine.execTraceRead h first count s
  | .flashWrite h device image readBackOk => Sys2Proof.Machine.execFlashWrite h device image readBackOk s
  | .reset h => Sys2Proof.Machine.execReset h s
  | .close h => Sys2Proof.Machine.execClose h s
  | .wnPkgWrite who value => Sys2Proof.Machine.execWnPkgWrite who value s
  | .wnHotReq who value sigValid => Sys2Proof.Machine.execWnHotReq who value sigValid s
  | .hotSwitch => Sys2Proof.Machine.execHotSwitch s
  | .componentFault c inst => Sys2Proof.Machine.execComponentFault c inst s
  | .componentRestart c inst => Sys2Proof.Machine.execComponentRestart c inst s
  | .startUp env => Sys2Proof.Machine.execStartUp env s
  | .bootService keyHash m => Sys2Proof.Machine.execBootService keyHash m s
  | .hazeEnter cl u => Sys2Proof.Machine.execHazeEnter cl u s
  | .hazeExit => Sys2Proof.Machine.execHazeExit s
  | .mistEnter cl => Sys2Proof.Machine.execMistEnter cl s
  | .mistExit => Sys2Proof.Machine.execMistExit s
  | .pmSleep cl => Sys2Proof.Machine.execPmSleep cl s
  | .pmSleepApply cl => Sys2Proof.Machine.execPmSleepApply cl s
  | .pmWake cl => Sys2Proof.Machine.execPmWake cl s
  | .thermalTrip die temp => Sys2Proof.Machine.execThermalTrip die temp s
  | .powerOnReset flash0 flash1 => Sys2Proof.Machine.execPowerOnReset flash0 flash1 s
  | .rstNRelease => Sys2Proof.Machine.execRstNRelease s
  | .packageReset ns => Sys2Proof.Machine.execPackageReset ns s
  | .brownout high rstLow => Sys2Proof.Machine.execBrownout high rstLow s
  | .refclkLoss => Sys2Proof.Machine.execRefclkLoss s
  | .bypass => Sys2Proof.Machine.execBypass s
  | .samplePreload cells => Sys2Proof.Machine.execSamplePreload cells s
  | .extest => Sys2Proof.Machine.execExtest s
  | .clamp => Sys2Proof.Machine.execClamp s
  | .highz => Sys2Proof.Machine.execHighz s
  | .envPortLinkUp port => Sys2Proof.Machine.execEnvPortLinkUp port s
  | .regRead who off bytes => Sys2Proof.Machine.execRegRead who off bytes s
  | .malformedMessage session => Sys2Proof.Machine.execMalformedMessage session s
  | .agRestoreDone job => Sys2Proof.Machine.execAgRestoreDone job s
  | .agContextSaveDone job => Sys2Proof.Machine.execAgContextSaveDone job s

end Sys2Proof.Machine
end

