-- ==== Sys2Proof/Safety.lean ====
section
/-!
DEFINITION. What a safe run is: R16 says that the package never leaves behaviour undefined, so no step may end in a
fault or a refusal.
-/

namespace Sys2Proof

/-- The outcome is a next state. -/
def Completes (o : Host.Outcome Machine.State Machine.Fault Machine.Refusal) : Prop :=
  ∃ t, o = .next t

/-- `k` steps from `s` all answer a next state. -/
def SafeFor : Nat → Machine.State → Prop
  | 0, _ => True
  | k + 1, s => ∃ t, Machine.step s = .next t ∧ SafeFor k t

end Sys2Proof
end

