-- ==== Sys2Proof/Certificates/Slice0/Obligations.lean ====
section
/-!
DEFINITION. The statements for the provers. `Ends c s P` says that a command completes: `exec` answers a next state that `P`
holds of. `On s` says that ticks run.
-/

namespace Sys2Proof

/-- Ticks run (R409, R462). -/
def On (s : Machine.State) : Prop := s.edge.power = .running

/-- The command completes in a next state that `P` holds of. -/
def Ends (c : Instr) (s : Machine.State) (P : Machine.State → Prop) : Prop :=
  ∃ t, Machine.exec c s = .next t ∧ P t

end Sys2Proof

open Sys2Proof Sys2Proof.Machine

/-! ## The machine as a whole -/

/-- No command changes the queue of waiting commands, and every command ends in a next state: the machine neither faults nor
refuses (R16: no behaviour is undefined). -/
def Obligations.CommandsLeaveQueue : Prop :=
  ∀ (c : Instr) (s : State), ∃ t, exec c s = .next t ∧ t.pending = s.pending

/-- First in, first out: from any state, as many steps as commands wait run them in their order and leave the queue empty;
the state reached is that of running them one after another. -/
def Obligations.QueueRunsInOrder : Prop :=
  ∀ (s : State), ∃ t, Host.Core.run core s.pending.length s = .next t ∧ t.pending = [] ∧
    s.pending.foldl (fun o c => match o with
      | .next u => exec c u
      | other => other) (Host.Outcome.next { s with pending := [] }) = .next t

/-- A step with a command waiting is that command's effect on the state with the rest of the queue.

With nothing waiting a step changes nothing (the model's choice, log 5). -/
def Obligations.StepRunsFront : Prop :=
  (∀ (c : Instr) (q : List Instr) (s : State), step { s with pending := c :: q } = exec c { s with pending := q }) ∧
  (∀ (s : State), s.pending = [] → step s = .next s)

/-- What reset leaves: the values that R23, R99, R183, R428, R447 and R451 give.

The memory of reset has the canonical form. -/
def Obligations.ResetValues : Prop :=
  (State.reset.tk.tick = 0 ∧ State.reset.tk.applyAt = 0 ∧ State.reset.tk.applyRejected = false ∧
    State.reset.tk.locked = false ∧ State.reset.tk.syncLost = false ∧ State.reset.tk.tickOvf = false ∧
    State.reset.tk.offsetNs = 0 ∧ State.reset.jobs = [] ∧ State.reset.maint = [] ∧
    (∀ c i, ctrVal State.reset c i = 0) ∧ State.reset.ovfs = [] ∧
    (∀ cl, (getCl State.reset cl).epoch = 1 ∧ (getCl State.reset cl).pm = .mist ∧ (getCl State.reset cl).wakeAt = 0) ∧
    (∀ ch, (getChan State.reset ch).state = .active) ∧
    State.reset.wn.stage = 0 ∧ State.reset.wn.service = false ∧ State.reset.pm.level = 0) ∧
  (Memory.wf State.reset.mem = true)

/-- Every step keeps the canonical form of the memory: addresses strictly rising, and no entry equal to what an unlisted byte
reads as. -/
def Obligations.StepKeepsMemoryCanonical : Prop :=
  ∀ (s t : State), Memory.wf s.mem = true → step s = .next t → Memory.wf t.mem = true

/-- A package that its thermal trip has shut off: no power, THERM_TRIP_N asserted, and no return of power and no brownout of
the input among the commands that wait (R464). -/
def Tripped (s : State) : Prop :=
  s.edge.power = .tripped ∧ s.edge.thermTrip = true ∧
    ∀ c ∈ s.pending, (∀ f0 f1, c ≠ .powerOnReset f0 f1) ∧ ∀ h r, c ≠ .brownout h r

/-- A tripped package stays so through every step, whatever is commanded, and nothing else of it changes (R464). -/
def Obligations.TripHolds : Prop :=
  ∀ (s : State), Tripped s →
    ∃ t, step s = .next t ∧ Tripped t ∧ t = { s with pending := s.pending.tail }

/-! ## The tick -/

/-- Start of the tick after this one: this one's start, its length and a follower's correction (R19, R28). -/
def startOfNext (s : State) : Nat := ((s.tk.startNs + s.tk.lenNs : Nat) + s.tk.slewNs).toNat

/-- The number of the tick whose start at the system's base time plus n × PERIOD lies next to `start` of the package's time
(R27); 0 before the base time. -/
def numberAt (s : State) (start : Nat) : Nat :=
  ((start : Int) - s.tk.ptpOffset - (((s.wn.bootImage.map BootImage.baseTimeNs).getD 0 : Nat) : Int) +
    ((s.tk.cfg.periodUs * 1000 / 2 : Nat) : Int)).toNat / (s.tk.cfg.periodUs * 1000)

/-- The points of a tick in their order (R20): each is accepted in the interval before it and opens the next.

TK_TICK goes up by one at every tick start and sticks at its end; a SOURCE or FOLLOWER takes the number from IEEE 1588 time
at the first start after that time has become valid (R27; nearest number and never back, the model's choice, log 48). -/
def Obligations.TickPoints : Prop :=
  ∀ (s : State), On s →
    (s.tk.phase = .boundary →
      Ends .intakeEdge s fun t => t.tk.phase = .step ∧ t.tk.startNs = startOfNext s ∧ t.tk.cfg = s.tk.cfg ∧
        (takesNumber s = false → t.tk.tick = min (s.tk.tick + 1) (2 ^ 64 - 1)) ∧
        (takesNumber s = true → t.tk.tick = min (max (s.tk.tick + 1) (numberAt s (startOfNext s))) (2 ^ 64 - 1))) ∧
    (s.tk.phase = .step → Ends .commitPoint s fun t => t.tk = { s.tk with phase := .late }) ∧
    (s.tk.phase = .late → Ends .workEnd s fun t => t.tk = { s.tk with phase := .drain } ∧ t.mem = s.mem ∧ t.jobs = s.jobs ∧
      t.clusters = s.clusters ∧ t.units = s.units) ∧
    (s.tk.phase = .drain → 0 < s.tk.cfg.maintUs → Ends .maintenanceSlot s fun t => t.tk = { s.tk with phase := .slot } ∧
      t.mem = s.mem ∧ t.jobs = s.jobs ∧ t.clusters = s.clusters) ∧
    (s.tk.phase = .drain ∨ s.tk.phase = .slot → ∀ r, Ends (.boundary r) s fun t =>
      t.tk.phase = .boundary ∧ t.tk.tick = s.tk.tick ∧ t.tk.startNs = s.tk.startNs)

/-- At a boundary an accepted setting applies when the tick it names is the next one, and is then disarmed; until then it
stays pending and the setting in force stays (R24).

At throttle level L the period of a tick is lengthened by L × ⌈PERIOD_US / 8⌉ µs (R445). -/
def Obligations.BoundarySetting : Prop :=
  (∀ (s : State) (r : Readings), On s → (s.tk.phase = .drain ∨ s.tk.phase = .slot) →
      (∀ c n, s.tk.pending = some (c, n) → n = s.tk.tick + 1 →
        Ends (.boundary r) s fun t => t.tk.cfg = c ∧ t.tk.pending = none ∧ t.tk.applyAt = 0) ∧
      (∀ c n, s.tk.pending = some (c, n) → s.tk.tick + 1 < n →
        Ends (.boundary r) s fun t => t.tk.cfg = s.tk.cfg ∧ t.tk.pending = some (c, n) ∧ t.tk.applyAt = s.tk.applyAt) ∧
      (s.tk.pending = none → Ends (.boundary r) s fun t => t.tk.cfg = s.tk.cfg ∧ t.tk.pending = none)) ∧
  (∀ (s : State) (r : Readings), On s → (s.tk.phase = .drain ∨ s.tk.phase = .slot) → s.tk.role ≠ 2 →
      Ends (.boundary r) s fun t =>
        t.tk.lenNs = s.tk.cfg.periodUs * 1000 + s.pm.level * ((s.tk.cfg.periodUs + 7) / 8) * 1000)

/-- A follower measures its offset at an edge, locks within LOCK_LIMIT_NS, and takes the source's throttle level from the
pulse; an edge missing for three ticks in a row, or lost IEEE 1588 time, ends its lock, and while that time is lost an edge
neither locks it nor moves its phase (R28, R461).

The IEEE 1588 clock of a package that is not FREE (R27): a Delay_Resp gives the mean path delay and makes time valid, a
two-step Sync waits for its Follow_Up, and a Sync's offset follows from the delay; a FREE package ignores every message. -/
def Obligations.TickSources : Prop :=
  (∀ (s : State), On s → s.tk.role = 2 →
      (∀ off width, 500 ≤ width → width ≤ 8500 →
        exec (.tksyncEdge off width) s = .next { s with
          tk := { s.tk with
            offsetNs := off + s.tk.cableDelayNs, carryNs := if s.tk.timeLost then 0 else off + s.tk.cableDelayNs,
            missedEdges := 0,
            locked := !s.tk.timeLost && decide ((off + s.tk.cableDelayNs).natAbs ≤ s.tk.lockLimitNs) }
          pm := { s.pm with sourceLevel := min 7 ((width + 500) / 1000 - 1) } }) ∧
      (s.tk.missedEdges + 1 ≠ 3 →
        exec .tickSyncLost s = .next { s with tk := { s.tk with missedEdges := s.tk.missedEdges + 1 } }) ∧
      (s.tk.missedEdges + 1 = 3 →
        Ends .tickSyncLost s fun t => t.tk.syncLost = true ∧ t.tk.locked = false ∧ t.tk.tick = s.tk.tick ∧ t.mem = s.mem ∧
          t.jobs = s.jobs) ∧
      (s.tk.ptpValid = true →
        Ends .ptpTimeLost s fun t => t.tk.ptpValid = false ∧ t.tk.syncLost = true ∧ t.tk.locked = false ∧
          t.tk.tick = s.tk.tick ∧ t.mem = s.mem ∧ t.jobs = s.jobs)) ∧
  (∀ (s : State) (m : PtpMsg), On s →
      (s.tk.role = 0 → exec (.ptpMessage m) s = .next s) ∧
      (s.tk.role ≠ 0 → m.kind = .sync → m.twoStep = true →
        exec (.ptpMessage m) s = .next { s with tk := { s.tk with ptpSync := some m.stampNs } }) ∧
      (s.tk.role ≠ 0 → m.kind = .sync → m.twoStep = false →
        Ends (.ptpMessage m) s fun t => t.tk.ptpOffset = (m.stampNs : Int) - m.originNs - s.tk.ptpDelay ∧
          t.tk.ptpSync = none ∧ t.tk.ptpReq.isSome = true ∧ t.mem = s.mem ∧ t.tk.tick = s.tk.tick) ∧
      (∀ t3, s.tk.role ≠ 0 → m.kind = .delayResp → s.tk.ptpReq = some t3 →
        Ends (.ptpMessage m) s fun t => t.tk.ptpValid = true ∧ t.tk.ptpReq = none ∧
          t.tk.ptpDelay = (s.tk.ptpOffset + s.tk.ptpDelay + ((m.originNs : Int) - t3)) / 2 ∧
          t.tk.ptpOffset + t.tk.ptpDelay = s.tk.ptpOffset + s.tk.ptpDelay ∧ t.mem = s.mem))

/-! ## Power, resets and board test -/

/-- POWER_ON_RESET on an unpowered or tripped package: reset values, PWR_GOOD high, RST_N still low, the nonvolatile cell
presented as BROWNOUT (R14, R458, R462).

RST_N: its release lets start-up run; held low for 10 µs or more on a powered package it resets every field but those that
only power-on resets (R12, R462, R466).

What ends die power: a brownout writes its cause to the nonvolatile cell, a lost REFCLK lowers PWR_GOOD, and a die at
110 °C trips the package (R457, R458, R459, R464). -/
def Obligations.PowerAndResets : Prop :=
  (∀ (s : State) (f0 f1 : Option BootImage), (s.edge.power = .off ∨ s.edge.power = .tripped) →
      Ends (.powerOnReset f0 f1) s fun t => t.edge.power = .inReset ∧ t.edge.pwrGood = true ∧ t.edge.rstN = false ∧
        t.edge.thermTrip = false ∧ t.edge.brownout = s.edge.brownCell ∧ t.tk = State.reset.tk ∧ t.ctrs = [] ∧ t.ovfs = [] ∧
        t.jobs = [] ∧ t.fuses.deviceId = s.fuses.deviceId ∧ t.fuses.repair = s.fuses.repair ∧
        t.pending = s.pending) ∧
  ((∀ (s : State), s.edge.power = .inReset →
      exec .rstNRelease s = .next { s with edge := { s.edge with power := .released, rstN := true, jtag := .bypass, bypassBit := false } }) ∧
    (∀ (s : State) (ns : Nat), 10000 ≤ ns → s.edge.power ≠ .off → s.edge.power ≠ .tripped →
      Ends (.packageReset ns) s fun t => t.edge.power = .inReset ∧ t.edge.pwrGood = true ∧ t.tk.tick = 0 ∧ t.jobs = [] ∧
        t.ctrs = [] ∧ t.ovfs = s.ovfs ∧ t.repairFull = s.repairFull ∧ t.tk.tickOvf = s.tk.tickOvf ∧
        t.tk.syncLost = s.tk.syncLost ∧ t.pm.peak = s.pm.peak ∧ t.edge.lowInput = s.edge.lowInput ∧ t.lrn.libOvf = s.lrn.libOvf ∧
        t.fuses.repair = s.fuses.repair ∧ (∀ k, (getUnit t k).suspectOvf = (getUnit s k).suspectOvf)) ∧
    (∀ (s : State) (ns : Nat), ns < 10000 → exec (.packageReset ns) s = .next s)) ∧
  (∀ (s : State),
      (∀ h rstLow, s.edge.power ≠ .off →
        Ends (.brownout h rstLow) s fun t => t.edge.power = .off ∧ t.edge.pwrGood = false ∧ t.edge.brownCell = !rstLow ∧
          t.jobs = [] ∧ t.fuses.repair = s.fuses.repair) ∧
      (On s → Ends .refclkLoss s fun t => t.edge.power = .clockLost ∧ t.edge.pwrGood = false ∧ t.jobs = []) ∧
      (∀ d temp, On s → 110 ≤ temp →
        Ends (.thermalTrip d temp) s fun t => t.edge.power = .tripped ∧ t.edge.thermTrip = true ∧ t.edge.pwrGood = false ∧
          t.pm.peak = s.pm.peak ∧ t.jobs = []) ∧
      (∀ d temp, temp < 110 → exec (.thermalTrip d temp) s = .next s))

/-- The board-test port (R465): with RST_N low each instruction comes into force and drives or floats the pins as IEEE 1149.1
says; while ticks run the port does nothing. -/
def Obligations.BoardTest : Prop :=
  ∀ (s : State) (cells : BitVec 64),
    (s.edge.power = .inReset → s.edge.rstN = false →
      exec .bypass s = .next { s with edge := { s.edge with jtag := .bypass, bypassBit := false } } ∧
      exec (.samplePreload cells) s = .next { s with edge := { s.edge with jtag := .sample, scan := cells } } ∧
      exec .extest s = .next { s with edge := { s.edge with jtag := .extest }, out := s.out ++ [.pins (some s.edge.scan)] } ∧
      exec .clamp s = .next { s with edge := { s.edge with jtag := .clamp, bypassBit := false },
                                     out := s.out ++ [.pins (some s.edge.scan)] } ∧
      exec .highz s = .next { s with edge := { s.edge with jtag := .highz, bypassBit := false }, out := s.out ++ [.pins none] }) ∧
    (s.edge.rstN = true → exec .bypass s = .next s ∧ exec (.samplePreload cells) s = .next s ∧ exec .extest s = .next s ∧
      exec .clamp s = .next s ∧ exec .highz s = .next s)

/-! ## Cards and engines -/

/-- Memory after a card's completion record with report `r`. -/
def withRecord (s : State) (cl : Nat) (c : Card) (r : Report) : List Host.Cell :=
  memPuts s.mem (bytesAt (poolKey cl (16 * c.slot)) (w64Bytes (complWords c r s.tk.tick)))

/-- Memory after a card that ends OK: with its record where it asks for one, else as it was. -/
def afterOk (s : State) (cl : Nat) (c : Card) (r : Report) : List Host.Cell := if c.always then withRecord s cl c r else s.mem

/-- The card `q` at the head of a queue of cluster `cl` may issue (R107, R111, R113, R443): the engine is idle inside the
card's window, the waits are met, the epoch is the cluster's, and the partition can pay `charge`. -/
def HeadReady (s : State) (cl key : Nat) (q : QCard) (rest : List QCard) (charge : Nat) : Prop :=
  (getQ (getCl s cl) key).cards = q :: rest ∧ engineIdle s cl key = true ∧ waitsMet (getCl s cl) q = true ∧
    q.card.epoch = (getCl s cl).epoch ∧ canPay s (clOwnerPart s cl) charge = true

/-- The state in which a card that issues computes: it has left its queue and its charge is paid. -/
def Taken (s : State) (cl key charge : Nat) : State := pay (clOwnerPart s cl) charge (modCl cl (popQ key) s)

/-- The card has left its queue and runs on the engine with its work `w`, and the partition has paid for it; its credit is not
back, nothing is written yet, and no other cluster, no unit, no job and nothing of the tick has changed. -/
def Issued (s t : State) (cl key : Nat) (q : QCard) (rest : List QCard) (charge : Nat) (w : Work) : Prop :=
  tabFind key (getCl t cl).runs = some (w.run q) ∧
    (getQ (getCl t cl) key).cards = rest ∧ (getQ (getCl t cl) key).credits = (getQ (getCl s cl) key).credits ∧
    (getPart t (clOwnerPart s cl)).meter = (getPart s (clOwnerPart s cl)).meter + charge ∧
    t.mem = s.mem ∧ t.units = s.units ∧ t.jobs = s.jobs ∧ t.tk = s.tk ∧ t.mt = s.mt ∧ t.pt = s.pt ∧ t.wn = s.wn ∧
    ∀ c, c ≠ cl → getCl t c = getCl s c

/-- The command issues a card of opcode `op` at the head of engine `e`'s queue, whenever it may issue. -/
def Issues (s : State) (cl e op : Nat) (c : Instr) (charge : State → QCard → Nat) (work : State → QCard → Work × State) : Prop :=
  ∀ q rest, q.card.opcode = op → HeadReady s cl (8 + e) q rest (charge s q) →
    Ends c s fun t => Issued s t cl (8 + e) q rest (charge s q) (work (Taken s cl (8 + e) (charge s q)) q).1

/-- Cards of the prologue, random, sampler, mask and KV engines issue from the head of their queue: the card runs with what its
opcode computes, and what it writes waits for its retirement (R105, R107, R117). -/
def Obligations.EngineCardsIssue : Prop :=
  ∀ (s : State) (cl : Nat), On s →
    Issues s cl 2 0 (.transpose cl) (fun t q => 600 * (transposeWork cl t q).cycles) (fun t q => (transposeWork cl t q, t)) ∧
    Issues s cl 2 1 (.gather cl) (fun t q => 600 * (gatherWork cl t q).cycles) (fun t q => (gatherWork cl t q, t)) ∧
    Issues s cl 2 2 (.chkrow cl) (fun t q => 600 * (chkrowWork cl t q).cycles) (fun t q => (chkrowWork cl t q, t)) ∧
    Issues s cl 6 0 (.fill cl) (fun _ q => 300 * rgLength q.card) (rgWork 0 cl) ∧
    Issues s cl 6 1 (.rgMask cl) (fun _ q => 300 * rgLength q.card) (rgWork 1 cl) ∧
    Issues s cl 4 0 (.scan cl) (fun t q => 1000 * scanLength t q.card) (scanStep cl) ∧
    Issues s cl 4 1 (.final cl) (fun t q => 1000 * finalLength t cl q.card) (finalStep cl) ∧
    Issues s cl 5 0 (.gmInit cl) (fun t q => 400 * (gmStep cl (initWork cl) t q).cycles)
      (fun t q => (gmStep cl (initWork cl) t q, t)) ∧
    Issues s cl 5 1 (.gmMask cl) (fun t q => 400 * (gmStep cl (maskWork cl) t q).cycles)
      (fun t q => (gmStep cl (maskWork cl) t q, t)) ∧
    Issues s cl 5 2 (.advance cl) (fun t q => 400 * (gmStep cl (advanceWork cl) t q).cycles)
      (fun t q => (gmStep cl (advanceWork cl) t q, t)) ∧
    Issues s cl 8 0 (.append cl) (fun t q => 400 * (appendWork cl t q).cycles) (fun t q => (appendWork cl t q, t)) ∧
    Issues s cl 8 1 (.walk cl) (fun t q => 400 * (walkWork cl t q).cycles) (fun t q => (walkWork cl t q, t))

/-- The charge of an epilogue card (R442). -/
def epiCharge (cl op : Nat) (s : State) (q : QCard) : Nat := 1500 * epiLength op (postedMode s cl q) (epiOf q.card)

/-- Cards of the statistic and epilogue engine issue while no chain of the cluster waits for finish cards, which go first, and
the write buffer has room for the tile (R105, R107, R132, R135). Where it has none, the norm card at the head waits and the
buffer drains into near memory.

A finish card of a closed row statistic runs ahead of the queue and takes no credit: it finishes at most ⌊7,512 / ROWS⌋
tiles in 8 + ROWS × tiles cycles; a two-pass chain's tiles are staged in the pool first (R132, R135). -/
def Obligations.FinishCards : Prop :=
  (∀ (s : State) (cl : Nat), On s → finishing s cl = none →
      (bufferFull s cl = false →
        Issues s cl 3 0 (.stat cl) (epiCharge cl 0) (statWork cl) ∧
        Issues s cl 3 1 (.softmax cl) (epiCharge cl 1) (normWork cl) ∧
        Issues s cl 3 2 (.rmsnorm cl) (epiCharge cl 2) (normWork cl) ∧
        Issues s cl 3 3 (.layernorm cl) (epiCharge cl 3) (normWork cl) ∧
        Issues s cl 3 4 (.act cl) (epiCharge cl 4) (actWork cl) ∧
        Issues s cl 3 5 (.deriv cl) (epiCharge cl 5) (derivWork cl) ∧
        Issues s cl 3 6 (.merge cl) (epiCharge cl 6) (mergeWork cl) ∧
        Issues s cl 3 7 (.reduce cl) (epiCharge cl 7) (reduceWork cl) ∧
        Issues s cl 3 8 (.check cl) (epiCharge cl 8) (checkWork cl) ∧
        Issues s cl 3 9 (.round cl) (epiCharge cl 9) (roundWork cl) ∧
        Issues s cl 3 10 (.quant cl) (epiCharge cl 10) (quantWork cl)) ∧
      (bufferFull s cl = true → ∀ c, c ∈ [Instr.softmax cl, Instr.rmsnorm cl, Instr.layernorm cl] →
        Ends c s fun t => getQ (getCl t cl) 11 = getQ (getCl s cl) 11 ∧ (getCl t cl).runs = (getCl s cl).runs ∧
          (getCl t cl).writeBuf = [] ∧ t.mem = memPuts s.mem ((getCl s cl).writeBuf.filter (served s)))) ∧
  (∀ (s : State) (cl ch ord done : Nat) (h : Chain), On s → finishing s cl = some (ch, h, ord, done) → engineFree s cl 11 = true →
      cardWindow s cl h.openCard = true →
      canPay s (clOwnerPart s cl)
        (1500 * (8 + coRows h.openCard * min (7512 / coRows h.openCard) (coTiles h.openCard - done))) = true →
      Ends (.finishCard cl) s fun t =>
        (∃ r, tabFind 11 (getCl t cl).runs = some r ∧ r.mode = ch ∧ r.ord = ⟨h.use, ord⟩ ∧
          r.finish = some (done + min (7512 / coRows h.openCard) (coTiles h.openCard - done)) ∧
          r.cycles = 8 + coRows h.openCard * min (7512 / coRows h.openCard) (coTiles h.openCard - done)) ∧
        (getCl t cl).queues = (getCl s cl).queues ∧ t.units = s.units ∧ t.jobs = s.jobs ∧
        (h.mode ≠ 2 → t.mem = s.mem) ∧
        (h.mode = 2 → t.mem = memPuts (drainBuffer cl s).mem
          (stageTiles cl h done (min (7512 / coRows h.openCard) (coTiles h.openCard - done)) (drainBuffer cl s))))

/-- What a card of engine `e` makes visible in memory when it retires: of a norm card's writes those to the pool, since the others
go through the write buffer (R135). -/
def shownWrites (e : Nat) (r : Run) : List (Nat × Byte) :=
  if e = 3 ∧ isNorm r.card.opcode = true then r.writes.filter fun w => !decide (chanKey 0 0 ≤ w.1) else r.writes

/-- A card of the vector, prologue, epilogue or random engine that ends OK retires (R39, R117): its writes become visible, its
credit returns, a completion record is written where the card asks for one or has a flag to report, else none, and in
its chain the retired prefix follows (R113).

Outside a chain, a card of the first three that has met an uncorrectable pool word ends POOL_UNCORRECTABLE, with its record as
the one write (R102). -/
def Obligations.EngineCardRetires : Prop :=
  ∀ (s : State) (cl e : Nat) (r : Run), On s → (e = 1 ∨ e = 2 ∨ e = 3 ∨ e = 6) →
    tabFind (8 + e) (getCl s cl).runs = some r → r.finish = none → r.status = .ok →
    (e ≠ 6 → r.card.engine = e → r.card.chain = 0 → Ends (.cardRetire cl (.eng e) true) s fun t =>
      tabFind (8 + e) (getCl t cl).runs = none ∧
      (getQ (getCl t cl) (8 + e)).credits = (getQ (getCl s cl) (8 + e)).credits + 1 ∧
      t.mem = withRecord s cl r.card (r.poolFail.report .poolUncorrectable r.card.unit) ∧
      t.units = s.units ∧ t.jobs = s.jobs ∧ t.tk = s.tk ∧ (∀ c, c ≠ cl → getCl t c = getCl s c)) ∧
    ((useChain (getCl s cl) r.card.chain r.ord.use).bind (·.abort) = none →
      Ends (.cardRetire cl (.eng e) false) s fun t =>
        tabFind (8 + e) (getCl t cl).runs = none ∧
        (getQ (getCl t cl) (8 + e)).credits = (getQ (getCl s cl) (8 + e)).credits + 1 ∧
        (getQ (getCl t cl) (8 + e)).cards = (getQ (getCl s cl) (8 + e)).cards ∧
        t.mem = (if r.card.always || r.nanIn || r.nanGen || r.ovf then
          memPuts (memPuts s.mem (shownWrites e r)) (bytesAt (poolKey cl (16 * r.card.slot))
            (w64Bytes (complWords r.card (r.report .ok r.card.unit) s.tk.tick)))
          else memPuts s.mem (shownWrites e r)) ∧
        (∀ h, r.card.chain ≠ 0 → tabFind r.card.chain (getCl s cl).chains = some h → h.use = r.ord.use → h.lastDone = false →
          r.card.last = false → tabFind r.card.chain (getCl t cl).chains = some (h.retire r.ord.n)) ∧
        t.units = s.units ∧ t.jobs = s.jobs ∧ t.tk = s.tk ∧ (∀ c, c ≠ cl → getCl t c = getCl s c))

/-- The card at the head of the queue of logical unit `u`, whose physical unit is `own`, may start on unit `host` (R71, R107,
R111, R113). -/
def UnitHead (s : State) (cl u own host : Nat) (q : QCard) (rest : List QCard) : Prop :=
  (getQ (getCl s cl) u).cards = q :: rest ∧ q.card.opcode = 0 ∧ physOf s cl u = some own ∧ engineIdle s cl u = true ∧
    waitsMet (getCl s cl) q = true ∧ (getCl s cl).deferred.contains u = false ∧ q.card.epoch = (getCl s cl).epoch ∧
    hostIdle s cl host = true ∧ accCheck q.card (getUnit s own).acc = none

/-- The physical unit that a logical unit's cards run on is AVAILABLE, with no relief card waiting for it, and may start the
card (R85, R87). -/
def UnitReady (s : State) (cl u own : Nat) (q : QCard) (rest : List QCard) : Prop :=
  UnitHead s cl u own own q rest ∧ (getUnit s own).state = .available ∧ reliefWaits s cl own = false

/-- A lane-row card has left its queue and an attempt runs on unit `host`; the pool and the lane stores are unchanged. -/
def LaneIssued (s t : State) (cl u host : Nat) (q : QCard) (rest : List QCard) (a : Attempt) (main : Bool) : Prop :=
  (∃ r, tabFind u (getCl t cl).runs = some r ∧ r.card = q.card ∧ r.ord = q.ord ∧ r.attempt = a ∧ r.host = host ∧
    r.cycles = lrLength q.card main ∧ r.onMain = main) ∧
  (getQ (getCl t cl) u).cards = rest ∧ (getQ (getCl t cl) u).credits = (getQ (getCl s cl) u).credits ∧ t.mem = s.mem ∧
  t.jobs = s.jobs ∧ t.tk = s.tk ∧ (∀ c, c ≠ cl → getCl t c = getCl s c) ∧
  (∀ k, (getUnit t k).acc = (getUnit s k).acc ∧ (getUnit t k).state = (getUnit s k).state)

/-- MM-n, RV and OP cards start on their AVAILABLE unit for their length of R74, charged at 307.2 pJ a cycle (R65, R74,
R107, R442). -/
def Obligations.LaneCardsIssue : Prop :=
  ∀ (s : State) (cl u own : Nat) (q : QCard) (rest : List QCard) (up : Upset), On s → UnitReady s cl u own q rest →
    canPay s q.card.part (3072 * lrLength q.card false) = true →
    (1 ≤ lrShape q.card → lrShape q.card ≤ 5 → Ends (.mmN cl u up) s fun t => LaneIssued s t cl u own q rest .first false ∧
      (getPart t q.card.part).meter = (getPart s q.card.part).meter + 3072 * lrLength q.card false) ∧
    (lrShape q.card = 6 → Ends (.rv cl u up) s fun t => LaneIssued s t cl u own q rest .first false ∧
      (getPart t q.card.part).meter = (getPart s q.card.part).meter + 3072 * lrLength q.card false) ∧
    (lrShape q.card = 7 → Ends (.op cl u up) s fun t => LaneIssued s t cl u own q rest .first false ∧
      (getPart t q.card.part).meter = (getPart s q.card.part).meter + 3072 * lrLength q.card false)

/-- How an MV card on an AVAILABLE unit without a permit meets its permits (R67 to R69): with one left it takes it and runs on
Cirrus; with none left and NO_PERMIT set it runs on the main path, counted; with none left of those assigned and NO_PERMIT
clear it waits for the next tick, counted; with none assigned to the cluster and NO_PERMIT clear it is rejected, its credit
back and, outside a chain, its record with LW_CIRRUS_NO_PERMIT the one write. A unit that holds a permit keeps it. -/
def Obligations.MvPermits : Prop :=
  ∀ (s : State) (cl u own : Nat) (q : QCard) (rest : List QCard) (up : Upset), On s → UnitReady s cl u own q rest →
    lrShape q.card = 0 →
    ((getUnit s own).permit = true → canPay s q.card.part (9216 * lrLength q.card false) = true →
      Ends (.mv cl u up) s fun t => LaneIssued s t cl u own q rest .first false ∧
        (getCl t cl).permitsUsed = (getCl s cl).permitsUsed ∧ (getUnit t own).permit = true) ∧
    ((getUnit s own).permit = false →
      ((getCl s cl).permitsUsed < (getCl s cl).permits → canPay s q.card.part (9216 * lrLength q.card false) = true →
        Ends (.mv cl u up) s fun t => LaneIssued s t cl u own q rest .first false ∧
          (getCl t cl).permitsUsed = (getCl s cl).permitsUsed + 1 ∧ (getUnit t own).permit = true) ∧
      ((getCl s cl).permits ≤ (getCl s cl).permitsUsed → lrNoPermit q.card = true →
        canPay s q.card.part (3072 * lrLength q.card true) = true →
        Ends (.mv cl u up) s fun t => LaneIssued s t cl u own q rest .first true ∧
          (getCl t cl).permitsUsed = (getCl s cl).permitsUsed ∧ (getUnit t own).permit = false ∧
          (ctrVal s .lwCirrusMain q.card.part < 2 ^ 64 - 2 →
            ctrVal t .lwCirrusMain q.card.part = ctrVal s .lwCirrusMain q.card.part + 1)) ∧
      (0 < (getCl s cl).permits → (getCl s cl).permits ≤ (getCl s cl).permitsUsed → lrNoPermit q.card = false →
        Ends (.mv cl u up) s fun t => (getQ (getCl t cl) u) = (getQ (getCl s cl) u) ∧ (getCl t cl).deferred = u :: (getCl s cl).deferred ∧
          (getCl t cl).runs = (getCl s cl).runs ∧ t.units = s.units ∧ t.mem = s.mem ∧
          (ctrVal s .lwCirrusDefer q.card.part < 2 ^ 64 - 2 →
            ctrVal t .lwCirrusDefer q.card.part = ctrVal s .lwCirrusDefer q.card.part + 1)) ∧
      ((getCl s cl).permits = 0 → lrNoPermit q.card = false →
        Ends (.mv cl u up) s fun t => (getQ (getCl s cl) u).credits + 1 ≤ (getQ (getCl t cl) u).credits ∧
          (getCl t cl).runs = (getCl s cl).runs ∧ t.units = s.units ∧
          (q.card.chain = 0 → (getQ (getCl t cl) u).cards = rest ∧ t.jobs = s.jobs ∧
            t.mem = withRecord s cl q.card (Report.of .lwCirrusNoPermit q.card.unit))))

/-- Whether a card in relief on unit `nb` runs on the main path: an MV card where that unit holds no permit (R86). -/
def reliefMain (s : State) (nb : Nat) (c : Card) : Bool := decide (lrShape c = 0) && !(getUnit s nb).permit

/-- The command that issues a lane-row card of a shape. -/
def laneCommand (cl u : Nat) (up : Upset) (shape : Nat) : Instr :=
  if shape = 0 then .mv cl u up else if shape = 6 then .rv cl u up else if shape = 7 then .op cl u up else .mmN cl u up

/-- The attempt runs in place of the run `r`, and neither the queues nor what is stored has changed. -/
def Attempted (s t : State) (cl u host : Nat) (r : Run) (a : Attempt) (main : Bool) : Prop :=
  (∃ r', tabFind u (getCl t cl).runs = some r' ∧ r'.card = r.card ∧ r'.ord = r.ord ∧ r'.attempt = a ∧ r'.host = host ∧
    r'.onMain = main ∧ r'.cycles = lrLength r.card main) ∧
  t.mem = s.mem ∧ t.jobs = s.jobs ∧ (getCl t cl).queues = (getCl s cl).queues ∧ ∀ c, c ≠ cl → getCl t c = getCl s c

/-- The run `r` of a card outside a chain ends CK_NO_RELIEF: the card retires with its record as the one write, and the job
falls. -/
def NoRelief (s t : State) (cl u : Nat) (r : Run) : Prop :=
  tabFind u (getCl t cl).runs = none ∧ (getQ (getCl t cl) u).credits = (getQ (getCl s cl) u).credits + 1 ∧
  t.mem = withRecord s cl r.card (r.report .ckNoRelief (getUnit s r.host).logical) ∧
  ∀ x, getJob s r.card.job = some x → x.ending = none →
    (getJob t r.card.job).map (·.ending) = some (some (.faulted, .ckNoRelief))

/-- A failed first attempt runs again on its unit while that is AVAILABLE; a failed second runs on the next AVAILABLE unit, and so
does a card at the head of the queue of a unit in relief. With no AVAILABLE unit the card ends CK_NO_RELIEF and takes its job
down, and the unit is marked SUSPECT (R85, R86, R87). -/
def Obligations.RetryAndRelief : Prop :=
  (∀ (s : State) (cl u own cls p j : Nat) (r : Run) (up : Upset), On s → tabFind u (getCl s cl).runs = some r →
      (getCl s cl).owner = some (cls, p, j) → cardWindow s cl r.card = true → jobIssues s j = true → awake (getCl s cl) = true →
      physOf s cl u = some own →
      (r.attempt = .retryDue → (getUnit s own).state = .available → hostIdle s cl own = true →
        canPay s r.card.part (laneCharge r.card r.onMain) = true →
        Ends (.ckRetry cl u up) s fun t => Attempted s t cl u own r .second r.onMain) ∧
      (∀ nb, r.attempt = .reliefDue → neighbour s cl u = some nb → hostIdle s cl nb = true →
        canPay s r.card.part (laneCharge r.card (reliefMain s nb r.card)) = true →
        Ends (.ckRelief cl u up) s fun t => Attempted s t cl u nb r (.relief nb) (reliefMain s nb r.card) ∧
          (tabFind u (getCl t cl).runs).map (·.prev) = some r.prev) ∧
      (r.attempt = .reliefDue → neighbour s cl u = none →
        Ends (.ckRelief cl u up) s fun t =>
          ((getUnit s own).state = .available → (getUnit t own).state = .suspect ∧ (getUnit t own).marked = true) ∧
          (r.card.chain = 0 → NoRelief s t cl u r))) ∧
  (∀ (s : State) (cl u own nb : Nat) (q : QCard) (rest : List QCard) (up : Upset), On s → UnitHead s cl u own nb q rest →
      lrShape q.card ≤ 7 → inRelief (getUnit s own) = true → neighbour s cl u = some nb →
      canPay s q.card.part (laneCharge q.card (reliefMain s nb q.card)) = true →
      Ends (laneCommand cl u up (lrShape q.card)) s fun t =>
        LaneIssued s t cl u nb q rest (.standIn nb) (reliefMain s nb q.card))

/-- A vector card's program runs at its issue: what it has stored stands, and the engine is busy for the cycles that it took, at most
its budget, with the status OK, VX_FAULT or VX_BUDGET_EXCEEDED (R119, R120). -/
def Obligations.VectorCardIssues : Prop :=
  ∀ (s : State) (cl : Nat) (q : QCard) (rest : List QCard), On s → q.card.opcode = 0 →
    HeadReady s cl 9 q rest (2500 * vxBudget q.card) →
    ∃ st m, vmRun (vxBudget q.card) (vxStart cl q.card (Taken s cl 9 (2500 * vxBudget q.card))) = (st, m) ∧
      (st = .ok ∨ st = .vxFault ∨ st = .vxBudgetExceeded) ∧
      Ends (.vectorCard cl) s fun t => t.mem = m.s.mem ∧ ∃ r, tabFind 9 (getCl t cl).runs = some r ∧ r.card = q.card ∧
        r.ord = q.ord ∧ r.status = st ∧ r.cycles = vxBudget q.card - m.left

/-- The engine's own instructions on an awake cluster with a format code of BF16, FP16, E4M3 or E5M2 (R119, R149): SRN rounds
each element by a full-width random word and writes it as FP32, PACK rounds to nearest even into codes at the register's low
end, UNPK widens codes exactly; the pc goes on by 4, the pool is not touched. NORM either writes to each lane of its register
a value that an attempt of R152 accepts, no other register changing, and goes on, or, where a lane has not accepted within the
budget, writes no register (log 51).

A reserved format code in one of the first three is illegal: cause 2 goes to a7 and the card in execution ends VX_FAULT (R119,
R120). -/
def Obligations.VectorOwnInstructions : Prop :=
  (∀ (s : State) (cl vd vs2 rs1 : Nat), On s → awake (getCl s cl) = true →
      (vxFormat (((getCl s cl).vx.xr rs1).toNat % 16) = true →
        (Ends (.vxSrn cl vd vs2 rs1) s fun t => (getCl t cl).vx.pc = ((getCl s cl).vx.pc + 4) % 2 ^ 32 ∧ t.mem = s.mem ∧
          ∀ i, i < 64 → ∃ y, vget (getCl t cl).vx vd 4 i =
            (widen (((getCl s cl).vx.xr rs1).toNat % 16)
              (narrow (((getCl s cl).vx.xr rs1).toNat % 16) (.full y) (fpEl (getCl s cl).vx vs2 i)).1).toNat) ∧
        (Ends (.vxPack cl vd vs2 rs1) s fun t => (getCl t cl).vx.pc = ((getCl s cl).vx.pc + 4) % 2 ^ 32 ∧ t.mem = s.mem ∧
          ∀ i, i < 64 → vget (getCl t cl).vx vd (fmtWidth (((getCl s cl).vx.xr rs1).toNat % 16) / 8) i =
            (narrow (((getCl s cl).vx.xr rs1).toNat % 16) .rne (fpEl (getCl s cl).vx vs2 i)).1
              % 2 ^ (8 * (fmtWidth (((getCl s cl).vx.xr rs1).toNat % 16) / 8))) ∧
        (Ends (.vxUnpk cl vd vs2 rs1) s fun t => (getCl t cl).vx.pc = ((getCl s cl).vx.pc + 4) % 2 ^ 32 ∧ t.mem = s.mem ∧
          ∀ i, i < 64 → vget (getCl t cl).vx vd 4 i = (widen (((getCl s cl).vx.xr rs1).toNat % 16)
            (vget (getCl s cl).vx vs2 (fmtWidth (((getCl s cl).vx.xr rs1).toNat % 16) / 8) i)).toNat)) ∧
      (Ends (.vxNorm cl vd) s fun t => t.mem = s.mem ∧ t.units = s.units ∧ (getCl t cl).queues = (getCl s cl).queues ∧
        (((getCl t cl).vx.pc = ((getCl s cl).vx.pc + 4) % 2 ^ 32 ∧
          (∀ i, i < 64 → ∃ m k v m', normAttempt m i = (k, some v, m') ∧ vget (getCl t cl).vx vd 4 i = v.toNat) ∧
          ∀ r i, r ≠ vd → i < 64 → vget (getCl t cl).vx r 4 i = vget (getCl s cl).vx r 4 i) ∨
         ((getCl t cl).vx.pc = (getCl s cl).vx.pc ∧ (getCl t cl).vx.v = (getCl s cl).vx.v)))) ∧
  (∀ (s : State) (cl vd vs2 rs1 : Nat) (r : Run), On s → awake (getCl s cl) = true → tabFind 9 (getCl s cl).runs = some r →
      vxFormat (((getCl s cl).vx.xr rs1).toNat % 16) = false →
      (Ends (.vxSrn cl vd vs2 rs1) s fun t => (getCl t cl).vx.xr 17 = 2#32 ∧
        (tabFind 9 (getCl t cl).runs).map (·.status) = some .vxFault ∧ t.mem = s.mem) ∧
      (Ends (.vxPack cl vd vs2 rs1) s fun t => (getCl t cl).vx.xr 17 = 2#32 ∧
        (tabFind 9 (getCl t cl).runs).map (·.status) = some .vxFault ∧ t.mem = s.mem) ∧
      (Ends (.vxUnpk cl vd vs2 rs1) s fun t => (getCl t cl).vx.xr 17 = 2#32 ∧
        (tabFind 9 (getCl t cl).runs).map (·.status) = some .vxFault ∧ t.mem = s.mem))

/-! ## The control core -/

/-- An engine-9 card of opcode `op` executes next in an open chain or outside one: it is ready, its chain has not aborted,
its epoch is the cluster's (R106, R111, R113). -/
def CoreReady (s : State) (cl op : Nat) (q : QCard) : Prop :=
  ready9 s cl op = some q ∧ abortedAs (useChain (getCl s cl) q.card.chain q.ord.use) q.card = none ∧
    q.card.epoch = (getCl s cl).epoch

/-- CHAIN_OPEN opens its chain, with no card posted or retired, in the mode that its reservation allows, which its record has; a
two-pass chain's region must be one that it may write (R112, R132, R164).

CHAIN_ABORT ends the chain that it names: the chain's waiting cards leave their queues (R115). Where no such chain is open
it ends CHAIN_NOT_OPEN and no chain changes. -/
def Obligations.ChainsOpenAndAbort : Prop :=
  ∀ (s : State) (cl : Nat) (q : QCard), On s →
    (∀ m, CoreReady s cl 0 q → chainMode q.card = some m → q.card.chain ≠ 0 → q.card.last = false →
      (m = 2 → ∃ pl, access s q.card.part q.card.job q.card.cls cl (nearAddr (clDie cl) (coNm q.card)).1
        (nearAddr (clDie cl) (coNm q.card)).2.1 (nearAddr (clDie cl) (coNm q.card)).2.2
        (coRows q.card * coTiles q.card * 256) .wr = .ok pl) →
      Ends (.chainOpen cl) s fun t => (getCl t cl).exec9 = none ∧ t.units = s.units ∧ t.jobs = s.jobs ∧
        t.mem = afterOk s cl q.card { Report.of .ok 0 with cycles := 8, mode := m } ∧
        ∃ h, tabFind q.card.chain (getCl t cl).chains = some h ∧ h.openCard = q.card ∧ h.mode = m ∧ h.done = 0 ∧
          h.posted = 0 ∧ h.abort = none ∧ h.tiles = []) ∧
    (∀ h, CoreReady s cl 2 q → fld q.card.w2 5 0 ≠ 0 → tabFind (fld q.card.w2 5 0) (getCl s cl).chains = some h → h.abort = none →
      Ends (.chainAbort cl) s fun t => (getCl t cl).exec9 = none ∧ t.units = s.units ∧ t.tk = s.tk ∧ t.mt = s.mt ∧ t.gen = s.gen ∧
        (∀ k x, x ∈ (getQ (getCl t cl) k).cards → ¬(x.card.chain = fld q.card.w2 5 0 ∧ x.ord.use = h.use)) ∧
        (∀ g, tabFind (fld q.card.w2 5 0) (getCl t cl).chains = some g → g.use = h.use → g.abort = some .failed)) ∧
    (CoreReady s cl 2 q → q.card.chain = 0 → tabFind (fld q.card.w2 5 0) (getCl s cl).chains = none →
      Ends (.chainAbort cl) s fun t => (getCl t cl).exec9 = none ∧ (getCl t cl).chains = (getCl s cl).chains ∧
        t.mem = withRecord s cl q.card { Report.of .chainNotOpen 0 with cycles := 8 } ∧ t.units = s.units ∧ t.jobs = s.jobs)

/-- The control core may take the next card of its list. -/
def ListReady (s : State) (cl cls p j : Nat) : Prop :=
  (getCl s cl).owner = some (cls, p, j) ∧ (getCl s cl).exec9 = none ∧ (getCl s cl).coreDown = false ∧ awake (getCl s cl) = true ∧
    listWindow s cl = true ∧ jobIssues s j = true

/-- The check of R110 that a card fails first. -/
def FailsCheck (s : State) (cl : Nat) (c : Card) (x : Status × Nat × Nat) : Prop :=
  firstBad [firstChecks s cl c, chainChecks s cl c] = some x ∨
    (firstBad [firstChecks s cl c, chainChecks s cl c] = none ∧ abortedAs (cardChain s cl c) c = none ∧ bodyChecks s cl c = some x)

/-- RUN_LIST: the control core takes the list named by the card at the head of its own queue once the list before is at its end;
the card's credit returns, and its record is written where it asks for one. A card there that fails a check takes no list, and its
record has the status (R106, R108, R111, R116).

CARD_POST: a card that fails a check of R110 is rejected and no engine gets it; outside a chain a record with the status and the
place of the first bad field is the one write. One of a chain that has aborted retires with the chain's status in its record
(R115). A card that passes goes to its engine's queue, which loses one credit, or waits where it has none; an engine-9
card waits to execute in its place. But for that wait the list goes on to its next card (R108, R110). -/
def Obligations.ListsRun : Prop :=
  (∀ (s : State) (cl cls p j : Nat) (q : QCard) (rest : List QCard), On s → ListReady s cl cls p j →
      (getQ (getCl s cl) 17).cards = q :: rest → (getCl s cl).list = none →
      (getCl s cl).prefetch.any (fun e => decide (e.due ≤ s.tk.tick)) = false →
      Ends (.runList cl) s fun t =>
        (getQ (getCl t cl) 17).cards = rest ∧ (getQ (getCl t cl) 17).credits = (getQ (getCl s cl) 17).credits + 1 ∧
        t.units = s.units ∧ t.jobs = s.jobs ∧ t.tk = s.tk ∧ (∀ c, c ≠ cl → getCl t c = getCl s c) ∧
        (runListStatus s cl cls p j q.card = .ok → (getCl t cl).list = some ⟨rlAddr q.card, rlCount q.card⟩ ∧
          t.mem = afterOk s cl q.card { Report.of .ok 0 with cycles := 8 }) ∧
        (runListStatus s cl cls p j q.card ≠ .ok → (getCl t cl).list = none ∧
          ∃ n, t.mem = withRecord s cl q.card { Report.of (runListStatus s cl cls p j q.card) 0 with cycles := n })) ∧
  (∀ (s : State) (cl cls p j : Nat) (l : ListSt) (bs : List Byte), On s → ListReady s cl cls p j → (getCl s cl).list = some l →
      readNear s p j cls cl l.addr 64 = .ok bs →
      (firstBad [firstChecks s cl (cardOf bs), chainChecks s cl (cardOf bs)] = none →
        abortedAs (cardChain s cl (cardOf bs)) (cardOf bs) = none → bodyChecks s cl (cardOf bs) = none →
        (∀ k, postKey (cardOf bs) = some k → 0 < (getQ (getCl s cl) k).credits →
          Ends (.cardPost cl) s fun t => (getCl t cl).list = nextList l ∧ t.mem = s.mem ∧ t.units = s.units ∧ t.jobs = s.jobs ∧
            (getQ (getCl t cl) k).credits + 1 = (getQ (getCl s cl) k).credits ∧
            (getQ (getCl t cl) k).cards = (getQ (getCl s cl) k).cards ++
              [⟨(cardOf bs).stamp (getCl s cl).epoch, nextOrd s cl (cardOf bs)⟩]) ∧
        (∀ k, postKey (cardOf bs) = some k → (getQ (getCl s cl) k).credits = 0 → exec (.cardPost cl) s = .next s) ∧
        (postKey (cardOf bs) = none →
          Ends (.cardPost cl) s fun t => (getCl t cl).list = nextList l ∧ t.mem = s.mem ∧ t.units = s.units ∧ t.jobs = s.jobs ∧
            (getCl t cl).exec9 = some ⟨(cardOf bs).stamp (getCl s cl).epoch, nextOrd s cl (cardOf bs)⟩)) ∧
      (∀ st, firstBad [firstChecks s cl (cardOf bs), chainChecks s cl (cardOf bs)] = none →
        abortedAs (cardChain s cl (cardOf bs)) (cardOf bs) = some st →
        Ends (.cardPost cl) s fun t => (getCl t cl).list = nextList l ∧ (getCl t cl).exec9 = none ∧
          (getCl t cl).queues = (getCl s cl).queues ∧ t.units = s.units ∧ t.jobs = s.jobs ∧
          t.mem = withRecord s cl (cardOf bs) (Report.of st (cardOf bs).unit)) ∧
      (∀ x, FailsCheck s cl (cardOf bs) x → x.1 ≠ .ok →
        Ends (.cardPost cl) s fun t => (getCl t cl).list = nextList l ∧ (getCl t cl).exec9 = none ∧
          (∀ k y, y ∈ (getQ (getCl t cl) k).cards → y ∈ (getQ (getCl s cl) k).cards) ∧ (getCl t cl).runs = (getCl s cl).runs ∧
          t.units = s.units ∧
          ((cardOf bs).chain = 0 → (getCl t cl).queues = (getCl s cl).queues ∧
            t.mem = withRecord s cl (cardOf bs) { Report.of x.1 (cardOf bs).unit with word := x.2.1, bit := x.2.2 })))

/-- Haze and Mist (R439): an idle unit of an awake cluster enters Haze, every unit is back before the intake edge; a cluster
with nothing to do and its window closed enters Mist, and before the intake edge every cluster that holds a job is Clear.

Fog and Dusk (R440): a retired PM_SLEEP takes effect at a boundary with nothing waiting, nothing running, no open
accumulation and a copy of the contents; the wake at the intake edge of tick WAKE_AT − WAKE_LEAD leaves every numbered unit
STALE, or in relief as it was, until it is refilled from its copy and re-checksummed.

PM_SLEEP at its place in the list: the cluster is to sleep, and the tick of its wake is presented (R439, R440). -/
def Obligations.PowerLadder : Prop :=
  (∀ (s : State), On s →
      (∀ cl u k, physOf s cl u = some k → (s.tk.phase = .step ∨ s.tk.phase = .late) → awake (getCl s cl) = true →
        (getQ (getCl s cl) u).cards = [] → tabFind u (getCl s cl).runs = none →
        exec (.hazeEnter cl u) s = .next (setUnit k { getUnit s k with haze := true } s)) ∧
      (s.tk.phase = .boundary → Ends .hazeExit s fun t => (∀ k, (getUnit t k).haze = false) ∧
        (∀ k, (getUnit t k).state = (getUnit s k).state) ∧ t.mem = s.mem ∧ t.clusters = s.clusters) ∧
      (∀ cl, awake (getCl s cl) = true → clIdle (getCl s cl) = true → classClosed s cl = true →
        Ends (.mistEnter cl) s fun t => (getCl t cl).pm = .mist ∧ (getCl t cl).queues = (getCl s cl).queues ∧ t.mem = s.mem ∧
          (∀ k, (getUnit t k).state = (getUnit s k).state) ∧ ∀ c, c ≠ cl → getCl t c = getCl s c) ∧
      (s.tk.phase = .boundary → heldAtMist s = false → Ends .mistExit s fun t =>
        (∀ cl, (getCl s cl).owner.isSome = true → (getCl s cl).pm = .mist → (getCl t cl).pm = .clear) ∧
        (∀ cl, (getCl s cl).pm ≠ .mist → getCl t cl = getCl s cl) ∧ t.mem = s.mem ∧ t.units = s.units)) ∧
  (∀ (s : State) (cl lead : Nat) (st : PmState), On s → (getCl s cl).sleep = some (lead, st) →
      (afterWork s = true → (getCl s cl).pm ≠ .fog → (getCl s cl).pm ≠ .dusk → clIdle (getCl s cl) = true →
        noOpenAcc s cl = true → hasSource s cl = true →
        exec (.pmSleepApply cl) s = .next (setCl cl { getCl s cl with pm := st } s)) ∧
      (s.tk.phase = .step → heldAtMist s = false → (getCl s cl).coreDown = false → (getCl s cl).wakeAt ≤ s.tk.tick + lead →
        ((getCl s cl).pm = .fog ∨ (getCl s cl).pm = .dusk) →
        Ends (.pmWake cl) s fun t => (getCl t cl).pm = .clear ∧ (getCl t cl).sleep = none ∧ t.mem = s.mem ∧
          (∀ i, i < 8 → (getUnit s (8 * cl + i)).logical < 8 →
            (getUnit t (8 * cl + i)).state = (if (getUnit s (8 * cl + i)).state = .available then .stale
              else (getUnit s (8 * cl + i)).state) ∧
            (getUnit t (8 * cl + i)).refill = some (.running (!(getUnit s (8 * cl + i)).source.none) false) ∧
            ((getUnit s (8 * cl + i)).source.none = false → 8 * cl + i ∈ t.refills)))) ∧
  (∀ (s : State) (cl : Nat) (q : QCard), On s → CoreReady s cl 18 q →
      Ends (.pmSleep cl) s fun t => (getCl t cl).wakeAt = slAt q.card ∧ (getCl t cl).exec9 = none ∧
        (getCl t cl).sleep = some (slLead q.card, if slState q.card = 3 then .fog else .dusk) ∧
        (getCl t cl).pm = (getCl s cl).pm ∧ t.units = s.units ∧ t.jobs = s.jobs ∧
        t.mem = afterOk s cl q.card { Report.of .ok 0 with cycles := 8 })

/-! ## Memory tiers -/

/-- A remote read that is not whole four ticks after its issue ends MT_REMOTE_TIMEOUT; before that its lines land as they
come, each once, and wait with the operation for its retirement; a refusal ends it with its status (R170).

A prefetch entry lands at its place in the pool and leaves the entries in flight (R174, R175): one of this package's memory
with the bytes there, unless a line of it is bad or its channel FAILED: then it writes nothing and the job falls. One of TIER 4
lands with the bytes that came, and one that the other package refuses writes nothing. -/
def Obligations.MemoryArrivals : Prop :=
  (∀ (s : State) (cl k : Nat) (r : Run), On s → (getCl s cl).tier[k]? = some r → r.host = 1 → r.status = .ok →
      (r.landed.length < mvLines r.card → r.issueTick + 4 ≤ s.tk.tick →
        exec (.mtRemoteTimeout cl k) s = .next (setCl cl { getCl s cl with
          tier := (getCl s cl).tier.set k { r with status := .mtRemoteTimeout } } s)) ∧
      (∀ first data st, exec (.memData cl k first data (some st)) s = .next (setCl cl { getCl s cl with
          tier := (getCl s cl).tier.set k { r with status := st } } s)) ∧
      (∀ first data, Ends (.memData cl k first data none) s fun t => t.mem = s.mem ∧ ∃ r', (getCl t cl).tier[k]? = some r' ∧
        r'.status = .ok ∧ r'.card = r.card ∧
        (∀ i, i ∈ r'.landed ↔ i ∈ r.landed ∨ (first ≤ i ∧ i < first + data.length / 64 ∧ i < mvLines r.card)) ∧
        (r.landed.Nodup → r'.landed.Nodup) ∧
        (r.discard = false → ∀ i b, first ≤ i → i < first + data.length / 64 → i < mvLines r.card → i ∉ r.landed →
          b ∈ bytesAt (poolKey cl (64 * (mvLine r.card + i))) ((data.drop (64 * (i - first))).take 64) → b ∈ r'.writes))) ∧
  (∀ (s : State) (cl i cls p j rd h off : Nat) (e : Prefetch) (g : Region) (pl : Place) (up : MemUpset) (data : List Byte)
      (st : Option Status), On s → (getCl s cl).prefetch[i]? = some e →
      (getCl s cl).owner = some (cls, p, j) → listWindow s cl = true →
      tierAddr s (clDie cl) (BitVec.ofNat 64 e.src) = some (.here rd h off) →
      access s p j e.cls cl rd h off (64 * e.lines) .rd = .ok pl → regionOf s rd h = some g →
      (anyFailed s (regionChans rd g off e.lines) = false → badIndex s (regionLines rd g off e.lines) true up = none →
        Ends (.prefetchLand cl i up data st) s fun t => (getCl t cl).prefetch = dropAt i (getCl s cl).prefetch ∧
          t.mem = memPuts s.mem (bytesAt (poolKey cl (64 * e.dst)) (regionBytes s rd g off (64 * e.lines))) ∧
          t.units = s.units ∧ t.jobs = s.jobs ∧ (getCl t cl).queues = (getCl s cl).queues) ∧
      (anyFailed s (regionChans rd g off e.lines) = true ∨ (badIndex s (regionLines rd g off e.lines) true up).isSome = true →
        Ends (.prefetchLand cl i up data st) s fun t => (getCl t cl).prefetch = dropAt i (getCl s cl).prefetch ∧ t.mem = s.mem ∧
          t.units = s.units ∧ ∀ x, getJob s j = some x → (getJob t j).any (·.ending.isSome) = true)) ∧
  (∀ (s : State) (cl i cls p j pkg rd h off : Nat) (e : Prefetch) (up : MemUpset) (data : List Byte), On s →
      (getCl s cl).prefetch[i]? = some e → (getCl s cl).owner = some (cls, p, j) → listWindow s cl = true →
      tierAddr s (clDie cl) (BitVec.ofNat 64 e.src) = some (.remote pkg rd h off) →
      (data.length = 64 * e.lines →
        Ends (.prefetchLand cl i up data none) s fun t => (getCl t cl).prefetch = dropAt i (getCl s cl).prefetch ∧
          t.mem = memPuts s.mem (bytesAt (poolKey cl (64 * e.dst)) data) ∧ t.units = s.units ∧ t.jobs = s.jobs) ∧
      (∀ st, Ends (.prefetchLand cl i up data (some st)) s fun t => (getCl t cl).prefetch = dropAt i (getCl s cl).prefetch ∧
          t.mem = s.mem ∧ t.units = s.units))

/-- The state in which a card that goes to the tier port acts: it has left its place in the list and T × 120 pJ are paid (R442). -/
def TierTaken (s : State) (cl t : Nat) : State := pay (clOwnerPart s cl) (1200 * t) (clear9 cl s)

/-- The operation is at the tier port, with what it did to memory; the operations there before it are still there. -/
def Handed (s t : State) (cl rd h off : Nat) (q : QCard) (up : MemUpset) : Prop :=
  (getCl t cl).exec9 = none ∧ t.units = s.units ∧ t.mem = (moveHere cl q rd h off up (TierTaken s cl (tierLength s cl))).2.mem ∧
  ∃ l, (getCl t cl).tier = l ++ [(moveHere cl q rd h off up (TierTaken s cl (tierLength s cl))).1] ∧
    l.map (·.card) = (getCl s cl).tier.map (·.card) ∧ (up.edc = false → l = (getCl s cl).tier)

/-- MOVE and ACCUM of this package's memory, and MOVE of another's: the control core hands the operation to the tier port, which
has room for 32, and goes on with its list; a write waits while it would reach a block not yet copied (R105, R106, R169 to R171,
R347). A write of another package's memory ends MT_READ_ONLY (R164).

A refresh slot of a channel that is not down or FAILED does its pending rewrites and scrubs 64 lines, of which those that prove
uncorrectable become POISON; the freed ranges of a channel are zeroed and can be reserved again (R167, R182). -/
def Obligations.TierOperations : Prop :=
  (∀ (s : State) (cl rd h off : Nat) (q : QCard) (up : MemUpset), On s → tierFree s cl = true →
      canPay s (clOwnerPart s cl) (1200 * tierLength s cl) = true →
      (tierAddr s (clDie cl) (mvMem q.card) = some (.here rd h off) →
        (CoreReady s cl 3 q →
          (mvBit q.card = true → stallOn q.card.job (clDie cl) (touches rd h off (64 * mvLines q.card)) s = none) →
          Ends (.move cl up) s fun t => Handed s t cl rd h off q up) ∧
        (CoreReady s cl 4 q →
          stallOn q.card.job (clDie cl) (touches rd h off
            (64 * (if acFmt q.card = 5 then 2 * mvLines q.card else mvLines q.card))) s = none →
          Ends (.accum cl up) s fun t => Handed s t cl rd h off q up)) ∧
      (∀ pkg, tierAddr s (clDie cl) (mvMem q.card) = some (.remote pkg rd h off) → CoreReady s cl 3 q →
        Ends (.move cl up) s fun t => (getCl t cl).exec9 = none ∧ t.units = s.units ∧ t.mem = s.mem ∧ t.jobs = s.jobs ∧
          ∃ r, (getCl t cl).tier = (getCl s cl).tier ++ [r] ∧ r.card = q.card ∧ r.ord = q.ord ∧ r.issueTick = s.tk.tick ∧
            r.landed = [] ∧ r.writes = [] ∧
            (mvBit q.card = false → r.host = 1 ∧ r.status = .ok) ∧ (mvBit q.card = true → r.status = .mtReadOnly))) ∧
  (∀ (s : State) (ch : Nat), On s →
      ((chanOwner s.pt.chans ch).isSome = true ∨ packageChan ch = true → (getChan s ch).state ≠ .failed →
        ∀ corrected poisoned, Ends (.refreshSlot ch corrected poisoned) s fun t => (getChan t ch).rewrite = [] ∧
          (getChan t ch).scrub = ((getChan s ch).scrub + 64) % 250000000 ∧ t.mem = s.mem ∧ t.jobs = s.jobs ∧
          (∀ l, l ∈ t.mt.poison ↔ l ∈ s.mt.poison ∨
            ∃ i, i ∈ poisoned ∧ scrubbed (getChan s ch) i = true ∧ l = chanKey ch 0 / 64 + i) ∧
          ∀ c, c ≠ ch → getChan t c = getChan s c) ∧
      (Ends (.regionZero ch) s fun t => (getChan t ch).zeroing = [] ∧ t.jobs = s.jobs ∧ t.units = s.units ∧
        (∀ k, memByte t.mem k =
          if (getChan s ch).zeroing.any (fun r => decide (chanKey ch r.1 ≤ k) && decide (k < chanKey ch r.1 + r.2)) then 0#8
          else memByte s.mem k)))

/-! ## Maintenance, spares and refills -/

/-- The share of a maintenance request: the package's for a requester with package rights, else its view's. -/
def maintShare (s : State) (who : Who) : Nat := if packageRights s who then 16 else viewOf s who

/-- A byte of the quarter `q` of a unit's stores: of the lane and scale stores of its 64 data lanes and the spare, and of lane 64's
store (R46, R96). -/
def InQuarter (unit q k : Nat) : Prop :=
  (∃ l i, l < 66 ∧ l ≠ 64 ∧ i < 16384 ∧ k = laneKey unit l (16384 * q) + i) ∨
  (∃ l i, l < 66 ∧ l ≠ 64 ∧ i < 2048 ∧ k = scaleKey unit l (2048 * q) + i) ∨
  ∃ i, i < 131072 ∧ k = laneKey unit 64 (131072 * q) + i

/-- The outcome of a test has left the unit: no test is in progress and no request for it is queued. -/
def TestOver (t : State) (unit kind : Nat) : Prop :=
  (getUnit t unit).test = none ∧ ∀ m ∈ t.maint, ¬(m.kind = kind ∧ m.target = unit)

/-- What the test leaves of a unit that stays in use (R89, R467): STALE after an ARITH_TEST, to be re-checksummed; AVAILABLE at its
cluster's epoch after a STORE_TEST. -/
def StaysInUse (s t : State) (unit kind : Nat) : Prop :=
  TestOver t unit kind ∧
  (kind = 1 → (getUnit t unit).state = .available ∧ (getUnit t unit).epoch = (getCl s (unit / 8)).epoch) ∧
  (kind ≠ 1 → (getUnit t unit).state = .stale ∧ (getUnit t unit).refill.isSome = true)

/-- Steps of granted tests (R88, R96, R467): a pass of ARITH_TEST adds the lanes that differ in its first two passes and notes the
reverse tree's result in the third, and writes no store; a step of STORE_TEST adds the lanes that differ, leaves its quarter
of every store of the unit zero and no other byte changed, and leaves the unit without a source.

The outcome of a finished test (R89, R91, R467): a unit without a bad lane stays in use; so does one whose one bad data
lane a free good spare replaces, the lane's stores copied after an ARITH_TEST, and one whose spare alone is bad, which
SPARE_BAD then shows; every other finding retires the unit. A repair or retirement enters the repair record, or sets FULL.
A cluster without a job has its enabled units numbered in ascending physical order (R90). -/
def Obligations.UnitTests : Prop :=
  (∀ (s : State) (unit : Nat) (f : Finding) (m : MaintReq) (p : TestProg), On s → (getUnit s unit).test = some p → p.finished = false →
      (p.kind = 0 → stepReady s 0 unit = some m →
        Ends (.arithTestPass unit f) s fun t => t.mem = s.mem ∧ t.clusters = s.clusters ∧ t.jobs = s.jobs ∧
          (∀ k, k ≠ unit → getUnit t k = getUnit s k) ∧ ∃ p', (getUnit t unit).test = some p' ∧
          p'.kind = 0 ∧ p'.done = p.done + 1 ∧ p'.finished = decide (p.done = 2) ∧
          (p.done < 2 → p'.reverseBad = p.reverseBad ∧ ∀ x, x ∈ p'.bad ↔ x ∈ p.bad ∨ (x ∈ f.lanes ∧ x < 66)) ∧
          (2 ≤ p.done → p'.reverseBad = f.reverseTree ∧ p'.bad = p.bad)) ∧
      (p.kind = 1 → stepReady s 1 unit = some m →
        Ends (.storeTestStep unit f) s fun t => (getUnit t unit).source = .nothing ∧ t.clusters = s.clusters ∧ t.jobs = s.jobs ∧
          (∀ k, k ≠ unit → getUnit t k = getUnit s k) ∧
          (∀ k, InQuarter unit p.done k → memByte t.mem k = 0#8) ∧
          (∀ k, ¬InQuarter unit p.done k → memByte t.mem k = memByte s.mem k) ∧
          ∃ p', (getUnit t unit).test = some p' ∧ p'.kind = 1 ∧ p'.done = p.done + 1 ∧ p'.finished = decide (p.done = 3) ∧
            p'.reverseBad = p.reverseBad ∧ ∀ x, x ∈ p'.bad ↔ x ∈ p.bad ∨ (x ∈ f.lanes ∧ x < 66))) ∧
  (∀ (s : State), On s →
      (∀ (unit : Nat) (p : TestProg) (data : List Nat), s.tk.phase ≠ .step → s.tk.phase ≠ .late → (getUnit s unit).test = some p →
        p.finished = true → data = p.bad.filter (· < 64) →
        (p.reverseBad = false → 64 ∉ p.bad → 65 ∉ p.bad → data = [] →
          Ends (.testOutcomeApply unit) s fun t => StaysInUse s t unit p.kind ∧ t.fuses = s.fuses ∧ t.mem = s.mem) ∧
        (∀ l, p.reverseBad = false → 64 ∉ p.bad → 65 ∉ p.bad → data = [l] → (getUnit s unit).spareInUse = false →
          (getUnit s unit).spareBad = false →
          Ends (.testOutcomeApply unit) s fun t => StaysInUse s t unit p.kind ∧ (getUnit t unit).spareInUse = true ∧
            (getUnit t unit).spareFor = l ∧
            (p.kind = 0 → t.mem = memPuts s.mem (bytesAt (laneKey unit 65 0) (memBytes s.mem (laneKey unit l 0) 65536)
              ++ bytesAt (scaleKey unit 65 0) (memBytes s.mem (scaleKey unit l 0) 8192))) ∧
            (p.kind ≠ 0 → t.mem = s.mem) ∧
            (s.fuses.repair.length < 2048 → t.fuses.repair = s.fuses.repair ++ [(unit, l)]) ∧
            (2048 ≤ s.fuses.repair.length → t.repairFull = true ∧ t.fuses = s.fuses)) ∧
        (p.reverseBad = false → 64 ∉ p.bad → 65 ∈ p.bad → data = [] → (getUnit s unit).spareInUse = false →
          Ends (.testOutcomeApply unit) s fun t => StaysInUse s t unit p.kind ∧ (getUnit t unit).spareBad = true ∧
            t.fuses = s.fuses ∧ t.mem = s.mem) ∧
        ((p.reverseBad = true ∨ 64 ∈ p.bad ∨ 2 ≤ data.length ∨ (65 ∈ p.bad ∧ (getUnit s unit).spareInUse = true) ∨
            (data ≠ [] ∧ ((getUnit s unit).spareInUse = true ∨ (getUnit s unit).spareBad = true ∨ 65 ∈ p.bad))) →
          Ends (.testOutcomeApply unit) s fun t => TestOver t unit p.kind ∧ (getUnit t unit).state = .retired ∧ t.mem = s.mem ∧
            (s.fuses.repair.length < 2048 → t.fuses.repair = s.fuses.repair ++ [(unit, 64)]) ∧
            (2048 ≤ s.fuses.repair.length → t.repairFull = true ∧ t.fuses = s.fuses))) ∧
      (∀ cl, (getCl s cl).owner = none →
        Ends (.unitRenumber cl) s fun t => t.mem = s.mem ∧ t.clusters = s.clusters ∧ ∀ i, i < 8 →
          (getUnit t (8 * cl + i)).state = (getUnit s (8 * cl + i)).state ∧
          (getUnit t (8 * cl + i)).logical = if unitEnabled (getUnit s (8 * cl + i)) then
            ((List.range i).filter fun k => unitEnabled (getUnit s (8 * cl + k))).length else 15))

/-- The four maintenance requests (R98): one that passes the checks of R98 is queued last and its writer sees OK; one that
fails them is not queued, and its writer sees the status of the first failed check.

Training and calibration (R96, R97, R180, R181): a busy channel's training is deferred, one that succeeds serves again, one
that fails fails the channel; LINK_CAL takes the port of its lane; the period queues RETRAIN for every owned channel. -/
def Obligations.Maintenance : Prop :=
  (∀ (s : State) (n target : Nat), On s → windowUp s (.session n) = true →
      ∀ kind c, ((kind, c) = (0, Instr.arithTestReq (.session n) target) ∨ (kind, c) = (1, Instr.storeTestReq (.session n) target) ∨
          (kind, c) = (2, Instr.retrainReq (.session n) target) ∨ (kind, c) = (3, Instr.linkCalReq (.session n) target)) →
        (maintStatus (.session n) kind target (maintShare s (.session n)) s = .ok →
          Ends c s fun t => t.maint = s.maint ++ [⟨kind, target, maintShare s (.session n), false, 0⟩] ∧
            t.out = s.out ++ [.outcome (.session n) .ok] ∧ t.units = s.units ∧ t.mem = s.mem ∧ t.jobs = s.jobs) ∧
        (maintStatus (.session n) kind target (maintShare s (.session n)) s ≠ .ok →
          Ends c s fun t => t.maint = s.maint ∧
            t.out = s.out ++ [.outcome (.session n) (maintStatus (.session n) kind target (maintShare s (.session n)) s)] ∧
            t.units = s.units ∧ t.mem = s.mem ∧ t.jobs = s.jobs)) ∧
  (∀ (s : State), On s →
      (∀ ch m, stepReady s 2 ch = some m → (getChan s ch).state ≠ .failed →
        (∀ ok, Ends (.retrain ch true ok) s fun t =>
          (getChan t ch).state = (if (getChan s ch).state = .retrain then .active else (getChan s ch).state) ∧
          t.maint.length = s.maint.length ∧ (∀ x ∈ t.maint, x.kind = 2 → x.target = ch → x.granted = false) ∧ t.mem = s.mem) ∧
        (Ends (.retrain ch false true) s fun t =>
          (getChan t ch).state = (if (getChan s ch).state = .retrain then .active else (getChan s ch).state) ∧
          (∀ x ∈ t.maint, ¬(x.kind = 2 ∧ x.target = ch)) ∧ t.mem = s.mem) ∧
        (Ends (.retrain ch false false) s fun t => (getChan t ch).state = .failed ∧
          (∀ x ∈ t.maint, ¬(x.kind = 2 ∧ x.target = ch)))) ∧
      (∀ lane m n, stepReady s 3 lane = some m → lanePort s lane = some n → (getPort s n).state = .up →
        Ends (.linkCal lane) s fun t => (getPort t n).state = .cal ∧ (∀ x ∈ t.maint, ¬(x.kind = 3 ∧ x.target = lane)) ∧
          t.mem = s.mem ∧ t.jobs = s.jobs) ∧
      (s.mt.retrainPeriod ≠ 0 → s.tk.tick % s.mt.retrainPeriod = 0 → s.tk.cfg.maintUs ≠ 0 →
        shareUsed s 16 + 128 ≤ 64 + ((List.range 128).filter fun ch => (chanOwner s.pt.chans ch).isNone).length →
        Ends .retrainPeriodic s fun t => t.mem = s.mem ∧ t.jobs = s.jobs ∧
          (∀ ch, ch < 128 → (chanOwner s.pt.chans ch).isSome = true → (getChan s ch).state ≠ .failed → maintQueued t 2 ch = true) ∧
          (∀ x ∈ t.maint, x ∈ s.maint ∨ (x.kind = 2 ∧ x.share = 16 ∧ x.granted = false))))

/-- The refill of unit `k` has put the bytes of its source, and its re-checksum follows. -/
def Filled (s t : State) (k : Nat) (again : Bool) (ws : List (Nat × Byte)) : Prop :=
  (getUnit t k).refill = some (.filled again) ∧ t.mem = memPuts s.mem ws ∧ k ∉ t.refills ∧ t.jobs = s.jobs ∧
    t.clusters = s.clusters ∧ ∀ u, u ≠ k → getUnit t u = getUnit s u

/-- Refill and re-checksum of a unit, inside the CONTRAIL window (R92 to R94, R233, R236): the bytes of its source fill the
store, those of a banked unit bank by bank; a unit without a source takes its job down. When the stored sums stand
the unit is AVAILABLE at its cluster's epoch; the first difference refills it again, or takes down the job of one without a copy,
and the second marks it SUSPECT. -/
def Obligations.RefillAndRechecksum : Prop :=
  ∀ (s : State) (k : Nat), On s → windowOpen s 3 = true →
    (∀ again, (getUnit s k).refill = some (.running true again) → refillTurn s k = true →
      (∀ rd h o bytes, (getUnit s k).source = .slot rd h o → readPlace s ⟨rd, h, o⟩ 4718592 = .ok bytes →
        Ends (.unitRefill k) s fun t => Filled s t k again (wholeUnit k (getUnit s k) bytes)) ∧
      (∀ p i o l bytes, (getUnit s k).source = .library p i o → bankOf s (k / 8) = none → tabFind (64 * p + i) s.lrn.libs = some l →
        readPlace s ⟨l.rd, l.region, o⟩ 5242880 = .ok bytes →
        Ends (.unitRefill k) s fun t => Filled s t k again (wholeUnit k (getUnit s k) bytes)) ∧
      (∀ p i o l size b bytes, (getUnit s k).source = .library p i o → bankOf s (k / 8) = some (size, b) →
        tabFind (64 * p + i) s.lrn.libs = some l → readPlace s ⟨l.rd, l.region, o⟩ (80 * size) = .ok bytes →
        copyPlace s (k / 8) (getUnit s k).logical = none →
        Ends (.unitRefill k) s fun t => Filled s t k again (bankUnit k (getUnit s k) size 0 bytes)) ∧
      (∀ p i o l size b bytes rd h a, (getUnit s k).source = .library p i o → bankOf s (k / 8) = some (size, b) →
        tabFind (64 * p + i) s.lrn.libs = some l → readPlace s ⟨l.rd, l.region, o⟩ (80 * size) = .ok bytes →
        copyPlace s (k / 8) (getUnit s k).logical = some (rd, h, a) →
        Ends (.unitRefill k) s fun t => (getUnit t k).refill = some (.filled again) ∧ (getUnit t k).source = .bankCopy rd h a ∧
          t.mem = (writePlace rd h a bytes (putMem (bankUnit k (getUnit s k) size 0 bytes) s)).mem ∧ t.jobs = s.jobs) ∧
      (∀ rd h o size b bytes bytes', (getUnit s k).source = .bankCopy rd h o → bankOf s (k / 8) = some (size, b) →
        readPlace s ⟨rd, h, o⟩ (80 * size) = .ok bytes → readPlace s ⟨rd, h, o + 640 * size⟩ (80 * size) = .ok bytes' →
        Ends (.unitRefill k) s fun t =>
          Filled s t k again (bankUnit k (getUnit s k) size 0 bytes ++ bankUnit k (getUnit s k) size 1 bytes')) ∧
      ((getUnit s k).source.none = true → Ends (.unitRefill k) s fun t => (getUnit t k).refill = none ∧ t.mem = s.mem ∧
        ∀ c p j x, (getCl s (k / 8)).owner = some (c, p, j) → getJob s j = some x → x.ending = none →
          (getJob t j).map (·.ending) = some (some (.faulted, .ckRefillNoSource)))) ∧
    (∀ again, ((getUnit s k).refill = some (.filled again) ∨ (getUnit s k).refill = some (.running false again)) →
      ((sumBanks s k).any (bankDiffers s k) = false →
        Ends (.unitRechecksum k false) s fun t => (getUnit t k).refill = none ∧ (getUnit t k).epoch = (getCl s (k / 8)).epoch ∧
          (getUnit t k).state = (if (getUnit s k).state = .stale then .available else (getUnit s k).state) ∧ t.mem = s.mem ∧
          t.jobs = s.jobs) ∧
      (∀ diff, diff = true ∨ (sumBanks s k).any (bankDiffers s k) = true →
        (again = false → (getUnit s k).source.none = false →
          Ends (.unitRechecksum k diff) s fun t => (getUnit t k).refill = some (.running true true) ∧ k ∈ t.refills ∧ t.mem = s.mem ∧
            t.jobs = s.jobs) ∧
        (again = false → (getUnit s k).source.none = true →
          Ends (.unitRechecksum k diff) s fun t => (getUnit t k).refill = none ∧ t.mem = s.mem ∧
            ∀ c p j x, (getCl s (k / 8)).owner = some (c, p, j) → getJob s j = some x → x.ending = none →
              (getJob t j).map (·.ending) = some (some (.faulted, .ckRefillNoSource))) ∧
        (again = true → unitEnabled (getUnit s k) = true → (getUnit s k).state ≠ .inTest →
          Ends (.unitRechecksum k diff) s fun t => (getUnit t k).refill = none ∧ (getUnit t k).state = .suspect ∧ t.mem = s.mem)))

/-! ## The register window -/

/-- Stores to the window's registers by a requester with package rights (R12, R24, R195, R200, R394, R425, R428): a store that is
not 8 bytes wide or not aligned changes no register and is recorded; TK_CONFIG_NEXT takes its fields and leaves the setting in
force; with no job, an arming names a tick at least two ahead or leaves what was pending and shows TK_APPLY_TOO_SOON, and a disarming
leaves none; the package's number and a tenant's writable fields wait for the boundary; a latency window's length takes its field.

A load from the window (R12, R425): TK_TICK reads as the tick to any requester; a load of another width or alignment reads 0 and
is recorded. -/
def Obligations.RegisterAccess : Prop :=
  (∀ (s : State) (n : Nat), On s → windowUp s (.session n) = true → packageRights s (.session n) = true →
      (∀ off bytes v, (bytes ≠ 8 ∨ off % 8 ≠ 0) → Ends (.regWrite (.session n) off bytes v) s fun t =>
        t = { s with wn := { s.wn with discard := (off % 2 ^ 24, 3, s.tk.tick % 2 ^ 32) }, ctrs := t.ctrs, ovfs := t.ovfs, out := t.out }) ∧
      (∀ v, Ends (.regWrite (.session n) (regOff .tkConfigNext 0 0) 8 v) s fun t =>
        t.tk.next = ⟨fld v 15 0, fld v 31 16, fld v 47 32⟩ ∧ t.tk.cfg = s.tk.cfg ∧ t.tk.pending = s.tk.pending ∧ t.mem = s.mem ∧
          t.jobs = s.jobs) ∧
      (∀ tick : W64, tick ≠ 0#64 → cfgLegal s.tk.next = true → s.jobs = [] → s.tk.tick + 2 ≤ tick.toNat →
        Ends (.tkApplyAtArm (.session n) tick) s fun t => t.tk.pending = some (s.tk.next, tick.toNat) ∧ t.tk.applyAt = tick.toNat ∧
          t.tk.cfg = s.tk.cfg ∧ t.out = s.out ++ [.outcome (.session n) .ok]) ∧
      (∀ tick : W64, tick ≠ 0#64 → cfgLegal s.tk.next = true → s.jobs = [] → tick.toNat < s.tk.tick + 2 →
        Ends (.tkApplyAtArm (.session n) tick) s fun t => t.tk.pending = s.tk.pending ∧ t.tk.applyAt = s.tk.applyAt ∧
          t.tk.applyRejected = true ∧ t.tk.applyStatus = .tkApplyTooSoon ∧ t.out = s.out ++ [.outcome (.session n) .tkApplyTooSoon]) ∧
      (Ends (.tkApplyAtDisarm (.session n)) s fun t => t.tk.pending = none ∧ t.tk.applyAt = 0 ∧ t.tk.cfg = s.tk.cfg) ∧
      (∀ v, s.jobs = [] → Ends (.wnPkgWrite (.session n) v) s fun t => t.wn.pkgNext = some (fld v 9 0) ∧ t.wn.pkg = s.wn.pkg) ∧
      (∀ v, fld v 15 0 ≠ 0 → Ends (.smLatWindowWrite (.session n) v) s fun t => t.gen.latWindow = fld v 15 0 ∧ t.mem = s.mem) ∧
      (∀ t0 v, t0 < 4096 → s.gen.reqs = [] → Ends (.smTenantWrite (.session n) t0 v) s fun t =>
        t.gen.tenants = s.gen.tenants ∧ ∃ w, t.gen.tenantDue = s.gen.tenantDue ++ [(t0, w)] ∧
          w.toNat = v.toNat % 2 ^ 5 + v.toNat / 2 ^ 8 % 2 ^ 56 * 2 ^ 8 + v.toNat / 2 ^ 64 % 2 ^ 8 * 2 ^ 64)) ∧
  (∀ (s : State) (p : Nat), On s → p < 16 → windowUp s (.cores p) = true →
      (Ends (.regRead (.cores p) (regOff .tkTick 0 0) 8) s fun t => t.out = s.out ++ [.load p (BitVec.ofNat 64 s.tk.tick)] ∧
        t.tk = s.tk ∧ t.mem = s.mem ∧ t.jobs = s.jobs) ∧
      (∀ off bytes, (bytes ≠ 8 ∨ off % 8 ≠ 0) → Ends (.regRead (.cores p) off bytes) s fun t =>
        t.out = s.out ++ [.load p 0#64] ∧ (getPart t p).discard = (off % 2 ^ 24, 3, s.tk.tick % 2 ^ 32) ∧ t.tk = s.tk ∧ t.mem = s.mem))

/-- Stores of a session to its own view and to a closed stream that the view shows (R370, R383, R394): PT_VIEW takes a partition of
the key's mask and refuses another with PT_DENIED; the stream's writable fields take the written ones, PART only with package
rights, and a word of its peer's address or of a stored action goes to its place; a stream that is not closed takes none of
them and its writer sees HZ_STREAM_BUSY. -/
def Obligations.ViewAndStreamWrites : Prop :=
  ∀ (s : State) (n : Nat) (x : Sess), On s → windowUp s (.session n) = true → tabFind n s.sc.sessions = some x →
    (∀ v : W64, (x.mask.toNat / 2 ^ fld v 3 0 % 2 = 1 → Ends (.ptViewWrite (.session n) v) s fun t =>
        tabFind n t.sc.sessions = some { x with view := fld v 3 0 } ∧ t.pt = s.pt ∧ t.mem = s.mem) ∧
      (x.mask.toNat / 2 ^ fld v 3 0 % 2 = 0 → Ends (.ptViewWrite (.session n) v) s fun t => t.sc = s.sc ∧ t.pt = s.pt ∧
        t.out = s.out ++ [.outcome (.session n) .ptDenied])) ∧
    (∀ i v, i < 4096 → seesStream s (.session n) (getStream s i) = true → (getStream s i).state = .closed →
      (∀ park w, 8 * w + 8 ≤ min 1024 (getStream s i).actionBytes → Ends (.hzActstoreWrite (.session n) i park w v) s fun t =>
        (((if park then (getStream t i).park else (getStream t i).safe).drop (8 * w)).take 8 = leBytes 8 v.toNat) ∧
        (if park then (getStream t i).safe = (getStream s i).safe else (getStream t i).park = (getStream s i).park) ∧
          t.mem = s.mem ∧ ∀ k, k ≠ i → getStream t k = getStream s k) ∧
      (fld v 11 10 ≠ 3 → Ends (.hzStreamWrite (.session n) i false 0 v) s fun t =>
        getStream t i = { getStream s i with
          part := if packageRights s (.session n) then fld v 3 0 else (getStream s i).part
          port := fld v 7 4, holdMode := fld v 11 10, actionKind := fld v 12 12, actionBytes := fld v 26 16, obsBytes := fld v 45 32 } ∧
        t.mem = s.mem ∧ ∀ k, k ≠ i → getStream t k = getStream s k) ∧
      (Ends (.hzStreamWrite (.session n) i false 1 v) s fun t =>
        getStream t i = { getStream s i with decayN := fld v 15 0, holdLimit := fld v 31 16, windK := fld v 47 32 } ∧
        t.mem = s.mem ∧ ∀ k, k ≠ i → getStream t k = getStream s k) ∧
      (∀ w, w < 4 → Ends (.hzStreamWrite (.session n) i true w v) s fun t =>
        getStream t i = { getStream s i with
          peer := BitVec.ofNat 256 (putWord (getStream s i).peer.toNat w (if w = 3 then fld v 15 0 else v.toNat)) } ∧
        t.mem = s.mem ∧ ∀ k, k ≠ i → getStream t k = getStream s k)) ∧
    (∀ i v, i < 4096 → seesStream s (.session n) (getStream s i) = true → (getStream s i).state ≠ .closed →
      (∀ peer w, Ends (.hzStreamWrite (.session n) i peer w v) s fun t => t.streams = s.streams ∧
        t.out = s.out ++ [.outcome (.session n) .hzStreamBusy]) ∧
      (∀ park w, Ends (.hzActstoreWrite (.session n) i park w v) s fun t => t.streams = s.streams ∧
        t.out = s.out ++ [.outcome (.session n) .hzStreamBusy]))

/-! ## Generation -/

/-- An ACK record waits for the next intake edge of a job's ring, or has left for a job without one (R202, log 103). -/
def Acknowledged (t : State) (p : Nat) (rec : Card) (st : Status) : Prop :=
  (∃ g, genOf t (rqJob rec) = some g ∧ ackRec (rqId rec) st (rqTag rec) none ∈ g.acks) ∨
    Out.requestAck p (rqId rec) st (rqTag rec) ∈ t.out

/-- Requests (R40, R186, R191, R213, R214, R217): a SUBMIT that has a credit goes last into its partition's intake with its arrival
time and takes the credit, and a record without one is refused with NO_CREDIT; a CANCEL by identifier ends a live request
CANCELLED and is acknowledged with OK, and one of a request whose end is decided leaves every request as it is; a request QUEUED
for ADMIT_TIMEOUT ticks ends REFUSED, and one that has waited longer than PAGE_WAIT_LIMIT for a page ends FAILED. -/
def Obligations.RequestLife : Prop :=
  ∀ (s : State), On s →
    (∀ p rec ns, rqKind rec ≠ 1 → (getPart s p).intakeCredits ≠ 0 →
      Ends (.reqArrive p rec ns) s fun t => (getPart t p).intake = (getPart s p).intake ++ [(rec, s.tk.startNs + ns, false)] ∧
        (getPart t p).intakeCredits + 1 = (getPart s p).intakeCredits ∧
        t.gen = s.gen ∧ t.mem = s.mem ∧ t.jobs = s.jobs ∧ ∀ q, q ≠ p → getPart t q = getPart s q) ∧
    (∀ p rec ns, (getPart s p).intakeCredits = 0 →
      exec (.reqArrive p rec ns) s = .next { s with out := s.out ++ [.postRefused .noCredit 1 p] }) ∧
    (∀ p rec r atPoint, rqKind rec = 1 → rqCancelReserved rec = false → rqId rec ≠ 0 → (getPart s p).intakeCredits ≠ 0 →
      findReq s p (rqId rec) = some r →
      (r.ended = none → Ends (.cancel p rec atPoint) s fun t => Acknowledged t p rec .ok ∧ ∃ r', findReq t p (rqId rec) = some r' ∧
        r'.ended = some (.cancelled, 0, .cancelled) ∧ r'.state = .ending ∧ r'.step = none ∧ r'.card = r.card) ∧
      (∀ k a st, r.ended = some (k, a, st) → Ends (.cancel p rec atPoint) s fun t => t.gen = s.gen ∧ t.mem = s.mem ∧
        Acknowledged t p rec (if k = .cancelled then .alreadyCancelled else .alreadyComplete))) ∧
    (∀ p id r g, findReq s p id = some r → genOf s r.job = some g → r.state = .queued → r.ended = none → g.admitTimeout ≠ 0 →
      r.latchTick + g.admitTimeout ≤ s.tk.tick →
      Ends (.reqAdmitTimeout p id) s fun t => t.mem = s.mem ∧ ∃ r', findReq t p id = some r' ∧
        r'.ended = some (.refused, 0, .reqAdmitTimeout) ∧ r'.state = .ending ∧ r'.card = r.card) ∧
    (∀ slot r g, s.gen.reqs.find? (fun x => decide (x.slot = some slot)) = some r → findReq s r.part r.id = some r →
      genOf s r.job = some g → r.waiting = true → g.pageWaitLimit < r.pageWait → r.ended = none →
      Ends (.kvPageWaitLimit slot) s fun t => t.mem = s.mem ∧ ∃ r', findReq t r.part r.id = some r' ∧
        r'.ended = some (.failed, 0, .kvNoPage) ∧ r'.state = .ending ∧ r'.waiting = false)

/-- READ_INDEX moves forward only, up to WRITE_INDEX, the indices counting modulo 2^64, and stands in the ring's header; another
index is ignored (R201, R447). The latency window's values are presented and begin anew at its end (R200). STEP_DONE hands the
token result of its pool line, where it names one, to the sequence whose step it ends; where the line has an uncorrectable word
it hands nothing and, outside a chain, its record with POOL_UNCORRECTABLE is the one write (R102, R204, R207). -/
def Obligations.RingWindowAndStep : Prop :=
  ∀ (s : State), On s →
    (∀ j v x g, getJob s j = some x → genOf s j = some g → ago64 v.toNat g.read ≤ ago64 g.write g.read →
      Ends (.ringReadIndex j v) s fun t => genOf t j = some { g with read := v.toNat } ∧ t.gen = s.gen ∧
        t.mem = (writePlace g.ringRd g.ringRegion 8 (leBytes 8 v.toNat) s).mem) ∧
    (∀ j v x g, getJob s j = some x → genOf s j = some g → ago64 g.write g.read < ago64 v.toNat g.read →
      Ends (.ringReadIndex j v) s fun t => t.jobs = s.jobs ∧ t.mem = s.mem ∧ t.gen = s.gen) ∧
    (s.tk.phase = .boundary → s.gen.latDone = false → s.gen.latWindow ≠ 0 → (s.tk.tick + 1) % s.gen.latWindow = 0 →
      Ends .smLatWindowEnd s fun t => t.gen.latDone = true ∧ t.mem = s.mem ∧ t.jobs = s.jobs ∧
        ∀ k y, tabFind k s.gen.tenants = some y → tabFind k t.gen.tenants = some { y with lat := y.win, win := (0, 0, 0, 0) }) ∧
    (∀ cl q r, CoreReady s cl 5 q → stepping s q.card.job (fld q.card.w2 15 0) = some r →
      (flag q.card.w2 32 = false → Ends (.stepDone cl true) s fun t => (getCl t cl).exec9 = none ∧ t.gen = s.gen ∧ t.units = s.units ∧
        (q.card.chain = 0 → t.mem = withRecord s cl q.card { Report.of .poolUncorrectable 0 with cycles := 8 })) ∧
      (∀ poolBad, poolBad = false ∨ flag q.card.w2 32 = true →
        Ends (.stepDone cl poolBad) s fun t => (getCl t cl).exec9 = none ∧ t.units = s.units ∧
          t.mem = afterOk s cl q.card { Report.of .ok 0 with cycles := 8 } ∧
          ∀ x, x ∈ t.gen.reqs → x.part = r.part → x.id = r.id → x.stepDone = true ∧
            x.ready = if flag q.card.w2 32 then none else some
              ⟨fld (memW64 s.mem (poolKey cl (64 * fld q.card.w2 31 16))) 17 0,
               flag (memW64 s.mem (poolKey cl (64 * fld q.card.w2 31 16))) 18,
               flag (memW64 s.mem (poolKey cl (64 * fld q.card.w2 31 16))) 19,
               (memW64 s.mem (poolKey cl (64 * fld q.card.w2 31 16) + 8)).truncate 32,
               (memW64 s.mem (poolKey cl (64 * fld q.card.w2 31 16) + 8) >>> 32).truncate 32⟩))

/-! ## Contrail -/

/-- The weights that entry `e` captures, lane by lane (R241). -/
def sourceLanes (s : State) (e : MapEntry) : List (List W32) :=
  (List.range 64).map (sourceLane s e ((physOf s e.srcCl e.srcUnit).getD (8 * e.srcCl + e.srcUnit)))

/-- A publish of context `n` has failed here: the context is IDLE with the status, its inactive bank INVALID, and what is in force
stays (R248). -/
def PublishFailed (s t : State) (n : Nat) (c : Ctx) (st : Status) : Prop :=
  t.mem = s.mem ∧ ∃ d, getCtx t n = some d ∧ d.phase = .idle ∧ d.lastStatus = st ∧ d.inactiveInvalid = true ∧
    d.activeBank = c.activeBank ∧ d.epochActive = c.epochActive

/-- Entry `i` of the publish goes on as `x` while the context stays in its phase and its active bank. -/
def EntryIs (t : State) (n i : Nat) (c : Ctx) (p : MapEntry → Prop) : Prop :=
  ∃ d x, getCtx t n = some d ∧ d.entries[i]? = some x ∧ p x ∧ d.activeBank = c.activeBank ∧ d.phase = c.phase

/-- A publish begins (R230, R232, R240): a PUBLISH of a source cluster that has not published yet, in a context that is idle or
collects, is noted; any other leaves it as it is, with CT_PUBLISH_BUSY in its record outside a chain. At the next intake edge after the last the lead numbers the publish one
above the newest epoch and captures, its source units fenced, or holds it while a record is 65,536 epochs behind.

A publish runs (R241 to R246, R248): an entry whose weights are all finite is quantised into its STAGE region with its CRC, and
nothing is sent before the last entry of this package is; a NaN or an infinity fails the publish. An entry that comes with its CRC
is sealed; one that does not is asked for once more and then fails the publish, as the time limit does while a layer is
unsealed. A failed publish leaves the active bank as it is. -/
def Obligations.Publishing : Prop :=
  (∀ (s : State) (n : Nat) (c : Ctx), On s → getCtx s n = some c →
      (∀ cl q, CoreReady s cl 6 q → fld q.card.w2 7 0 = n →
        ((getCl s cl).published = false → (c.phase = .idle ∨ c.phase = .collect) →
          Ends (.publish cl) s fun t => (getCl t cl).published = true ∧ (getCl t cl).exec9 = none ∧ t.units = s.units ∧
            t.mem = afterOk s cl q.card { Report.of .ok 0 with cycles := 8 } ∧
            getCtx t n = some { c with phase := .collect, pubTick := s.tk.tick }) ∧
        (((getCl s cl).published = true ∨ (c.phase ≠ .idle ∧ c.phase ≠ .collect)) →
          Ends (.publish cl) s fun t => (getCl t cl).exec9 = none ∧ getCtx t n = some c ∧
            (q.card.chain = 0 → t.mem = withRecord s cl q.card { Report.of .ctPublishBusy 0 with cycles := 8 }))) ∧
      (s.tk.phase = .step → jobIssues s c.job = true → leadPkg s c.job = s.wn.pkg → localSources s c ≠ [] → allPublished s c = true →
        c.phase = .collect → c.pubTick < s.tk.tick → (∀ k ∈ sourcePkgs c, k = s.wn.pkg ∨ k ∈ c.pubFrom) → c.lastEpoch + 1 < 2 ^ 48 →
        Ends (.ctPublishStart n) s fun t => t.mem = s.mem ∧ ∃ d, getCtx t n = some d ∧ d.lastEpoch = c.lastEpoch + 1 ∧
          d.epochPending = c.lastEpoch + 1 ∧ d.epochActive = c.epochActive ∧ d.activeBank = c.activeBank ∧
          (mustHold s c.job (c.lastEpoch + 1) = true → d.phase = .held ∧ t.units = s.units) ∧
          (mustHold s c.job (c.lastEpoch + 1) = false → d.phase = .capture ∧ d.inactiveInvalid = true ∧
            ∀ e ∈ localSources s c, ∀ k, physOf s e.srcCl e.srcUnit = some k → (getUnit t k).fenced = true))) ∧
  (∀ (s : State) (n i : Nat) (c : Ctx) (e : MapEntry), On s → getCtx s n = some c → c.entries[i]? = some e → windowOpen s 3 = true →
      (∀ rd h g, c.phase = .capture → e.captured = false → e.srcPkg = s.wn.pkg → copyOpen s c.job = false →
        ((c.entries.take i).all fun x => x.captured || decide (x.srcPkg ≠ s.wn.pkg) || decide (x.srcDie ≠ e.srcDie)) = true →
        stageRegion s c e.srcDie = some (rd, h, g) → stageOffset s c i e + e.bytes ≤ g.len →
        ((∀ l ∈ sourceLanes s e, ∀ w ∈ l, fFin w = true) →
          Ends (.ctCapture n i) s fun t =>
            t.mem = (writePlace rd h (stageOffset s c i e) (stageBytes e ((sourceLanes s e).map (quantLane e))) s).mem ∧
            (∃ d x, getCtx t n = some d ∧ d.entries[i]? = some x ∧ x.captured = true ∧ x.stageOff = stageOffset s c i e ∧
              x.crc = crc32c (stageBytes e ((sourceLanes s e).map (quantLane e))) ∧
              d.activeBank = c.activeBank ∧ d.epochActive = c.epochActive) ∧
            ((∃ k x, c.entries[k]? = some x ∧ k ≠ i ∧ x.srcPkg = s.wn.pkg ∧ x.captured = false) →
              (getCtx t n).map (·.phase) = some .capture ∧ t.out = s.out ∧ t.waiting = s.waiting ∧ t.sq = s.sq)) ∧
        ((∃ l ∈ sourceLanes s e, ∃ w ∈ l, fFin w = false) →
          Ends (.ctCapture n i) s fun t => PublishFailed s t n c .ctNonfinite)) ∧
      (c.phase = .send → e.captured = true → e.sealedOk = false → e.dstPkg = s.wn.pkg →
        ((stagedBytes c e s).1.isSome = true →
          Ends (.ctEntryReceive n i true) s fun t => EntryIs t n i c fun x => x.sealedOk = true) ∧
        (∀ ok, ok = false ∨ (stagedBytes c e s).1 = none →
          (e.resent = false → Ends (.ctEntryReceive n i ok) s fun t => t.mem = s.mem ∧
            EntryIs t n i c fun x => x.resent = true ∧ x.sealedOk = false) ∧
          (e.resent = true → Ends (.ctEntryReceive n i ok) s fun t => PublishFailed s t n c .ctSealFailed))) ∧
      ((c.phase = .capture ∨ c.phase = .send) → c.timeout ≤ c.ticks → allSealed s c = false →
        Ends (.ctPublishTimeout n) s fun t => PublishFailed s t n c .ctPublishTimeout) ∧
      (∀ data crc, (getJob s c.job).bind (·.ctx) = some n → e.srcPkg ≠ s.wn.pkg → e.dstPkg = s.wn.pkg → e.sealedOk = false →
        (c.phase = .capture ∨ c.phase = .send) → (∀ k x, c.entries[k]? = some x → x.sameSource e = true → k = i) →
        (crc32c data = crc → data.length = e.bytes →
          Ends (.contrailMsg c.job i data crc) s fun t => EntryIs t n i c fun x => x.sealedOk = true) ∧
        ((crc32c data ≠ crc ∨ data.length ≠ e.bytes) →
          (e.resent = false → Ends (.contrailMsg c.job i data crc) s fun t => t.mem = s.mem ∧
            EntryIs t n i c fun x => x.resent = true ∧ x.sealedOk = false) ∧
          (e.resent = true → Ends (.contrailMsg c.job i data crc) s fun t => PublishFailed s t n c .ctSealFailed))))

/-- What a load finds: at the intake edge an admission that is due comes before it (R260). -/
def loadBase (s : State) : State := if s.tk.phase = .step then admitDue s else s

/-- The staged image of a load can be read, `hd` up to its shards, and its header and tables are well formed up to SIG_OFFSET (R251,
R254). -/
def ImageRead (s : State) (l : Load) (e : Region) (hd : List Byte) (so : Nat) : Prop :=
  regionOf s l.rd l.region = some e ∧ so = sigOffset (fld (imgWord hd 8) 15 0) (fld (imgWord hd 8) 26 16) ∧ so + 128 ≤ e.len ∧
    readPlace s ⟨l.rd, l.region, 0⟩ 64 = .ok (hd.take 64) ∧ readPlace s ⟨l.rd, l.region, 0⟩ (so + 128) = .ok hd

/-- The number of publisher keys of the boot image in use. -/
def publisherKeys (s : State) : Nat := (s.wn.bootImage.map fun b => b.publishers.length).getD 0

/-- A load of partition `p` has ended with a status, and nothing of the library, of memory, of the units or of a job has changed
since `u`. -/
def LoadEnded (u t : State) (p : Nat) (st : Status) : Prop :=
  (getPart t p).load = none ∧ (getPart t p).loadStatus = st ∧ t.lrn = u.lrn ∧ t.mem = u.mem ∧ t.units = u.units ∧ t.jobs = u.jobs

/-- The switch and loads (R249, R250, R254 to R256): with every layer sealed the lead names the switch tick SWITCH_LEAD ahead, a member
takes the tick it hears of unless the boundary before it has begun, which takes the job down; a load request is accepted one at a
time. The load's checks end it with the status of the first that fails, in the order header and tables, publisher's key,
signature, shard of the rank, digests, room in the library; an image that passes them all, or that the library has, ends OK
and the library has it. -/
def Obligations.SwitchAndLoad : Prop :=
  (∀ (s : State), On s →
    (∀ n c, getCtx s n = some c → allSealed s c = true →
      (s.tk.phase = .drain ∨ s.tk.phase = .slot → compUp s 7 = true → jobIssues s c.job = true → leadPkg s c.job = s.wn.pkg →
        (∀ k ∈ jobPkgs s c.job, k = s.wn.pkg ∨ k ∈ c.sealFrom) →
        Ends (.ctSwitchArm n) s fun t => t.mem = s.mem ∧ ∃ d, getCtx t n = some d ∧ d.phase = .armed ∧
          d.switchTick = s.tk.tick + 1 + c.switchLead ∧ d.activeBank = c.activeBank) ∧
      (∀ k, (s.tk.tick + 1 < k ∨ (s.tk.tick < k ∧ s.tk.phase ≠ .boundary)) →
        Ends (.ctSwitchBroadcast n k) s fun t => t.mem = s.mem ∧ t.jobs = s.jobs ∧ ∃ d, getCtx t n = some d ∧ d.phase = .armed ∧
          d.switchTick = k ∧ d.activeBank = c.activeBank) ∧
      (∀ k x, (k ≤ s.tk.tick ∨ (k = s.tk.tick + 1 ∧ s.tk.phase = .boundary)) → getJob s c.job = some x → x.ending = none →
        Ends (.ctSwitchBroadcast n k) s fun t => (getJob t c.job).map (·.ending) = some (some (.faulted, .ctSwitchLate)) ∧
          t.lrn = s.lrn ∧ t.mem = s.mem)) ∧
    (∀ p v, p < 16 → windowUp s (.cores p) = true →
      ((getPart s p).load = none →
        (stagingOk s p (loadRd v) (loadRegion v) = none →
          Ends (.ctLoadReq (.cores p) v) s fun t => (getPart t p).load = some ⟨loadRd v, loadRegion v, loadRank v⟩ ∧ t.mem = s.mem ∧
            t.lrn = s.lrn) ∧
        (∀ st, stagingOk s p (loadRd v) (loadRegion v) = some st →
          Ends (.ctLoadReq (.cores p) v) s fun t => (getPart t p).load = none ∧ (getPart t p).loadStatus = st ∧ t.mem = s.mem)) ∧
      ((getPart s p).load.isSome = true →
        Ends (.ctLoadReq (.cores p) v) s fun t => (getPart t p).load = (getPart s p).load ∧
          t.out = s.out ++ [.outcome (.cores p) .ctLoadBusy] ∧ t.mem = s.mem))) ∧
  (∀ (s u : State) (p so : Nat) (l : Load) (e : Region) (hd : List Byte), On s → u = loadBase s → (getPart u p).load = some l →
    ImageRead u l e hd so →
    (∀ ok, imageOk (hd.take so) = false → Ends (.ctLoadComplete p ok) s fun t => LoadEnded u t p .ctImageInvalid) ∧
    (imageOk (hd.take so) = true →
      (∀ ok, publisherKeys u ≤ fld (imgWord hd 16) 55 48 → Ends (.ctLoadComplete p ok) s fun t => LoadEnded u t p .ctKeyUnknown) ∧
      (fld (imgWord hd 16) 55 48 < publisherKeys u →
        Ends (.ctLoadComplete p false) s (fun t => LoadEnded u t p .ctSignatureInvalid) ∧
        (shardsOf hd l.rank = [] → Ends (.ctLoadComplete p true) s fun t => LoadEnded u t p .ctShardMissing) ∧
        (∀ n bytes, shardsOf hd l.rank ≠ [] → n = ((shardsOf hd l.rank).map (·.1)).sum → so + 128 + n ≤ e.len →
          readPlace u ⟨l.rd, l.region, 0⟩ (so + 128 + n) = .ok bytes →
          ((∃ y ∈ cutShards (shardsOf hd l.rank) (bytes.drop (so + 128)), sha384 y.2 ≠ y.1.2.2) →
            Ends (.ctLoadComplete p true) s fun t => LoadEnded u t p .ctShardHash) ∧
          ((∀ y ∈ cutShards (shardsOf hd l.rank) (bytes.drop (so + 128)), sha384 y.2 = y.1.2.2) →
            ((∃ x ∈ libsOf u p, x.2.modelId = leNat ((hd.drop 24).take 16)) →
              Ends (.ctLoadComplete p true) s fun t => LoadEnded u t p .ok) ∧
            ((∀ x ∈ libsOf u p, x.2.modelId ≠ leNat ((hd.drop 24).take 16)) →
              (fitLib 64 p l.rd (so + 128 + n) u = none →
                Ends (.ctLoadComplete p true) s fun t => LoadEnded u t p .ctLibraryFull) ∧
              (∀ i h v, fitLib 64 p l.rd (so + 128 + n) u = some (i, h, v) →
                Ends (.ctLoadComplete p true) s fun t => (getPart t p).load = none ∧ (getPart t p).loadStatus = .ok ∧
                  t.mem = (writePlace l.rd h 0 bytes v).mem ∧ ∃ x, tabFind (64 * p + i) t.lrn.libs = some x ∧
                  x.modelId = leNat ((hd.drop 24).take 16) ∧ x.rank = l.rank ∧ x.bytes = n ∧ x.rd = l.rd ∧ x.region = h)))))))

/-! ## Learning -/

/-- Lines of the region that a learner die's Stratus engine gives a stack start at this byte (R271, R274). -/
def stackBase (cl bytes : Nat) (c : Card) (l : LearnSt) : Nat := (l.mbInflight * (cl % 32) + stSlot c) * bytes

/-- The card `q` may run on the Stratus engine of its die, whose region `h` gives stacks of `bytes` bytes and `frames` frames: it is
due in its list, the tier port has room, its fields pass, and it waits for no block (R273, R275, R347, R442). -/
def StratusReady (s : State) (cl op h bytes frames : Nat) (q : QCard) (l : LearnSt) (e : Region) : Prop :=
  CoreReady s cl op q ∧ tierFree s cl = true ∧ canPay s (clOwnerPart s cl) (1200 * stLength s cl) = true ∧
    learnOf s q.card.job = some l ∧
    l.stratus.find? (fun x => decide (x.1 = clDie cl)) = some (clDie cl, h, bytes, frames) ∧
    stFields q.card l.mbInflight = false ∧ regionOf s (homeRd (clDie cl)) h = some e ∧
    stallOn q.card.job (clDie cl) (fun b => match b with
      | .dir _ => true
      | .stratus _ _ _ => decide (op = 7)
      | _ => false) s = none

/-- What R275 and R274 make of the card: a failure, or the stack's new frames and the first line it reads or writes. -/
def stackStep (s : State) (cl bytes frames : Nat) (q : QCard) (l : LearnSt) (e : Region) : StOut :=
  stackOut q.card (stackOf s cl (stSlot q.card)) (min bytes (e.len - stackBase cl bytes q.card l)) frames

/-- The operation went to the tier port with status `st` and no effect on any stack or on memory. -/
def StratusEnded (s t : State) (cl : Nat) (q : QCard) (st : Status) : Prop :=
  (getCl t cl).exec9 = none ∧ t.lrn = s.lrn ∧ t.mem = s.mem ∧ t.units = s.units ∧
    ∃ r, (getCl t cl).tier = (getCl s cl).tier ++ [r] ∧ r.card = q.card ∧ r.status = st ∧ r.writes = []

/-- The operation went to the tier port as `w` left it, and the stack of the card's slot is `fs`. -/
def StratusMoved (s t : State) (cl : Nat) (q : QCard) (fs : List FrameEnt) (up : MemUpset) (w : Run × State) : Prop :=
  (getCl t cl).exec9 = none ∧ t.units = s.units ∧ t.mem = w.2.mem ∧ stackOf t cl (stSlot q.card) = fs ∧
    ∃ l, (getCl t cl).tier = l ++ [w.1] ∧ l.map (·.card) = (getCl s cl).tier.map (·.card) ∧
      (up.edc = false → l = (getCl s cl).tier)

/-- Stratus cards at the tier port (R272 to R277). A card that fails a check of R275 ends with its status, moves nothing and takes
the job down; one on a FAILED channel, or a push of an uncorrectable pool word, moves nothing either; one of LINES 0 moves no line
but changes the stack; any other moves its lines between the stack's place and the pool. A push with NEW puts one frame
with the card's fields on top of the stack. -/
def Obligations.StratusCards : Prop :=
  (∀ (s : State) (cl op h bytes frames : Nat) (q : QCard) (l : LearnSt) (e : Region) (c : MemUpset → Instr), On s →
      ((op, c) = (7, Instr.stPush cl) ∨ (op, c) = (8, fun up => Instr.stPop ⟨cl, up⟩) ∨
        (op, c) = (9, fun up => Instr.stRead ⟨cl, up⟩)) →
      StratusReady s cl op h bytes frames q l e →
      (∀ st, stackStep s cl bytes frames q l e = .fail st → ∀ up, Ends (c up) s fun t => StratusEnded s t cl q st ∧
        ∀ x, getJob s q.card.job = some x → (getJob t q.card.job).any (·.ending.isSome) = true) ∧
      (∀ fs line, stackStep s cl bytes frames q l e = .done fs line → ∀ up,
        (stLines q.card = 0 → Ends (c up) s fun t => (getCl t cl).exec9 = none ∧ stackOf t cl (stSlot q.card) = fs ∧ t.mem = s.mem ∧
          ∃ r, (getCl t cl).tier = (getCl s cl).tier ++ [r] ∧ r.card = q.card ∧ r.status = .ok ∧ r.writes = []) ∧
        (stLines q.card ≠ 0 →
          (op = 7 ∧ (poolStop up (stLines q.card)).isSome = true → Ends (c up) s fun t => StratusEnded s t cl q .poolUncorrectable) ∧
          (¬(op = 7 ∧ (poolStop up (stLines q.card)).isSome = true) →
            (anyFailed s (regionChans (homeRd (clDie cl)) e (stackBase cl bytes q.card l + 64 * line) (stLines q.card)) = true →
              Ends (c up) s fun t => StratusEnded s t cl q .mtChannelFailed) ∧
            (anyFailed s (regionChans (homeRd (clDie cl)) e (stackBase cl bytes q.card l + 64 * line) (stLines q.card)) = false →
              Ends (c up) s fun t => StratusMoved s t cl q fs up
                (if op = 7 then
                  writeLines q (homeRd (clDie cl)) e h (stackBase cl bytes q.card l + 64 * line)
                    (memBytes s.mem (poolKey cl (64 * stLine q.card)) (64 * stLines q.card)) false up
                    (setStack cl (stSlot q.card) fs (TierTaken s cl (stLength s cl)))
                else readLines cl q (homeRd (clDie cl)) e (stackBase cl bytes q.card l + 64 * line) (stLine q.card)
                    (stLines q.card) up (setStack cl (stSlot q.card) fs (TierTaken s cl (stLength s cl))))))))) ∧
  (∀ (c : Card) (fs out : List FrameEnt) (room frames line : Nat), c.opcode = 7 → stFlag c = true →
      stackOut c fs room frames = .done out line →
      line = stackTopLine fs ∧ 64 * (line + stLines c) ≤ room ∧ fs.length < frames ∧ (stStart c = true → fs = []) ∧
        out = fs ++ [⟨fld c.w3 15 0, fld c.w3 31 16, stKind c, false, stPin c, line, stLines c⟩])

/-- The pool after an EXP_TAKE of `n` records: a header line, then the records that are not stale. -/
def takeImage (s : State) (r : ExpRing) (n : Nat) : List Byte :=
  takeHead r n (n - (keptRecs s r n).length) ++ (keptRecs s r n).flatMap fun i =>
    match readPlace s (recPlace r i) 64 with
    | .ok b => b
    | .error _ => []

/-- Memory after an EXP_TAKE of `n` records, but for a completion record: the lines in the pool, and the ring's header. -/
def takenState (s : State) (cl n : Nat) (q : QCard) (r : ExpRing) : State :=
  expHeader (fld q.card.w2 7 0) (modRing (fld q.card.w2 7 0) (fun x => ExpRing.take s x n)
    (putMem (bytesAt (poolKey cl (64 * expLine q.card)) (takeImage s r n)) s))

/-- Experience rings (R289 to R292). TEACH_DONE fills the records its entries name, or none where the pool word it needs is
uncorrectable. EXP_TAKE of the ring's consumer consumes the records it scans and puts a header line and those that are not
stale into the pool. An annotation waits in its partition's FIFO, or is refused with NO_CREDIT where no credit is left. A record
that has waited its limit for a teacher or a reward becomes READY at a boundary, counted. -/
def Obligations.ExperienceRings : Prop :=
  ∀ (s : State), On s →
    (∀ cl q r t1, CoreReady s cl 10 q → getRing s (fld q.card.w2 7 0) = some r → r.job = q.card.job →
      teachEntries (fld q.card.w2 7 0) (jobTopk s r.job) (teachCount q.card) (poolKey cl (64 * expLine q.card)) (clear9 cl s)
        = (.ok, t1) →
      (Ends (.teachDone cl true) s fun t => (getCl t cl).exec9 = none ∧ t.lrn = s.lrn ∧
        (q.card.chain = 0 → t.mem = withRecord s cl q.card
          { Report.of .poolUncorrectable 0 with cycles := 8 + teachLines s q.card })) ∧
      Ends (.teachDone cl false) s fun t => (getCl t cl).exec9 = none ∧ t.lrn = t1.lrn ∧ t.jobs = t1.jobs ∧ t.units = s.units ∧
        t.mem = afterOk t1 cl q.card { Report.of .ok 0 with cycles := 8 + teachLines s q.card }) ∧
    (∀ cl q r, CoreReady s cl 11 q → getRing s (fld q.card.w2 7 0) = some r → r.job = q.card.job → r.consumer = cl →
      (∀ i ∈ keptRecs s r (takeCount s q.card), ∃ b, readPlace s (recPlace r i) 64 = .ok b) →
      Ends (.expTake cl) s fun t => (getCl t cl).exec9 = none ∧ t.units = s.units ∧
        getRing t (fld q.card.w2 7 0) = some (ExpRing.take s r (takeCount s q.card)) ∧
        t.mem = afterOk (takenState s cl (takeCount s q.card) q r) cl q.card
          { Report.of .ok 0 with cycles := 16 + takeCount s q.card }) ∧
    (∀ p w0 w1 w2 w3, (getPart s p).annotCredits ≠ 0 →
      Ends (.expAnnotate p w0 w1 w2 w3) s fun t => (getPart t p).annots = (getPart s p).annots ++ [(w0, w1, w2, w3)] ∧
        (getPart t p).annotCredits + 1 = (getPart s p).annotCredits ∧ t.mem = s.mem ∧ t.lrn = s.lrn ∧ t.jobs = s.jobs) ∧
    (∀ p w0 w1 w2 w3, (getPart s p).annotCredits = 0 →
      exec (.expAnnotate p w0 w1 w2 w3) s = .next { s with out := s.out ++ [.postRefused .noCredit 2 p] }) ∧
    (∀ k idx r l x, getRing s k = some r → learnOf s r.job = some l → r.recs[ago64 idx r.consume]? = some x →
      s.tk.phase = .boundary → x.2.2.2.2.1 = false → x.2.2.2.2.2 = false → ctrVal s .ctExpNoteach r.part < 2 ^ 64 - 2 →
      ctrVal s .ctExpNoreward r.part < 2 ^ 64 - 2 →
      (x.1 = 1 → l.needTeach = true → x.2.2.2.1 + l.teachTimeout ≤ s.tk.tick →
        Ends (.teachTimeout k idx) s fun t => ctrVal t .ctExpNoteach r.part = ctrVal s .ctExpNoteach r.part + 1 ∧ t.mem = s.mem ∧
          ∃ r' x', getRing t k = some r' ∧ r'.recs[ago64 idx r.consume]? = some x' ∧ x'.2.2.2.2.1 = true ∧ r'.consume = r.consume) ∧
      (x.1 = 3 → l.needReward = true → x.2.2.2.1 + l.rewardTimeout ≤ s.tk.tick →
        Ends (.rewardTimeout k idx) s fun t => ctrVal t .ctExpNoreward r.part = ctrVal s .ctExpNoreward r.part + 1 ∧ t.mem = s.mem ∧
          ∃ r' x', getRing t k = some r' ∧ r'.recs[ago64 idx r.consume]? = some x' ∧ x'.2.2.2.2.1 = true ∧ r'.consume = r.consume))

/-! ## Update -/

/-- The LS card at the head of logical unit `u`'s queue, whose own unit is `k`, may run on unit `host`: its own where that is
AVAILABLE with no relief card waiting for it, the neighbour where it is SUSPECT or RETIRED (R87, R90, R107, R111, R113, R443). -/
def LsReady (s : State) (cl u k host : Nat) (q : QCard) (rest : List QCard) : Prop :=
  (getQ (getCl s cl) u).cards = q :: rest ∧ isLs q.card = true ∧ physOf s cl u = some k ∧ engineIdle s cl u = true ∧
    waitsMet (getCl s cl) q = true ∧ q.card.epoch = (getCl s cl).epoch ∧ (getUnit s k).refill = none ∧
    (((getUnit s k).state = .available ∧ reliefWaits s cl k = false ∧ host = k) ∨
      (((getUnit s k).state = .suspect ∨ (getUnit s k).state = .retired) ∧ (getUnit s k).marked = false ∧
        neighbour s cl u = some host)) ∧
    hostIdle s cl host = true ∧ canPay s q.card.part (3072 * lsLength q.card) = true

/-- The LS card has left its queue and runs on unit `host` with the writes `ws`, which are not visible yet; its credit is not back,
and its partition has paid. -/
def LsIssued (s t : State) (cl u host : Nat) (q : QCard) (rest : List QCard) (st : Status) (ws : List (Nat × Byte)) : Prop :=
  tabFind u (getCl t cl).runs
      = some { runOf q with status := st, cycles := lsLength q.card, host := host, writes := ws } ∧
    (getQ (getCl t cl) u).cards = rest ∧ (getQ (getCl t cl) u).credits = (getQ (getCl s cl) u).credits ∧
    (getPart t q.card.part).meter = (getPart s q.card.part).meter + 3072 * lsLength q.card ∧ t.mem = s.mem ∧ t.jobs = s.jobs ∧
    (∀ n, getUnit t n = getUnit s n ∨ (n = host ∧ getUnit t n = { getUnit s n with haze := false })) ∧
    ∀ c, c ≠ cl → getCl t c = getCl s c

/-- LS_GET and LS_PUT issue on their unit, or on its neighbour while it is SUSPECT or RETIRED, with what they move; it becomes
visible at retirement (R87, R90, R301, R302). An LS_GET that meets an uncorrectable word runs with that status. LS_PUT waits
for a Contrail capture of its unit and for blocks not yet copied (R241, R347). -/
def Obligations.StoreCardsIssue : Prop :=
  ∀ (s : State) (cl u k host : Nat) (q : QCard) (rest : List QCard), On s → LsReady s cl u k host q rest →
    (q.card.opcode = 12 → ∀ up, Ends (.lsGet cl u up) s fun t => LsIssued s t cl u host q rest
      (if up.uncorrectable then .ckStoreUncorrectable else .ok) (lsGetWrites s cl k q.card)) ∧
    (q.card.opcode = 13 → (getUnit s k).fenced = false → stallOn q.card.job (clDie cl) (lsBlocks cl q.card) s = none →
      Ends (.lsPut cl u) s fun t => LsIssued s t cl u host q rest .ok (lsPutWrites s cl k q.card))

/-- A norm record's landing at the posters `l` of a step: memory with the line at each RESULT (R311). -/
def normLanded (line : List Byte) (l : List Poster) (m : List Host.Cell) : List Host.Cell :=
  l.foldl (fun m p => memPuts m (bytesAt (poolKey p.cl (64 * p.line)) line)) m

/-- The end of an update step (R307, R310, R311). UPD_DONE notes its cluster once a step; a second ends UPD_DONE_BUSY.
NORM_POST adds its partials and waits for the result; one with a partial it may not post ends UPD_NORM_LEAF, one whose partials
lie in an uncorrectable pool word POOL_UNCORRECTABLE, and neither posts any. With every partial there, S and c land once
in the step at each poster, whose chain gets an arrival. A due advance at a boundary steps every group, rewrites the schedule
tables, raises J and uses up every UPD_DONE. -/
def Obligations.UpdateStep : Prop :=
  ∀ (s : State), On s →
    (∀ cl q, CoreReady s cl 15 q →
      ((getCl s cl).updDone = false → Ends (.updDone cl) s fun t => (getCl t cl).updDone = true ∧ (getCl t cl).exec9 = none ∧
        t.units = s.units ∧ t.mem = afterOk s cl q.card { Report.of .ok 0 with cycles := 8 } ∧
        ∀ c, c ≠ cl → getCl t c = getCl s c) ∧
      ((getCl s cl).updDone = true → q.card.chain = 0 → Ends (.updDone cl) s fun t => (getCl t cl).updDone = true ∧
        (getCl t cl).exec9 = none ∧ t.units = s.units ∧ t.jobs = s.jobs ∧
        t.mem = withRecord s cl q.card { Report.of .updDoneBusy 0 with cycles := 8 })) ∧
    (∀ cl q u x, CoreReady s cl 14 q → getJob s q.card.job = some x → updOf s q.card.job = some u →
      (q.card.chain = 0 → Ends (.normPost cl true) s fun t => (getCl t cl).exec9 = none ∧ t.jobs = s.jobs ∧ t.units = s.units ∧
        t.mem = withRecord s cl q.card { Report.of .poolUncorrectable 0 with cycles := 8 + (npCount q.card + 3) / 4 }) ∧
      (leavesOk s q.card.job cl u.partials (npPartials s cl q.card) = false → q.card.chain = 0 →
        Ends (.normPost cl false) s fun t => (getCl t cl).exec9 = none ∧ t.jobs = s.jobs ∧ t.units = s.units ∧
          t.mem = withRecord s cl q.card { Report.of .updNormLeaf 0 with cycles := 8 + (npCount q.card + 3) / 4 }) ∧
      (leavesOk s q.card.job cl u.partials (npPartials s cl q.card) = true →
        (groupOf s q.card.job u.normGroup).any (fun g => g.aborted.contains (normSeq x.j)) = false →
        Ends (.normPost cl false) s fun t => (getCl t cl).exec9 = none ∧ t.units = s.units ∧
          (updOf t q.card.job).map (·.partials) = some (u.partials ++ npPartials s cl q.card) ∧
          (updOf t q.card.job).map (·.posters)
            = some (u.posters ++ [⟨cl, q.card.chain, q.ord.use, npResult q.card, s.tk.tick⟩]) ∧
          t.mem = afterOk s cl q.card { Report.of .ok 0 with cycles := 8 + (npCount q.card + 3) / 4 })) ∧
    (∀ j u remote rootTick v, updOf s j = some u → u.normSent = false → (u.posters ≠ [] ∨ normRootHere s j = true) →
      globalNorm u.tensors (u.partials ++ remote) = some v →
      (∀ p ∈ u.posters, p.chain ≠ 0 → tabGet 0 (getCl s p.cl).arrivals p.chain + u.posters.length < 65535) →
      Ends (.normResult j ⟨remote, rootTick⟩) s fun t =>
        (updOf t j).map (·.posters) = some [] ∧ (updOf t j).map (·.normSent) = some true ∧ t.units = s.units ∧
        t.mem = normLanded (normLine v (clipFactor u.clip v).1 (clipFactor u.clip v).2
          (if normRootHere s j = true then s.tk.tick else rootTick)) u.posters s.mem ∧
        ∀ c ch, ch ≠ 0 → tabGet 0 (getCl t c).arrivals ch = tabGet 0 (getCl s c).arrivals ch
          + (u.posters.filter fun p => decide (p.cl = c) && decide (p.chain = ch)).length) ∧
    (∀ j u x, s.tk.phase = .boundary → compUp s 7 = true → advanceDue s j = true → updOf s j = some u → getJob s j = some x →
      Ends (.updStepAdvance j) s fun t => (getJob t j).map (·.j) = some (next64 x.j) ∧
        (updOf t j).map (·.groups) = some (u.groups.map Group.next) ∧ (updOf t j).map (·.partials) = some [] ∧
        (updOf t j).map (·.posters) = some [] ∧ (updOf t j).map (·.normSent) = some false ∧
        t.mem = (writeSched j (modUpd j (fun y => { y with groups := u.groups.map Group.next }) s)).mem ∧
        ∀ cl, (getCl s cl).owner.any (fun o => decide (o.2.2 = j)) = true → (getCl t cl).updDone = false)

/-! ## Squall -/

/-- The reports of the members of a collective in rank order, of this package's own members and of those received (R330). -/
def roundOf (s : State) (j gi q : Nat) (g : SqGroup) (reports : List CollReport) : List (Option CollReport) :=
  (List.range g.members.length).map fun r => (localReports s j g gi q ++ reports).find? fun b => decide (b.rank = r)

/-- A member's card of a collective is with the Squall engine, and the collective is set up (R328, R330). -/
def CollRuns (s : State) (h : Head) (g : SqGroup) (x : Coll) (r cl : Nat) (run : Run) : Prop :=
  groupOf s h.job h.group = some g ∧ findColl s h.job h.group h.seq = some x ∧ x.setUp = true ∧
    ((localRanks s h.job g).find? fun m => decide (m.1 = r)) = some (r, cl) ∧
    ((collIdx (getCl s cl) h.group h.seq).bind fun k => (getCl s cl).colls[k]?) = some run

/-- A chunk of a rank with the bytes `bs` is held by the collective, or, where it was the last that a node here waited for, the
result of the canonical tree is (R331). -/
def ChunkHeld (s t : State) (h : Head) (g : SqGroup) (x : Coll) (srank : Nat) (bs : List Byte) : Prop :=
  ∃ y, findColl t h.job h.group h.seq = some y ∧
    (reduces x.kind = false → (h.chunk, srank, bs) ∈ y.inputs ∧ t.mem = s.mem) ∧
    (reduces x.kind = true → nodeHere s x g h.chunk = true → (x.inNet = true → t.mem = s.mem) ∧
      match treeNode x.op x.fmt g.members.length
          (givenOf s { x with inputs := x.inputs ++ [(h.chunk, srank, bs)] } g h.chunk) 17 0 with
      | none => (h.chunk, srank, bs) ∈ y.inputs
      | some out => (h.chunk, out) ∈ y.results)

/-- A collective (R328 to R330): a member's card takes a credit and goes to the Squall engine, or ends at posting where the
collective has aborted. Once the report of every member is there, the collective is set up where they agree and no V kind passes
a capacity, whose counts then come to the members here; else it aborts, for a difference with cause SQ_MISMATCH where no other collective falls with it.

Chunks (R330, R331, R333): inside the SQUALL window a member's own chunk is taken once from its SRC; one that comes from
another package is taken where a node here, or a member, waits for it; a reducing kind forms its result with the last. A
result chunk lands once in a member's DST. -/
def Obligations.Collectives : Prop :=
  (∀ (s : State) (cl r : Nat) (q : QCard) (g : SqGroup), On s → CoreReady s cl 16 q → (getCl s cl).collCredits ≠ 0 →
      groupOf s q.card.job (clGroup q.card) = some g → rankOf s q.card.job g cl = some r →
      (g.aborted.contains (clSeq q.card) = false →
        Ends (.coll cl) s fun t => (getCl t cl).exec9 = none ∧
          (getCl t cl).colls = (getCl s cl).colls ++ [{ runOf q with issueTick := s.tk.tick, collSeq := clSeq q.card }] ∧
          (getCl t cl).collCredits + 1 = (getCl s cl).collCredits ∧ t.mem = s.mem ∧ t.units = s.units ∧
          (findColl t q.card.job (clGroup q.card) (clSeq q.card)).any (fun y => y.posted.contains r) = true) ∧
      (g.aborted.contains (clSeq q.card) = true → q.card.chain = 0 →
        Ends (.coll cl) s fun t => (getCl t cl).exec9 = none ∧ (getCl t cl).colls = (getCl s cl).colls ∧
          t.mem = withRecord s cl q.card { Report.of .sqCollAborted 0 with cycles := 8 } ∧ t.units = s.units)) ∧
  (∀ (s : State) (j gi : Nat) (g : SqGroup) (x : Coll) (reports : List CollReport) (grants : Bool) (a : CollReport)
      (rs : List CollReport), On s → groupOf s j gi = some g →
      s.sq.colls.find? (fun x => decide (x.job = j) && decide (x.group = gi) && !x.setUp) = some x →
      roundOf s j gi x.seq g reports = (a :: rs).map some →
      ((a :: rs).all (reportsAgree a) = true → overCap a.kind (a :: rs) = false →
        Ends (.collSetup j gi reports grants) s fun t => t.jobs = s.jobs ∧ t.units = s.units ∧
          t.mem = (if a.kind = 5 ∨ a.kind = 6 then
            writeCounts j gi x.seq g a.kind ((a :: rs).map fun b => (b.rank, b.counts)) s else s).mem ∧
          (findColl t j gi x.seq).any (fun y => y.setUp && decide (y.counts = (a :: rs).map fun b => (b.rank, b.counts)))
            = true) ∧
      (g.aborted.contains x.seq = false → (a :: rs).all (reportsAgree a) = false →
        Ends (.collSetup j gi reports grants) s fun t => (groupOf t j gi).any (fun y => y.aborted.contains x.seq) = true ∧
          findColl t j gi x.seq = none ∧
          (brokenColls (abortColl j gi x.seq .sqMismatch s) = [] →
            (getPart t (jobPart j)).abortLast.cause = .sqMismatch)) ∧
      (g.aborted.contains x.seq = false → (a :: rs).all (reportsAgree a) = true → overCap a.kind (a :: rs) = true →
        Ends (.collSetup j gi reports grants) s fun t => (groupOf t j gi).any (fun y => y.aborted.contains x.seq) = true ∧
          findColl t j gi x.seq = none)) ∧
  (∀ (s : State) (h : Head) (data bs : List Byte) (g : SqGroup) (x : Coll) (cl : Nat) (run : Run) (p : Piece), On s →
      CollRuns s h g x h.srank cl run → g.aborted.contains h.seq = false → x.retired.contains h.srank = false →
      (collPieces x g.members.length h.srank)[h.chunk]? = some p → x.sent.contains (h.chunk, h.srank) = false →
      windowOpen s 4 = true → jobIssues s h.job = true → windowRoom x g h.chunk = true →
      srcBytes s cl run.card p.src p.len = .ok bs →
      Ends (.chunkIn h data) s fun t => t.jobs = s.jobs ∧ t.units = s.units ∧
        (findColl t h.job h.group h.seq).any (fun y => y.sent.contains (h.chunk, h.srank)) = true ∧
        (reduces x.kind = false ∨ nodeHere s x g h.chunk = true → ChunkHeld s t h g x h.srank bs)) ∧
  (∀ (s : State) (h : Head) (data : List Byte) (g : SqGroup) (x : Coll) (p : Piece), On s →
      groupOf s h.job h.group = some g → findColl s h.job h.group h.seq = some x → x.setUp = true →
      (localRanks s h.job g).find? (fun m => decide (m.1 = h.srank)) = none → g.aborted.contains h.seq = false →
      (localRanks s h.job g).any (fun m => !x.retired.contains m.1) = true →
      (collPieces x g.members.length h.srank)[h.chunk]? = some p → inputDue s x g h.srank h.chunk = true →
      windowRoom x g h.chunk = true → h.crcOk = true →
      Ends (.chunkIn h data) s fun t => t.jobs = s.jobs ∧ t.units = s.units ∧
        ChunkHeld s t h g x h.srank (sliceZ data 0 p.len)) ∧
  (∀ (s : State) (h : Head) (data : List Byte) (g : SqGroup) (x : Coll) (r cl : Nat) (run : Run) (p : Piece), On s →
      CollRuns s h g x r cl run →
      (collPieces x g.members.length (if reduces x.kind then r else h.srank))[h.chunk]? = some p → p.goesTo r = true →
      (formedHere s x g h = true → (heldResult x h).isSome = true) → x.landed.contains (landKey x h.srank h.chunk, r) = false →
      h.crcOk = true →
      Ends (.chunkOut r h data) s fun t => t.jobs = s.jobs ∧ t.units = s.units ∧
        t.mem = (dstWrite cl run.card p.dst (((heldResult x h).getD (sliceZ data 0 p.len)).take p.len) s).mem ∧
        (findColl t h.job h.group h.seq).any (fun y => y.landed.contains (landKey x h.srank h.chunk, r)) = true)

/-- Aborts, time limits and poison (R310, R334 to R338): an abort ends the collective on this package and is recorded, where no
other collective falls with it; a second of the same changes nothing. At a boundary, a collective that has not ended TIMEOUT ticks
after a member's posting aborts, and so does a norm reduction past its limit. A poison is recorded with its own status, and the
step it names is to be rolled back. -/
def Obligations.AbortAndPoison : Prop :=
  ∀ (s : State) (j gi seq : Nat), On s →
    (∀ g, groupOf s j gi = some g →
      (g.aborted.contains seq = false →
        Ends (.abort j gi seq) s fun t => (groupOf t j gi).any (fun y => y.aborted.contains seq) = true ∧
          findColl t j gi seq = none ∧
          (brokenColls (abortHere j gi seq .ok s) = [] →
            (getPart t (jobPart j)).abortLast = ⟨j, gi, seq % 2 ^ 32, .sqCollAborted, .ok, s.tk.tick % 2 ^ 32⟩)) ∧
      (g.aborted.contains seq = true → brokenColls s = [] → exec (.abort j gi seq) s = .next s)) ∧
    (∀ x chunk step, getJob s j = some x →
      Ends (.poison j gi seq chunk step) s fun t =>
        (getPart t (jobPart j)).abortLast = ⟨j, gi, seq, .sqPoison, .ok, s.tk.tick % 2 ^ 32⟩ ∧ t.mem = s.mem ∧
        t.clusters = s.clusters ∧ (getJob t j).any (fun y => y.spoiled.contains (fullStep x.j step)) = true) ∧
    (s.tk.phase = .boundary →
      (∀ cl r g,
        (getCl s cl).colls.find? (fun r => decide (clGroup r.card = gi) && decide (r.issueTick + clTimeout r.card ≤ s.tk.tick))
          = some r →
        groupOf s r.card.job gi = some g → g.aborted.contains r.collSeq = false →
        Ends (.sqTimeout cl gi) s fun t => (groupOf t r.card.job gi).any (fun y => y.aborted.contains r.collSeq) = true ∧
          findColl t r.card.job gi r.collSeq = none ∧
          (brokenColls (abortColl r.card.job gi r.collSeq .sqTimeout s) = [] →
            (getPart t (jobPart r.card.job)).abortLast.cause = .sqTimeout)) ∧
      (∀ cl step g,
        (getCl s cl).colls.find? (fun r => decide (clGroup r.card = gi) && decide (r.issueTick + clTimeout r.card ≤ s.tk.tick))
          = none →
        normLate s cl gi = some (j, step) → groupOf s j gi = some g → g.aborted.contains (normSeq step) = false →
        Ends (.sqTimeout cl gi) s fun t => (groupOf t j gi).any (fun y => y.aborted.contains (normSeq step)) = true ∧
          (updOf t j).map (·.posters) = some []))

/-- A transfer lands whole: its lines are in the destination's pool and its chain has one arrival more (R127, R326). -/
def TileLanded (s t : State) (h : Head) (data : List Byte) : Prop :=
  t.mem = memPuts s.mem (bytesAt (poolKey (32 * h.die + h.cluster) (64 * h.dst)) (sliceZ data 0 (64 * h.lines))) ∧
    tabGet 0 (getCl t (32 * h.die + h.cluster)).arrivals h.chain
      = tabGet 0 (getCl s (32 * h.die + h.cluster)).arrivals h.chain + 1 ∧ t.units = s.units

/-- The lines that a transfer's arrival brings: those of the first transfer of its path under way inside the package, or, of
none under way there, those that came (R317). -/
def Brings (s : State) (h : Head) (came data : List Byte) : Prop :=
  (s.sq.tiles.findIdx? (fun t => sameTile h t.head) = none ∧ data = came) ∨
    ∃ i x, s.sq.tiles.findIdx? (fun t => sameTile h t.head) = some i ∧ s.sq.tiles[i]? = some x ∧
      (s.sq.tiles.take i).any (sameFlow x) = false ∧ data = x.data

/-- Every message of a transfer is sent to a package, or waits there for a port or credits (R320, R325). -/
def Sends (t : State) (pkg type : Nat) (h : Head) (data : List Byte) : Prop :=
  ∀ c ∈ messagesOf h data, Out.msg pkg type c.1 c.2.flatten ∈ t.out ∨
    ∃ w ∈ t.waiting, w.pkg = pkg ∧ w.out = Out.msg pkg type c.1 c.2.flatten

/-- Tiles and remote reads (R127, R170, R325, R326). A tile card issues, and its lines are under way in this package where they
go to it; with an uncorrectable word among them nothing goes. A transfer lands and counts an arrival where its CRC passed and,
in a group, its SEQ is the next; else a plain one takes its job down and a grouped one raises poison. A read of another
package is answered with the lines, or with a refusal. -/
def Obligations.TilesAndReads : Prop :=
  ∀ (s : State), On s →
    (∀ cl q rest, q.card.opcode = 0 → HeadReady s cl 15 q rest (600 * (8 + tsLines q.card)) →
      (Ends (.tileSender cl true) s fun t => t.sq = s.sq ∧ t.mem = s.mem ∧ t.jobs = s.jobs ∧ (getQ (getCl t cl) 15).cards = rest ∧
        tabFind 15 (getCl t cl).runs
          = some { runOf q with cycles := 8 + tsLines q.card, status := .poolUncorrectable }) ∧
      Ends (.tileSender cl false) s fun t => (getQ (getCl t cl) 15).cards = rest ∧ t.mem = s.mem ∧ t.units = s.units ∧
        t.jobs = s.jobs ∧ tabFind 15 (getCl t cl).runs = some { runOf q with cycles := 8 + tsLines q.card } ∧
        ((getJob s q.card.job).any (fun x => tsDropped x q.card) = false → tsPkg q.card = s.wn.pkg →
          t.sq.tiles = s.sq.tiles ++ [⟨clDie cl, tileHead s cl q.card,
            memBytes s.mem (poolKey cl (64 * tsSrc q.card)) (64 * tsLines q.card)⟩])) ∧
    (∀ h came data cls p x, Brings s h came data → (getCl s (32 * h.die + h.cluster)).owner = some (cls, p, h.job) →
      getJob s h.job = some x →
      (tabGet 0 (getCl s (32 * h.die + h.cluster)).arrivals h.chain < 65535 → h.crcOk = true →
        (h.group = 0 → Ends (.tileArrival h came) s fun t => TileLanded s t h data ∧ t.jobs = s.jobs) ∧
        (∀ g, h.group ≠ 0 → groupOf s h.job h.group = some g → h.seq = tabGet 0 g.tileSeqs (2048 * h.srank + (32 * h.die + h.cluster)) →
          Ends (.tileArrival h came) s fun t => TileLanded s t h data ∧
            (groupOf t h.job h.group).any (fun y => decide
              (tabGet 0 y.tileSeqs (2048 * h.srank + (32 * h.die + h.cluster)) = (h.seq + 1) % 2 ^ 32)) = true)) ∧
      (h.group = 0 → h.crcOk = false →
        Ends (.tileArrival h came) s fun t => (getJob t h.job).any (·.ending.isSome) = true ∧ t.units = s.units) ∧
      (∀ g, h.group ≠ 0 → groupOf s h.job h.group = some g →
        (h.crcOk = false ∨ h.seq ≠ tabGet 0 g.tileSeqs (2048 * h.srank + (32 * h.die + h.cluster))) →
        Ends (.tileArrival h came) s fun t => t.mem = s.mem ∧ t.clusters = s.clusters ∧
          (getPart t (jobPart h.job)).abortLast = ⟨h.job, h.group, h.seq, .sqPoison, .ok, s.tk.tick % 2 ^ 32⟩ ∧
          (getJob t h.job).any (fun y => y.spoiled.contains (fullStep x.j h.step)) = true)) ∧
    (∀ pkg h cls addr, Ends (.memReq pkg h cls addr) s fun t => t.mem = s.mem ∧ t.jobs = s.jobs ∧ t.clusters = s.clusters ∧
      (∀ bs, serveRead s h cls addr = .ok bs →
        Sends t pkg 4 { h with step := ((getJob s h.job).map (·.j)).getD 0 % 2 ^ 32 } bs) ∧
      (∀ st, serveRead s h cls addr = .error st →
        Sends t pkg 4 { h with lines := 0, dst := (statusCode st).toNat,
                               step := ((getJob s h.job).map (·.j)).getD 0 % 2 ^ 32 } []))

/-- Frames of a port that a received frame's ACK leaves unacknowledged (R324). -/
def unackedAfter (s : State) (n : Nat) (f : Frame) : List Sent := (getPort s n).unacked.filter fun u => !seqBefore u.seq f.ack

/-- The link layer of a port that receives, with no message waiting for a port or credits (R320, R323, R324). A DATA frame in
sequence is acknowledged with its credits; one out of sequence is answered with NAK; a frame whose check fails is only counted,
and one of another TYPE discarded. The frames that ACK names are gone; a NAK or a time limit resends those left, or takes the port
DOWN where one has been resent 8 times or nothing was acknowledged for 1 ms. A DOWN port that has retrained is UP
and its frames go out again. -/
def Obligations.LinkFrames : Prop :=
  ∀ (s : State) (n : Nat) (f : Frame), On s → s.waiting = [] →
    (portLive s n = true → frameOk s n f = true →
      (f.type = 0 → f.seq = (getPort s n).rxSeq → Ends (.sqFrameRx n f) s fun t =>
        (getPort t n).rxSeq = ((getPort s n).rxSeq + 1) % 2 ^ 24 ∧ (getPort t n).unacked = unackedAfter s n f ∧ t.mem = s.mem ∧
          t.jobs = s.jobs ∧ answerFrame t n 1 f.srcMac f.vl f.flits ∈ t.out) ∧
      (f.type = 0 → f.seq ≠ (getPort s n).rxSeq → Ends (.sqFrameRx n f) s fun t =>
        (getPort t n).rxSeq = (getPort s n).rxSeq ∧ (getPort t n).unacked = unackedAfter s n f ∧ t.mem = s.mem ∧
          answerFrame t n 2 f.srcMac 0 0 ∈ t.out) ∧
      (f.type = 1 → Ends (.sqAck n f) s fun t => (getPort t n).unacked = unackedAfter s n f ∧
        (getPort t n).rxSeq = (getPort s n).rxSeq ∧ (getPort t n).state = (getPort s n).state ∧ t.mem = s.mem ∧ t.out = s.out) ∧
      (f.type = 2 →
        ((unackedAfter s n f).any (fun u => decide (8 ≤ u.resent + 1)) = false → Ends (.sqNak n f) s fun t =>
          (getPort t n).state = (getPort s n).state ∧ t.mem = s.mem ∧
          (getPort t n).unacked = (unackedAfter s n f).map (fun u => { u with resent := u.resent + 1 }) ∧
          ∀ u ∈ unackedAfter s n f, dataFrame t n u ∈ t.out) ∧
        ((unackedAfter s n f).any (fun u => decide (8 ≤ u.resent + 1)) = true → Ends (.sqNak n f) s fun t =>
          (getPort t n).state = .down ∧ t.mem = s.mem)) ∧
      (2 < f.type → exec (.sqFrameRx n f) s = .next s)) ∧
    (portLive s n = true → frameOk s n f = false → ctrVal s .sqLinkErr n < 2 ^ 64 - 2 →
      ∀ c, (c, f.type) ∈ [(Instr.sqFrameRx n f, 0), (Instr.sqAck n f, 1), (Instr.sqNak n f, 2)] → Ends c s fun t =>
        ctrVal t .sqLinkErr n = ctrVal s .sqLinkErr n + 1 ∧ t.sq = s.sq ∧ t.mem = s.mem ∧ t.out = s.out) ∧
    (portLive s n = true → (getPort s n).unacked ≠ [] →
      (Ends (.sqRetransTimeout n true) s fun t => (getPort t n).state = .down ∧ t.mem = s.mem ∧ t.jobs = s.jobs) ∧
      ((getPort s n).unacked.any (fun u => decide (8 ≤ u.resent + 1)) = false → Ends (.sqRetransTimeout n false) s fun t =>
        (getPort t n).state = (getPort s n).state ∧ t.mem = s.mem ∧
        (getPort t n).unacked = (getPort s n).unacked.map (fun u => { u with resent := u.resent + 1 }) ∧
        ∀ u ∈ (getPort s n).unacked, dataFrame t n u ∈ t.out) ∧
      ((getPort s n).unacked.any (fun u => decide (8 ≤ u.resent + 1)) = true → Ends (.sqRetransTimeout n false) s fun t =>
        (getPort t n).state = .down ∧ t.mem = s.mem)) ∧
    ((getPort s n).state = .down → Ends (.sqPortUp n) s fun t => (getPort t n).state = .up ∧ t.mem = s.mem ∧ t.jobs = s.jobs ∧
      ∀ u ∈ (getPort s n).unacked, { u with resent := 0 } ∈ (getPort t n).unacked ∧ dataFrame t n { u with resent := 0 } ∈ t.out)

/-! ## Afterglow -/

/-- A die's slot `b` sealed in the tick, or INVALID where the step before its own is spoiled (R349). -/
def sealedAs (s : State) (spoiled : List Nat) (d : AgDie) (b : Bool) : AgDie :=
  { d.put b (if spoiled.any (fun y => decide (y + 1 = (d.slot b).j)) then { d.slot b with state := .invalid }
      else { d.slot b with state := .done, sealTick := s.tk.tick }) with closed := false }

/-- Every learner die of the context holds the newest cut SEALED. -/
def diesSealed (a : AgCtx) : Bool := a.dies.all fun d => (sealedSlot d fun y => decide (y.cut = a.cutSeq)).isSome

/-- Copies and cuts of a job's context (R344, R345, R346, R349). The copy of a cut opens at the intake edge after it. The last block
of a die closes the die, with every block not copied before, and the last die closes the copy. A copy, or a restore, that has not
ended in COPY_TICKS ticks is abandoned with AG_COPY_TIMEOUT, the restore with its job. At a boundary a closed slot is sealed from
its second tick on, or becomes INVALID where its previous step is spoiled; when the last die of this package seals, the cut is
counted, and on the lead of a job of one package it is the newest complete one. -/
def Obligations.AfterglowCopies : Prop :=
  ∀ (s : State) (j n : Nat) (a : AgCtx), On s → agOf s j = some (n, a) →
    (s.tk.phase = .step → a.copyOpen = false → a.dies.any (·.copying) = true →
      Ends (.agCopyOpen j) s fun t => agOf t j = some (n, { a with copyOpen := true, copyFrom := s.tk.tick }) ∧ t.mem = s.mem ∧
        t.jobs = s.jobs ∧ t.units = s.units) ∧
    (∀ die d, agDie s j die = some d → a.copyOpen = true → d.copying = true → windowOpen s 5 = true →
      Ends (.agCopyClose j die) s fun t => (agDie t j die).map (fun x => (x.copying, x.closed)) = some (false, true) ∧
        t.mem = (copyBlocks j die (undrifted s j die fun _ => true) s).mem ∧ t.jobs = s.jobs ∧ t.units = s.units ∧
        t.clusters = s.clusters ∧
        (a.dies.all (fun x => decide (x.die = die) || !x.copying) = true → (agOf t j).map (·.2.copyOpen) = some false)) ∧
    (s.tk.phase ≠ .step → s.tk.phase ≠ .late → a.copyFrom + a.copyTicksMax ≤ s.tk.tick + 1 →
      (a.copyOpen = true → Ends (.agCopyTimeout j) s fun t => t.mem = s.mem ∧ t.jobs = s.jobs ∧ ∃ b, agOf t j = some (n, b) ∧
        b.copyOpen = false ∧ b.lastStatus = .agCopyTimeout ∧ b.newestCut = a.newestCut ∧
        b.dies = a.dies.map fun d => if d.copying then { d with copying := false, drift := [] } else d) ∧
      (a.copyOpen = false → a.state = .restoring → a.resumeTick = none → Ends (.agCopyTimeout j) s fun t => t.mem = s.mem ∧
        (getJob t j).any (·.ending.isSome) = true ∧ (agOf t j).map (·.2.lastStatus) = some .agCopyTimeout)) ∧
    (∀ x, s.tk.phase ≠ .step → s.tk.phase ≠ .late → compUp s 7 = true → getJob s j = some x →
      (∀ d b, d ∈ a.dies → (a.dies.map (·.die)).Nodup → openWhich d = some b → d.closed = true →
        (d.slot b).cutTick + 1 ≤ s.tk.tick →
        Ends (.agSeal j) s fun t => agDie t j d.die = some (sealedAs s x.spoiled d b) ∧ t.jobs = s.jobs ∧
          t.clusters = s.clusters) ∧
      (∀ b, agOf (forEach a.dies (sealDie j x.spoiled) s) j = some (n, b) → b.cutSeq ≠ 0 → b.dies ≠ [] → diesSealed b = true →
        a.dies.all (fun d => (sealedSlot d fun y => decide (y.cut = b.cutSeq)).isSome) = false →
        ctrVal s .agCuts (jobPart j) < 2 ^ 64 - 2 →
        Ends (.agSeal j) s fun t => ctrVal t .agCuts (jobPart j) = ctrVal s .agCuts (jobPart j) + 1 ∧
          (leadPkg s j = s.wn.pkg → (learnerDies s j).all (fun d => decide (d.1 = s.wn.pkg)) = true → b.newestCut < b.cutSeq →
            (agOf t j).map (·.2.newestCut) = some b.cutSeq)))

/-- The drain of a cut has started on this package (R351). -/
def DrainStarted (s t : State) (j n : Nat) (a : AgCtx) (cut : Nat) : Prop :=
  agOf t j = some (n, { a with narrowing := true, drainFrom := s.tk.tick, drainCut := cut, drainSeen := cut, drainAt := none,
                               dies := a.dies.map fun d => { d with narrowed := false } }) ∧
    t.mem = s.mem ∧ t.jobs = s.jobs

/-- A drain has failed with a status. -/
def drainFailed (a : AgCtx) (st : Status) : AgCtx := { a with narrowing := false, draining := false, lastStatus := st }

/-- Drains (R351, R353, R357). At the intake edge the lead starts the drain of a complete cut due for it, in a job of several packages
by naming its tick two ahead; a cut that is not due is skipped and counted; a named drain starts at its tick. A die's slot is
narrowed into its image and sent to the buddy, or the drain fails where the slot cannot be read; a drain also fails at its buddy's
loss and at DRAIN_TICKS. Data that continue an open buddy slot land in it and the last seals it; data out of order or with a wrong
CRC do not. A buddy sends a slot that is asked for, and a fetched image lands, with its last message in slot A. -/
def Obligations.AfterglowDrains : Prop :=
  ∀ (s : State) (j n : Nat) (a : AgCtx), On s → agOf s j = some (n, a) →
    (s.tk.phase = .step → leadPkg s j = s.wn.pkg → a.drainSeen < a.newestCut →
      (a.drainEvery ≠ 0 → a.newestCut % a.drainEvery = 0 → drainLive s j a = false →
        (otherPkgs s j = [] → Ends (.agDrainStart j) s fun t => DrainStarted s t j n a a.newestCut) ∧
        (otherPkgs s j ≠ [] → Ends (.agDrainStart j) s fun t => t.mem = s.mem ∧ t.jobs = s.jobs ∧ agOf t j
          = some (n, { a with drainSeen := a.newestCut, drainAt := some (a.newestCut, s.tk.tick + 2) }))) ∧
      (a.drainEvery = 0 ∨ a.newestCut % a.drainEvery ≠ 0 ∨ drainLive s j a = true →
        ctrVal s .agDrainSkipped (jobPart j) < 2 ^ 64 - 2 →
        Ends (.agDrainStart j) s fun t => ctrVal t .agDrainSkipped (jobPart j) = ctrVal s .agDrainSkipped (jobPart j) + 1 ∧
          agOf t j = some (n, { a with drainSeen := a.newestCut }))) ∧
    (∀ cut tick, s.tk.phase = .step → (leadPkg s j ≠ s.wn.pkg ∨ a.newestCut ≤ a.drainSeen) → a.drainAt = some (cut, tick) →
      tick ≤ s.tk.tick → Ends (.agDrainStart j) s fun t => DrainStarted s t j n a cut) ∧
    (∀ die d b, agDie s j die = some d → sealedSlot d (fun x => decide (x.cut = a.drainCut)) = some b → a.narrowing = true →
      d.narrowed = false → windowOpen s 5 = true →
      (slotReadable s (d.slot b) (65536 * (d.slot b).blocks) = true →
        Ends (.agNarrowDone j die) s fun t => (agDie t j die).map (·.narrowed) = some true ∧ t.jobs = s.jobs ∧ t.units = s.units ∧
          t.clusters = s.clusters ∧
          t.mem = (writePlace d.drainImage.rd d.drainImage.region 0 (drainImageBytes s j die b (d.slot b)) s).mem ∧
          (agOf t j).map (fun y => (y.2.narrowing, y.2.draining))
            = some (!a.dies.all (fun x => decide (x.die = die) || x.narrowed), a.dies.all fun x => decide (x.die = die) || x.narrowed) ∧
          Sends t a.buddyPkg 7
            { agHead j die with seq := (d.slot b).cut, step := ((getJob s j).map (·.j)).getD 0 % 2 ^ 32 }
            (drainImageBytes s j die b (d.slot b))) ∧
      (slotReadable s (d.slot b) (65536 * (d.slot b).blocks) = false →
        Ends (.agNarrowDone j die) s fun t => agOf t j = some (n, drainFailed a .agDrainFailed) ∧ t.mem = s.mem)) ∧
    ((a.narrowing = true ∨ a.draining = true) →
      (Ends (.agDrainTimeout j true) s fun t => agOf t j = some (n, drainFailed a .agDrainFailed) ∧ t.mem = s.mem ∧
        t.jobs = s.jobs) ∧
      (a.drainFrom + a.drainTicksMax ≤ s.tk.tick → Ends (.agDrainTimeout j false) s fun t =>
        agOf t j = some (n, drainFailed a .agDrainTimeout) ∧ t.mem = s.mem ∧ t.jobs = s.jobs)) ∧
    (∀ die d cut off data, agDie s j die = some d → a.state = .restoring →
      (Ends (.afterglowMsg j s.wn.pkg die cut off data false true) s fun t =>
        t.mem = (writePlace d.drainImage.rd d.drainImage.region off data s).mem ∧ t.jobs = s.jobs ∧ t.units = s.units) ∧
      Ends (.afterglowMsg j s.wn.pkg die cut off data true true) s fun t => (agDie t j die).map (·.slotA.state) = some .done ∧
        t.jobs = s.jobs ∧ t.units = s.units) ∧
    (∀ pkg die cut off data last b sl, pkg ≠ s.wn.pkg → a.buddies.find? (fun b => decide (b.pkg = pkg) && decide (b.die = die)) = some b →
      sl = (if targetSlot b.slotA b.slotB then b.slotB else b.slotA) →
      (∀ c e, data = [] → buddySlot b cut = some c → regionOf s c.rd c.region = some e →
        Ends (.afterglowMsg j pkg die cut off data last true) s fun t => t.mem = s.mem ∧ t.jobs = s.jobs ∧
          Sends t pkg 7 { agHead j die with seq := cut, step := ((getJob s j).map (·.j)).getD 0 % 2 ^ 32 }
            (regionBytes s c.rd e 0 e.len)) ∧
      (data ≠ [] → off ≠ 0 →
        (sl.state = .opened → sl.cut = cut → off = 64 * sl.blocks →
          Ends (.afterglowMsg j pkg die cut off data last true) s fun t => t.jobs = s.jobs ∧ t.units = s.units ∧
            (last = false → t.mem = (writePlace sl.rd sl.region off data s).mem) ∧
            (last = true → (agOf t j).any (fun y => y.2.buddies.any fun c =>
              decide (c.pkg = pkg) && decide (c.die = die) && (buddySlot c cut).isSome) = true)) ∧
        (∀ ok, sl.state ≠ .opened ∨ sl.cut ≠ cut ∨ off ≠ 64 * sl.blocks ∨ ok = false →
          Ends (.afterglowMsg j pkg die cut off data last ok) s fun t => t.mem = s.mem ∧ t.jobs = s.jobs)))

/-- Pre-emption and resumption (R359, R361): a request of one who has the rights is taken for a job that runs; at the boundary at
which its cuts are complete and its units unwritten the job is held; in the window its clusters are saved into the context regions,
and wait for their release; a resumption gives a pre-empted job its clusters back, under new epochs, to run from the next
tick. -/
def Obligations.PreemptAndResume : Prop :=
  ∀ (s : State) (j n : Nat) (a : AgCtx) (x : Job) (who : Who), On s → agOf s j = some (n, a) → getJob s j = some x →
    (windowUp s who = true → rightsOver s who (jobPart j) = true → a.busy = false → a.state = .running → x.ending = none →
      Ends (.preempt who j) s fun t => agOf t j = some (n, { a with preemptAsked := true, busy := true }) ∧ t.mem = s.mem ∧
        t.jobs = s.jobs ∧ t.out = s.out ++ [.outcome who .ok]) ∧
    (s.tk.phase ≠ .step → s.tk.phase ≠ .late → compUp s 7 = true → a.preemptAsked = true → preemptReady s j a = true →
      Ends (.agPreemptApply j) s fun t => (agOf t j).map (fun y => (y.2.preemptAsked, y.2.state)) = some (false, .saving) ∧
        (getJob t j).map (·.held) = some true ∧ t.mem = s.mem) ∧
    (a.state = .saving → a.releaseDue = false → windowOpen s 5 = true →
      Ends (.agContextSaveDone j) s fun t => t.jobs = s.jobs ∧ t.units = s.units ∧ t.clusters = s.clusters ∧
        t.mem = (forEach a.ctxReg (saveRegion j a.newestCut) s).mem ∧
        agOf t j = some (n, { a with releaseDue := true,
                                     saved := (allClusters s j).map fun cl =>
                                       (cl, getCl s cl, (List.range 8).map fun i => (8 * cl + i, getUnit s (8 * cl + i))) })) ∧
    (windowUp s who = true → rightsOver s who (jobPart j) = true → a.busy = false → a.state = .preempted → ctxFits s a = true →
      a.saved.any (fun c => (getCl s c.1).owner.isSome) = false →
      permitsHeld s (jobPart j) + (a.saved.map fun c => c.2.1.permits).sum ≤ ptFld (ptEntry s (jobPart j)) 0 43 32 →
      Ends (.resume who j) s fun t =>
        agOf t j = some (n, { a with state := .running, saved := [], resumeTick := some (s.tk.tick + 1) }) ∧ t.jobs = s.jobs ∧
        t.out = s.out ++ [.outcome who .ok] ∧
        ((a.saved.map (·.1)).Nodup → ∀ c ∈ a.saved, (getCl t c.1).owner = c.2.1.owner ∧
          (getCl t c.1).queues = c.2.1.queues ∧ (getCl t c.1).epoch = nextEpoch (getCl s c.1).epoch))

/-- Recovery, shrinking, export, rollback and the end of a restore (R337, R354, R357, R358, R362). RECOVER and SHRINK, with package
rights on the lead of a job, name what is lost and hold the job to restore a cut; without a recovery cut the job falls; a shrink that
the map cannot bear is refused and leaves the job to be held. EXPORT writes the image of the buddy slots where the region has room.
A job with a spoiled step restores it, or is torn down where a die has no slot of it or it has no Afterglow context. A restore whose
units have refilled takes the rest of the cut from the slots, and is counted; one whose slot cannot be read tears the
job down. Every CTRL-lane message is taken; the resume tick it names is noted. -/
def Obligations.RecoverAndRestore : Prop :=
  (∀ (s : State) (j n : Nat) (a : AgCtx) (x : Job) (k : Nat), On s → agOf s j = some (n, a) → getJob s j = some x →
    windowUp s (.session k) = true → packageRights s (.session k) = true → a.busy = false →
    (∀ pkg, leadPkg s j = s.wn.pkg → pkg ≠ s.wn.pkg → x.packages.contains pkg = true →
      (a.recoveryCut ≠ 0 → Ends (.recover (.session k) j pkg) s fun t => agOf t j = some (n,
        { a with holdDue := true, restoreCut := some a.recoveryCut, lostPkg := some pkg, busy := true }) ∧ t.mem = s.mem ∧
          t.jobs = s.jobs ∧ .outcome (.session k) .ok ∈ t.out) ∧
      (a.recoveryCut = 0 → Ends (.recover (.session k) j pkg) s fun t => (getJob t j).any (·.ending.isSome) = true ∧
        .outcome (.session k) .agNoRecoveryCut ∈ t.out ∧ t.mem = s.mem) ∧
      (a.service ≠ 0 → shrinkOk s j ((x.packages.findIdx? fun y => decide (y = pkg)).getD 0) = true →
        survivorCut (shrinkJob j pkg s) j ≠ 0 →
        Ends (.shrink (.session k) j pkg) s fun t => (agOf t j).map (fun y => (y.2.holdDue, y.2.restoreCut, y.2.lostPkg, y.2.busy))
            = some (true, some (survivorCut (shrinkJob j pkg s) j), some pkg, true) ∧
          .outcome (.session k) .ok ∈ t.out ∧ t.jobs = (shrinkJob j pkg s).jobs) ∧
      ((a.service = 0 ∨ shrinkOk s j ((x.packages.findIdx? fun y => decide (y = pkg)).getD 0) = false) →
        Ends (.shrink (.session k) j pkg) s fun t => agOf t j = some (n,
          { a with holdDue := true, restoreCut := none, lostPkg := some pkg, lastStatus := .agShrinkRefused }) ∧ t.mem = s.mem ∧
          .outcome (.session k) .agShrinkRefused ∈ t.out)) ∧
    (∀ rd h e, regionOf s rd h = some e → e.part = jobPart j → e.cls = 5 → e.sealed = false → e.owner = 56 + rd → exportCut a ≠ 0 →
      exportHeld a ≠ [] → (exportHeld a).any (fun b => decide (b.2.rd ≠ rd)) = false →
      ((exportedImage a x j s).1.length ≤ e.len → Ends (.exportImage (.session k) j rd h) s fun t => t.jobs = s.jobs ∧
        t.units = s.units ∧ t.clusters = s.clusters ∧ t.mem = (writePlace rd h 0 (exportedImage a x j s).1 s).mem ∧
        t.out = s.out ++ [.outcome (.session k) .ok]) ∧
      (e.len < (exportedImage a x j s).1.length → Ends (.exportImage (.session k) j rd h) s fun t => t.mem = s.mem ∧
        t.out = s.out ++ [.outcome (.session k) .mtAddrInvalid]))) ∧
  (∀ (s : State) (j step : Nat) (x : Job), On s → getJob s j = some x → s.tk.phase ≠ .step → s.tk.phase ≠ .late → x.ending = none →
    leastOf (x.spoiled.filter fun y => decide (y ≤ x.j)) = some step →
    (agOf s j = none → Ends (.jobRollback j) s fun t => (getJob t j).map (·.ending) = some (some (.faulted, .sqPoison))) ∧
    (∀ n a, agOf s j = some (n, a) → (a.state = .running ∨ a.state = .restoring) →
      (a.dies.all (dieCan step) = true → Ends (.jobRollback j) s fun t => (agOf t j).map (·.2.state) = some .restoring ∧
        (getJob t j).any (fun y => y.spoiled.contains step) = false) ∧
      (a.dies.all (dieCan step) = false → Ends (.jobRollback j) s fun t =>
        (getJob t j).map (·.ending) = some (some (.faulted, .agNoSlot)) ∧ (agOf t j).map (·.2.lastStatus) = some .agNoSlot))) ∧
  (∀ (s : State) (j n : Nat) (a : AgCtx) (x : Job) (l : List (AgDie × SlotSt)), On s → agOf s j = some (n, a) →
    getJob s j = some x → a.state = .restoring → a.refilling = true → a.restored.contains s.wn.pkg = false →
    windowOpen s 5 = true → x.ending = none →
    (∀ cl ∈ jobClusters s j 1, ∀ i, i < 8 → (getUnit s (8 * cl + i)).refill = none) →
    l = a.dies.filterMap (fun d => (restoreSlot a d).map fun sl => (d, sl)) →
    ctrVal s .agRollbacks (jobPart j) < 2 ^ 64 - 2 →
    (l.all (fun e => slotReadable s e.2 (65536 * e.2.blocks)) = true → Ends (.agRestoreDone j) s fun t =>
      ctrVal t .agRollbacks (jobPart j) = ctrVal s .agRollbacks (jobPart j) + 1 ∧ t.units = s.units ∧
        (agOf t j).map (fun y => y.2.restored.contains s.wn.pkg) = some true ∧
        (l = [] → t.mem = s.mem) ∧ ∀ e rest, l = e :: rest → (getJob t j).map (·.j) = some e.2.j) ∧
    (l.all (fun e => slotReadable s e.2 (65536 * e.2.blocks)) = false → Ends (.agRestoreDone j) s fun t => t.mem = s.mem ∧
      (getJob t j).map (·.ending) = some (some (.faulted, .mtUncorrectable)))) ∧
  (∀ (s : State) (m : CtrlMsg), On s → Ends (.sqCtrlMsg m) s fun t => t.tk = s.tk) ∧
  (∀ (s : State) (j n tick : Nat) (a : AgCtx), On s → agOf s j = some (n, a) →
    Ends (.sqCtrlMsg (.resumeAt j tick)) s fun t => agOf t j = some (n, { a with resumeTick := some tick }) ∧ t.mem = s.mem ∧
      t.jobs = s.jobs)

/-! ## Horizon ports -/

/-- What a port receives and its link (R367, R368, R369, R373, R376, R381). At an UP port a datagram that meets the conditions waits
for the next intake edge and one that does not is dropped and counted; what a DOWN port or the framing drops is not. The first
action that arrives over Squall in its tick's step phase for a LIVE served stream is NEXT; any other is discarded. An observation
record lands with its serving cluster and counts an arrival. An UP port answers for its own addresses; it loses its link and
finds it again, but a port of no partition keeps its link down. -/
def Obligations.PortsReceive : Prop :=
  ∀ (s : State) (n : Nat), On s →
    (∀ d, (getEnvPort s n).up = true → d.framingOk = true →
      (obsOk (getStream s d.stream) n d = true → Ends (.hzObsRx n d) s fun t => t.mem = s.mem ∧ t.jobs = s.jobs ∧
        getStream t d.stream = { getStream s d.stream with obs := (getStream s d.stream).obs ++ [(d.seq, d.tick, d.payload)] } ∧
        ∀ i, i ≠ d.stream → getStream t i = getStream s i) ∧
      (obsOk (getStream s d.stream) n d = false → ctrVal s .hzRxDrop n < 2 ^ 64 - 2 → Ends (.hzObsRx n d) s fun t =>
        ctrVal t .hzRxDrop n = ctrVal s .hzRxDrop n + 1 ∧ t.streams = s.streams ∧ t.mem = s.mem)) ∧
    (∀ d, (getEnvPort s n).up = false ∨ d.framingOk = false → exec (.hzObsRx n d) s = .next s) ∧
    (∀ i j tag data, i < 4096 → (getStream s i).served = some j → (getStream s i).state = .live → s.tk.phase = .step →
      ((getStream s i).nextAct = none → exec (.horizonMsg i true s.tk.tick tag data) s = .next (modStream i (fun y =>
        { y with nextAct := some (actBytes y.actionBytes data, tag) }) s)) ∧
      ((getStream s i).nextAct.isSome = true → exec (.horizonMsg i true s.tk.tick tag data) s = .next s)) ∧
    (∀ i tick tag data, (getStream s i).served = none ∨ (getStream s i).state ≠ .live ∨ tick ≠ s.tk.tick ∨ s.tk.phase ≠ .step →
      exec (.horizonMsg i true tick tag data) s = .next s) ∧
    (∀ i j x b tick tag data,
      s.jobs.find? (fun e => e.2.streams.any fun y => decide (y.stream = i) && decide (y.cluster / 2048 = e.2.rank)) = some (j, x) →
      getJob s j = some x → x.streams.find? (fun y => decide (y.stream = i)) = some b →
      tabGet 0 (getCl s (b.cluster % 2048)).arrivals b.chain < 65535 →
      Ends (.horizonMsg i false tick tag data) s fun t =>
        t.mem = (writePlace (b.region / 256) (b.region % 256)
          (obsOffset b x.streams + tick % 2 * (32 + b.obs)) data s).mem ∧ t.streams = s.streams ∧
        tabGet 0 (getCl t (b.cluster % 2048)).arrivals b.chain = tabGet 0 (getCl s (b.cluster % 2048)).arrivals b.chain + 1) ∧
    (∀ ip : BitVec 128,
      ((getEnvPort s n).up = true → (getEnvPort s n).cfg.ipv6 = ip → exec (.hzNeighborReq n true ip) s = .next { s with
        out := s.out ++ [.neighbor n (getEnvPort s n).cfg.mac] }) ∧
      ((getEnvPort s n).up = true → (getEnvPort s n).cfg.ipv4.toNat = ip.toNat → exec (.hzNeighborReq n false ip) s = .next { s with
        out := s.out ++ [.neighbor n (getEnvPort s n).cfg.mac] }) ∧
      ((getEnvPort s n).up = false ∨ (getEnvPort s n).cfg.ipv6 ≠ ip → exec (.hzNeighborReq n true ip) s = .next s) ∧
      ((getEnvPort s n).up = false ∨ (getEnvPort s n).cfg.ipv4.toNat ≠ ip.toNat → exec (.hzNeighborReq n false ip) s = .next s)) ∧
    (n < 16 →
      ((getEnvPort s n).up = true → Ends (.hzPortDown n) s fun t => (getEnvPort t n).up = false ∧ t.streams = s.streams ∧
        t.mem = s.mem ∧ t.jobs = s.jobs) ∧
      ((getEnvPort s n).up = false → exec (.hzPortDown n) s = .next s) ∧
      ((getEnvPort s n).cfg.owned = true → Ends (.envPortLinkUp n) s fun t => (getEnvPort t n).up = true ∧ t.streams = s.streams ∧
        (getEnvPort t n).cfg = (getEnvPort s n).cfg) ∧
      ((getEnvPort s n).cfg.owned = false → exec (.envPortLinkUp n) s = .next s))

/-- Streams are opened and closed, posted to and brought to rest (R371, R376, R379, R383): an OPEN or CLOSE of a session that passes
the checks waits for the boundary, one that fails them, or comes from cores, changes no stream; the limit of a hold run is noted
once; a post is handed to the port engine in the step window, or ends POOL_UNCORRECTABLE, and the list goes on; outside the window it
waits. -/
def Obligations.StreamCommands : Prop :=
  ∀ (s : State) (n i : Nat), On s → i < 4096 → windowUp s (.session n) = true →
    (hzCtrlStatus (.session n) false i s = .ok → Ends (.hzOpen (.session n) i) s fun t =>
      getStream t i = { getStream s i with openDue := true } ∧ t.mem = s.mem ∧ t.jobs = s.jobs ∧
        t.out = s.out ++ [.outcome (.session n) .ok]) ∧
    (hzCtrlStatus (.session n) false i s ≠ .ok → Ends (.hzOpen (.session n) i) s fun t => t.streams = s.streams ∧
        t.out = s.out ++ [.outcome (.session n) (hzCtrlStatus (.session n) false i s)]) ∧
    (hzCtrlStatus (.session n) true i s = .ok → Ends (.hzClose (.session n) i) s fun t =>
      getStream t i = { getStream s i with closeDue := true } ∧ t.mem = s.mem ∧ t.jobs = s.jobs ∧
        t.out = s.out ++ [.outcome (.session n) .ok]) ∧
    (hzCtrlStatus (.session n) true i s ≠ .ok → Ends (.hzClose (.session n) i) s fun t => t.streams = s.streams ∧
        t.out = s.out ++ [.outcome (.session n) (hzCtrlStatus (.session n) true i s)]) ∧
    (limitReached (getStream s i) = true → (getStream s i).limitDue = false → Ends (.hzHoldLimit i) s fun t =>
      getStream t i = { getStream s i with limitDue := true } ∧ t.mem = s.mem ∧ t.jobs = s.jobs) ∧
    ((limitReached (getStream s i) = false ∨ (getStream s i).limitDue = true) → exec (.hzHoldLimit i) s = .next s) ∧
    (∀ p, windowUp s (.cores p) = true →
      (Ends (.hzOpen (.cores p) i) s fun t => t.streams = s.streams) ∧ Ends (.hzClose (.cores p) i) s fun t => t.streams = s.streams) ∧
    (∀ cl, s.tk.phase ≠ .step → ∀ bad, exec (.hzPost cl bad) s = .next s) ∧
    (∀ cl q, CoreReady s cl 17 q → s.tk.phase = .step →
      (Ends (.hzPost cl true) s fun t => (getCl t cl).exec9 = none ∧ t.streams = s.streams ∧ (q.card.chain = 0 → t.jobs = s.jobs ∧
        t.mem = withRecord s cl q.card { Report.of .poolUncorrectable 0 with cycles := 8 + hzLines s q.card })) ∧
      Ends (.hzPost cl false) s fun t => (getCl t cl).exec9 = none ∧
        t.streams = s.streams ∧ t.mem = s.mem ∧ t.units = s.units ∧ t.jobs = s.jobs ∧
        (getCl t cl).tier = (getCl s cl).tier ++ [{ runOf q with
          host := 2
          writes := bytesAt 0 (memBytes s.mem (poolKey cl (64 * hzLine q.card)) (getStream s (hzStreamOf q.card)).actionBytes)
          chunks := epochInForce s q.card.job % 2 ^ 16
          cycles := 8 + hzLines s q.card
          issueTick := s.tk.tick }])

/-- A hold run that has reached a limit other than 0 winds the stream down at the boundary, and the event is raised to every session
whose rights cover the stream's partition (R379). -/
def Obligations.HoldLimitWinds : Prop :=
  ∀ (s : State) (r : Readings) (i : Nat), On s → (s.tk.phase = .drain ∨ s.tk.phase = .slot) → i < 4096 →
    (getStream s i).state = .live → (getStream s i).holdLimit ≠ 0 → (getStream s i).holdLimit ≤ (getStream s i).holdRun →
    Ends (.boundary r) s fun t => (getStream t i).state = .winding ∧
      ((getStream s i).limitDue = false → ∀ n x, tabFind n s.sc.sessions = some x → (getStream s i).part < 16 →
        (x.package = true ∨ x.mask.toNat / 2 ^ (getStream s i).part % 2 = 1) →
        ∃ q, Out.event n q .hzHoldLimit (getStream s i).part s.tk.tick i ∈ t.out)

/-! ## Partitions and jobs -/

/-- A request is answered with a status, in the next state `t`, and leaves the partition table and the regions as they are. -/
def PtAnswered (s t : State) (who : Who) (st : Status) : Prop :=
  t.pt = s.pt ∧ t.mt = s.mt ∧ t.mem = s.mem ∧ t.jobs = s.jobs ∧ t.out = s.out ++ [.outcome who st]

/-- Partition changes and grants (R387, R392, R393, R418). A creation or teardown with package rights that passes the checks waits for
the boundary after next and the table stays; one that fails them, comes without the rights or while another waits is refused with
its status. A grant of a sealed region by its owner is open; an acceptance in time, and a revocation, are due at the
boundary; a grant that was not accepted in 64 ticks lapses. With component 1 or 2 FAILED none of them changes anything. -/
def Obligations.PartitionRequests : Prop :=
  ∀ (s : State) (who : Who), On s → windowUp s who = true →
    (ptServes s = true → ∀ p,
      (packageRights s who = true →
        (p < 16 → s.pt.change = none → ptValid (ptEntry s p) = false →
          (tableCheck (tabIns p (stagedEntry s p) s.pt.table) (chansAfter s p) s.sq.ports (createBusy s p) = none →
            Ends (.create who p) s fun t =>
              t.pt = { s.pt with change := some ⟨true, p, s.tk.tick + 1, stagedEntry s p, chansAfter s p⟩ } ∧
                t.mem = s.mem ∧ t.jobs = s.jobs ∧ t.out = s.out ++ [.outcome who .ok]) ∧
          (∀ st, tableCheck (tabIns p (stagedEntry s p) s.pt.table) (chansAfter s p) s.sq.ports (createBusy s p) = some st →
            Ends (.create who p) s fun t => PtAnswered s t who st)) ∧
        (p < 16 → s.pt.change = none → ptValid (ptEntry s p) = true →
          (Ends (.create who p) s fun t => PtAnswered s t who .ptResourceBusy) ∧
          Ends (.teardown who p) s fun t => t.pt = { s.pt with change := some ⟨false, p, s.tk.tick + 1, 0#1024, 0#1024⟩ } ∧
            t.mem = s.mem ∧ t.jobs = s.jobs ∧ t.out = s.out ++ [.outcome who .ok]) ∧
        (s.pt.change = none → 15 < p ∨ ptValid (ptEntry s p) = false →
          Ends (.teardown who p) s fun t => PtAnswered s t who .ptReqInvalid) ∧
        (p < 16 → s.pt.change.isSome = true →
          (Ends (.create who p) s fun t => PtAnswered s t who .ptBusy) ∧
          Ends (.teardown who p) s fun t => PtAnswered s t who .ptBusy)) ∧
      (packageRights s who = false →
        (Ends (.create who p) s fun t => PtAnswered s t who .ptDenied) ∧
        Ends (.teardown who p) s fun t => PtAnswered s t who .ptDenied) ∧
      (∀ rd h e, regionOf s rd h = some e →
        ((packageRights s who = true ∨ viewOf s who = e.part) → e.sealed = true → p ≠ e.part →
          Ends (.grant who rd h p) s fun t => openGrant t rd h p = true ∧ t.mt = s.mt ∧ t.pt.due = s.pt.due ∧ t.mem = s.mem ∧
            t.out = s.out ++ [.outcome who .ok]) ∧
        ((packageRights s who = false ∧ viewOf s who ≠ e.part) ∨ e.sealed = false ∨ p = e.part →
          Ends (.grant who rd h p) s fun t => PtAnswered s t who .ptGrantInvalid) ∧
        (openGrant s rd h p = true → rightsOver s who p = true →
          Ends (.accept who rd h p) s fun t => t.pt.due = s.pt.due ++ [(rd, h, p, true, viewOf s who)] ∧
            openGrant t rd h p = false ∧ t.mt = s.mt ∧ t.mem = s.mem ∧ t.out = s.out ++ [.outcome who .ok]) ∧
        (rightsOver s who e.part = true →
          Ends (.revoke who rd h p) s fun t => t.pt.due = s.pt.due ++ [(rd, h, p, false, viewOf s who)] ∧ t.mt = s.mt ∧
            t.mem = s.mem ∧ t.out = s.out ++ [.outcome who .ok]) ∧
        (rightsOver s who e.part = false → Ends (.revoke who rd h p) s fun t => PtAnswered s t who .ptDenied)) ∧
      (∀ rd h,
        (rightsOver s who p = false → Ends (.accept who rd h p) s fun t => PtAnswered s t who .ptDenied) ∧
        (rightsOver s who p = true → openGrant s rd h p = false →
          Ends (.accept who rd h p) s fun t => PtAnswered s t who .ptGrantStale))) ∧
    (∀ rd h p, openGrant s rd h p = false → Ends (.ptGrantExpire rd h p) s fun t => t.pt.due = s.pt.due ∧ t.mt = s.mt ∧
      t.mem = s.mem ∧ ∀ g ∈ t.pt.open_, ¬(g.1 = rd ∧ g.2.1 = h ∧ g.2.2.1 = p)) ∧
    (ptServes s = false → ∀ p rd h c,
      c ∈ [Instr.create who p, Instr.teardown who p, Instr.grant who rd h p, Instr.accept who rd h p, Instr.revoke who rd h p] →
      Ends c s fun t => t.pt = s.pt ∧ t.mt = s.mt ∧ t.mem = s.mem ∧ t.jobs = s.jobs)

/-- WN_JOB_STATUS of a view: the package's for view 16. -/
def jobStatusOf (s : State) (view : Nat) : Status × Nat × Nat := if view < 16 then (getPart s view).jobStatus else s.wn.jobStatus

/-- Submission and admission of jobs (R25, R395, R435): a submission waits for its intake edge while no other of its view does; there
the manifest it names is admitted or refused with the status of its first failed check and the item, and the view shows which;
while a tick setting waits for its boundary the submission waits too.

JOB_END of one with rights over the partition and KILL of one with package rights decide the end of a job, and the first cause
stands; without the rights both end PT_DENIED (R396, R401, R402). -/
def Obligations.Jobs : Prop :=
  (∀ (s : State) (who : Who) (v : W64) (view : Nat), On s → view ≤ 16 →
      (viewOf s who = view → windowUp s who = true → (view < 16 → ptValid (ptEntry s view) = true) →
        (submitOf s view = none → Ends (.wnJobSubmit who v) s fun t => submitOf t view = some (v, s.tk.tick) ∧ t.jobs = s.jobs ∧
          t.mem = s.mem ∧ t.units = s.units ∧ t.clusters = s.clusters) ∧
        ((submitOf s view).isSome = true → Ends (.wnJobSubmit who v) s fun t => submitOf t view = submitOf s view ∧
          jobStatusOf t view = (.manBusy, 0, 0) ∧ t.jobs = s.jobs ∧ t.out = s.out ++ [.outcome who .manBusy])) ∧
      (∀ w t0, submitOf s view = some (w, t0) → s.tk.phase = .step → t0 < s.tk.tick → s.tk.pending = none → compUp s 5 = true →
        (∀ j s2, admitManifest view w (putSubmit view none s) = .ok (j, s2) →
          Ends (.jobAdmit view) s fun t => jobStatusOf t view = (.ok, j, 0)) ∧
        (∀ st item, admitManifest view w (putSubmit view none s) = .error (st, item) →
          Ends (.jobAdmit view) s fun t => jobStatusOf t view = (st, 0, item) ∧ submitOf t view = none ∧ t.jobs = s.jobs ∧
            t.mem = s.mem ∧ t.units = s.units ∧ t.clusters = s.clusters ∧ t.mt = s.mt)) ∧
      (s.tk.pending.isSome = true → exec (.jobAdmit view) s = .next s)) ∧
  (∀ (s : State) (who : Who) (j : Nat) (x : Job), On s → windowUp s who = true → getJob s j = some x →
      ptValid (ptEntry s (jobPart j)) = true → ∀ c e, (c, e) ∈ [(Instr.jobEnd who j, JobEnd.completed), (Instr.kill who j, .tornDown)] →
      ((if e = .tornDown then packageRights s who else rightsOver s who (jobPart j)) = true → Ends c s fun t =>
        getJob t j = some { x with ending := if x.ending = none then some (e, .ok) else x.ending } ∧
          (∀ k, k ≠ j → getJob t k = getJob s k) ∧ t.mem = s.mem ∧ t.units = s.units ∧ t.clusters = s.clusters ∧ t.gen = s.gen) ∧
      ((if e = .tornDown then packageRights s who else rightsOver s who (jobPart j)) = false → Ends c s fun t =>
        PtAnswered s t who .ptDenied))

/-- A contained fault of a die tears down every job that uses the die and changes nothing else (R34). -/
def Obligations.DieFaultContained : Prop :=
  ∀ (s : State) (die : Nat), On s →
    Ends (.dieFault die) s fun t => t = { s with jobs := t.jobs } ∧ ∀ j,
      (∀ x, getJob s j = some x → x.clusters.any (fun c => decide (clDie c.1 = die)) = true →
        getJob t j = some { x with ending := if x.ending = none then some (.tornDown, .tornDown) else x.ending }) ∧
      (∀ x, getJob s j = some x → x.clusters.any (fun c => decide (clDie c.1 = die)) = false → getJob t j = some x) ∧
      (getJob s j = none → getJob t j = none)

/-! ## Sessions, messages and attestation -/

/-- The header of a management message of a session. -/
def headerOf : Instr → Option Hdr
  | .read h _ _ => some h
  | .write h _ _ => some h
  | .bulkWrite h _ _ _ => some h
  | .bulkRead h _ _ _ => some h
  | .eventAck h _ => some h
  | .logRead h _ _ _ => some h
  | .traceRead h _ _ => some h
  | .flashWrite h _ _ _ => some h
  | .reset h => some h
  | .close h => some h
  | _ => none

/-- Every message (R399, R429, R430): a wrong MAC or a counter not above the last closes the session and does nothing else to it; a
tag among the kept ones receives its kept reply and is not performed again; what needs package rights ends WN_DENIED without
them; a malformed message is dropped and counted. -/
def Obligations.MessageFrames : Prop :=
  ∀ (s : State) (c : Instr) (h : Hdr) (x : Sess), On s → headerOf c = some h → tabFind h.session s.sc.sessions = some x →
    compState s 8 ≠ 2 →
    ((h.macOk = false ∨ h.counter ≤ x.counter) → Ends c s fun t =>
      tabFind h.session t.sc.sessions = none ∧ t.out = s.out ++ [.outcome (.session h.session) .scSessionMac] ∧ t.mem = s.mem ∧
        t.edge = s.edge ∧ t.jobs = s.jobs ∧ t.tk = s.tk) ∧
    (∀ r, h.macOk = true → x.counter < h.counter → x.replies.find? (fun r => decide (r.1 = h.tag)) = some r → Ends c s fun t =>
      tabFind h.session t.sc.sessions = some { x with counter := h.counter } ∧
        t.out = s.out ++ [.reply h.session h.tag r.2.1 r.2.2] ∧ t.mem = s.mem ∧ t.edge = s.edge ∧ t.jobs = s.jobs ∧ t.tk = s.tk) ∧
    (x.package = false → h.macOk = true → x.counter < h.counter → x.replies.find? (fun r => decide (r.1 = h.tag)) = none →
      ((∃ a b d, c = .logRead h a b d) ∨ (∃ a b, c = .traceRead h a b) ∨ (∃ a b d, c = .flashWrite h a b d) ∨ c = .reset h) →
      Ends c s fun t => t.out = s.out ++ [.reply h.session h.tag .wnDenied []] ∧ t.mem = s.mem ∧ t.edge = s.edge ∧ t.tk = s.tk) ∧
    (ctrVal s .wnDiscards 16 < 2 ^ 64 - 2 → Ends (.malformedMessage h.session) s fun t =>
      ctrVal t .wnDiscards 16 = ctrVal s .wnDiscards 16 + 1 ∧ t.out = s.out ++ [.reply h.session 0#32 .mgmtMsgInvalid []] ∧
        t.sc = s.sc ∧ t.mem = s.mem)

/-- The message is a new one of an open session. -/
def Heard (s : State) (h : Hdr) (x : Sess) : Prop :=
  tabFind h.session s.sc.sessions = some x ∧ compState s 8 ≠ 2 ∧ h.macOk = true ∧ x.counter < h.counter ∧
    x.replies.find? (fun r => decide (r.1 = h.tag)) = none

/-- What the messages do (R405, R430, R431, R462): READ and WRITE answer one word or status for each word, BULK_WRITE and BULK_READ
move bytes of staging and of regions that the session may reach, EVENT_ACK drops the events up to its number, LOG_READ and
TRACE_READ answer the records that the rings hold, FLASH_WRITE programs a device with an image that passes and refuses one that does
not, RESET starts the package again, CLOSE ends the session. -/
def Obligations.Messages : Prop :=
  ∀ (s : State) (h : Hdr) (x : Sess), On s → Heard s h x →
    (∀ off n, 1 ≤ n → n ≤ 128 → Ends (.read h off n) s fun t => t.mem = s.mem ∧ t.jobs = s.jobs ∧ t.units = s.units ∧
      ∃ vs, vs.length = n ∧ Out.reply h.session h.tag .ok vs ∈ t.out) ∧
    (∀ off vs, 1 ≤ vs.length → vs.length ≤ 128 → Ends (.write h off vs) s fun t => t.tk.tick = s.tk.tick ∧ t.edge.power = .running ∧
      ∃ ws, ws.length = vs.length ∧ Out.reply h.session h.tag .ok ws ∈ t.out) ∧
    (∀ off data, x.package = true → 1 ≤ data.length → data.length ≤ 8192 → off + data.length ≤ stagingBytes →
      Ends (.bulkWrite h .staging off data) s fun t => t.mem = memPuts s.mem (bytesAt (stagingKey off) data) ∧ t.jobs = s.jobs ∧
        t.out = s.out ++ [.reply h.session h.tag .ok []]) ∧
    (∀ rd r off data e, regionOf s rd r = some e → 1 ≤ data.length → data.length ≤ 8192 →
      (bulkAllowed s x rd r = true → off + data.length ≤ e.len → e.sealed = false →
        anyFailed s (regionChans rd e (off - off % 64) ((off % 64 + data.length + 63) / 64)) = false →
        Ends (.bulkWrite h (.region rd r) off data) s fun t => t.mem = (writePlace rd r off data s).mem ∧ t.jobs = s.jobs ∧
          t.out = s.out ++ [.reply h.session h.tag .ok []]) ∧
      (bulkAllowed s x rd r = false → Ends (.bulkWrite h (.region rd r) off data) s fun t => t.mem = s.mem ∧
          t.out = s.out ++ [.reply h.session h.tag .wnDenied []])) ∧
    (∀ off n, x.package = true → 1 ≤ n → n ≤ 8192 → off + n ≤ stagingBytes →
      Ends (.bulkRead h .staging off n) s fun t => t.mem = s.mem ∧
        t.out = s.out ++ [.reply h.session h.tag .ok (packWords (memBytes s.mem (stagingKey off) n))]) ∧
    (∀ rd r off n e bs, regionOf s rd r = some e → bulkAllowed s x rd r = true → 1 ≤ n → n ≤ 8192 → off + n ≤ e.len →
      readPlace s ⟨rd, r, off⟩ n = .ok bs →
      Ends (.bulkRead h (.region rd r) off n) s fun t => t.mem = s.mem ∧ t.out = s.out ++ [.reply h.session h.tag .ok (packWords bs)]) ∧
    (∀ q, Ends (.eventAck h q) s fun t => t.mem = s.mem ∧ t.out = s.out ++ [.reply h.session h.tag .ok []] ∧
      (tabFind h.session t.sc.sessions).map (·.events) = some (x.events.filter fun e => decide (q < e.1))) ∧
    (∀ ring first n, x.package = true → ring < 64 → 1 ≤ n → n ≤ 128 → Ends (.logRead h ring first n) s fun t => t.mem = s.mem ∧
      ∃ ws, t.out = s.out ++ [.reply h.session h.tag .ok ws] ∧ ws.length ≤ 8 * n) ∧
    (∀ first n, x.package = true → 1 ≤ n → n ≤ 256 → Ends (.traceRead h first n) s fun t => t.mem = s.mem ∧
      ∃ ws, t.out = s.out ++ [.reply h.session h.tag .ok ws] ∧ ws.length ≤ 4 * n) ∧
    (∀ d b, x.package = true → d < 2 → bootCheck s (some b) = .ok →
      (Ends (.flashWrite h d b true) s fun t => (if d = 0 then t.edge.flash0 else t.edge.flash1) = some b ∧
        (if d = 0 then t.edge.flash1 = s.edge.flash1 else t.edge.flash0 = s.edge.flash0) ∧ t.mem = s.mem ∧
        t.out = s.out ++ [.flashed d, .reply h.session h.tag .ok []]) ∧
      (Ends (.flashWrite h d b false) s fun t => (if d = 0 then t.edge.flash1 = s.edge.flash1 else t.edge.flash0 = s.edge.flash0) ∧
        t.mem = s.mem ∧ t.out = s.out ++ [.reply h.session h.tag .flashWriteFailed []])) ∧
    (∀ d b ok, x.package = true → d < 2 → bootCheck s (some b) ≠ .ok → Ends (.flashWrite h d b ok) s fun t =>
      (if d = 0 then t.edge.flash1 = s.edge.flash1 else t.edge.flash0 = s.edge.flash0) ∧ t.mem = s.mem ∧
        t.out = s.out ++ [.reply h.session h.tag .flashWriteFailed []]) ∧
    (x.package = true → Ends (.reset h) s fun t => t.edge.power = .released ∧ t.edge.rstN = true ∧ t.tk.tick = 0 ∧ t.jobs = [] ∧
      t.sc.sessions = [] ∧ t.fuses.repair = s.fuses.repair ∧ t.edge.flash0 = s.edge.flash0 ∧
      t.out = s.out ++ [.reply h.session h.tag .ok []]) ∧
    (Ends (.close h) s fun t => tabFind h.session t.sc.sessions = none ∧ t.mem = s.mem ∧
      t.jobs = s.jobs ∧ t.out = s.out ++ [.reply h.session h.tag .ok []])

/-- SC_ATTEST_STATUS.LAST of a view: the package's for view 16. -/
def attestLastOf (s : State) (view : Nat) : Status := if view < 16 then (getPart s view).attestLast else s.wn.attestLast

/-- The opening and end of sessions (R399): a HELLO is answered with a challenge unless a lock-out or a full table stands; a PROVE
whose signature verifies opens a session with the rights of its key, one that fails is counted, and the eighth failure in a row
locks; 600 s without a message end a session; 60 s end a lock-out. A key that is not listed opens nothing and counts as a failure.

Attestation (R400): a request for a buffer that the rules admit waits with its nonce, a session's own or that of the cores' buffer,
while its share has room; else it is refused and its view shows the status; the report served is the 512 bytes of R400 in the
buffer. -/
def Obligations.SessionsAndAttestation : Prop :=
  (∀ (s : State) (k : Nat), On s → scServes s = true → sessKey s k = none → ∀ qc ok, s.sc.authLocked = false →
      ∀ c, c = Instr.hello k qc ∨ c = .prove k ok → Ends c s fun t => t.sc.failures = s.sc.failures + 1 ∧
        t.sc.sessions = s.sc.sessions ∧ t.out = s.out ++ [.authFailed .scAuthFailed] ∧ t.mem = s.mem) ∧
  (∀ (s : State) (k : Nat) (key : SessKey), On s → scServes s = true → sessKey s k = some key →
      (∀ qc, s.sc.authLocked = false → (freeSession s).isSome = true → Ends (.hello k qc) s fun t =>
        t.sc = { s.sc with draws := s.sc.draws + 1, opening := s.sc.opening ++ [k] } ∧ t.out.length = s.out.length + 1 ∧ t.mem = s.mem) ∧
      (∀ qc, s.sc.authLocked = true → exec (.hello k qc) s = .next { s with out := s.out ++ [.authFailed .scAuthLocked] }) ∧
      (∀ qc, s.sc.authLocked = false → freeSession s = none →
        exec (.hello k qc) s = .next { s with out := s.out ++ [.authFailed .scSessionFull] }) ∧
      (∀ n, s.sc.opening.contains k = true → freeSession s = some n → Ends (.prove k true) s fun t =>
        (∃ x, tabFind n t.sc.sessions = some x ∧ x.package = key.package ∧ x.mask = key.mask ∧ x.counter = 0 ∧ x.keyIndex = k) ∧
          (∀ m, m ≠ n → tabFind m t.sc.sessions = tabFind m s.sc.sessions) ∧ t.sc.failures = 0 ∧
          t.out = s.out ++ [.accepted n]) ∧
      (s.sc.opening.contains k = true → Ends (.prove k false) s fun t => t.sc.failures = s.sc.failures + 1 ∧
          t.sc.authLocked = (s.sc.authLocked || decide (8 ≤ s.sc.failures + 1)) ∧ t.sc.sessions = s.sc.sessions ∧
          t.out = s.out ++ [.authFailed .scAuthFailed]) ∧
      (∀ n, (tabFind n s.sc.sessions).isSome = true → Ends (.scSessionIdle n) s fun t => tabFind n t.sc.sessions = none ∧
          (∀ m, m ≠ n → tabFind m t.sc.sessions = tabFind m s.sc.sessions) ∧
          t.out = s.out ++ [.outcome (.session n) .scSessionIdle]) ∧
      (exec .scAuthLockEnd s = .next { s with sc := { s.sc with authLocked := false, failures := 0 } })) ∧
  (∀ (s : State), On s →
      (∀ (who : Who) (v : W64) nonce, windowUp s who = true → compState s 1 ≠ 2 → compState s 2 ≠ 2 → viewOf s who ≤ 16 →
        (∀ p, attestBuffer s (viewOf s who) (fld v 50 48) (fld v 47 0) = .ok p → attestRoom s (viewOf s who) = true →
          (∀ k, who = .session k → Ends (.scAttestReq who v nonce) s fun t => t.mem = s.mem ∧ t.jobs = s.jobs ∧
            ∃ m, t.sc.attest = s.sc.attest ++ [(viewOf s who, fld v 50 48, fld v 47 0, m)] ∧ (nonce.length = 48 → m = nonce)) ∧
          (∀ k bs, who = .cores k → readPlace s ⟨fld v 50 48, p.1, p.2 + 16⟩ 48 = .ok bs →
            Ends (.scAttestReq who v nonce) s fun t => t.mem = s.mem ∧ t.jobs = s.jobs ∧
              t.sc.attest = s.sc.attest ++ [(viewOf s who, fld v 50 48, fld v 47 0, bs)]) ∧
          (∀ k st, who = .cores k → readPlace s ⟨fld v 50 48, p.1, p.2 + 16⟩ 48 = .error st →
            Ends (.scAttestReq who v nonce) s fun t => t.sc.attest = s.sc.attest ∧ attestLastOf t (viewOf s who) = st ∧ t.mem = s.mem)) ∧
        (∀ p, attestBuffer s (viewOf s who) (fld v 50 48) (fld v 47 0) = .ok p → attestRoom s (viewOf s who) = false →
          Ends (.scAttestReq who v nonce) s fun t => t.sc = s.sc ∧ attestLastOf t (viewOf s who) = .scBusy ∧ t.mem = s.mem) ∧
        (∀ st, attestBuffer s (viewOf s who) (fld v 50 48) (fld v 47 0) = .error st →
          Ends (.scAttestReq who v nonce) s fun t => t.sc = s.sc ∧ attestLastOf t (viewOf s who) = st ∧ t.mem = s.mem)) ∧
      (∀ share rd buf nonce rest, scServes s = true → s.sc.attest = (share, rd, buf, nonce) :: rest →
        (∀ h off, attestBuffer s share rd buf = .ok (h, off) → Ends .attestReport s fun t => t.sc = { s.sc with attest := rest } ∧
          t.mem = (writePlace rd h off (reportBytes s share nonce) s).mem ∧ t.jobs = s.jobs) ∧
        (∀ st, attestBuffer s share rd buf = .error st → Ends .attestReport s fun t => t.sc = { s.sc with attest := rest } ∧
          t.mem = s.mem)))

/-! ## Firmware components and start-up -/

/-- Hot updates, faults and restarts of components (R417 to R420): a request with package rights whose staged image passes the checks
waits for its tick, one that fails shows its status, and one without the rights changes nothing; an update comes into force at
the boundary before its tick, unless its component faults in the tick of that boundary; a component restarts after a fault, and the
third fault in 4,096 ticks makes it FAILED, with every job torn down for components 3 to 8; a control core's fault takes its
cluster's job down, and its restart zeroes the pool. -/
def Obligations.Components : Prop :=
  ∀ (s : State), On s →
    (∀ (who : Who) (v : W64) sig, windowUp s who = true →
      (packageRights s who = true → hotStatus s (fld v 3 0) (fld v 63 8) (stagedHot sig s) = .ok → Ends (.wnHotReq who v sig) s fun t =>
        t.wn.hot = some ⟨fld v 3 0, fld v 63 8, stagedHot sig s⟩ ∧ t.wn.hotLast = .ok ∧ t.wn.comps = s.wn.comps ∧ t.mem = s.mem ∧
          t.jobs = s.jobs) ∧
      (packageRights s who = true → hotStatus s (fld v 3 0) (fld v 63 8) (stagedHot sig s) ≠ .ok → Ends (.wnHotReq who v sig) s fun t =>
        t.wn.hot = s.wn.hot ∧ t.wn.hotLast = hotStatus s (fld v 3 0) (fld v 63 8) (stagedHot sig s) ∧ t.wn.comps = s.wn.comps ∧
          t.mem = s.mem) ∧
      (packageRights s who = false → Ends (.wnHotReq who v sig) s fun t => t.wn.hot = s.wn.hot ∧ t.wn.hotLast = s.wn.hotLast ∧
        t.wn.comps = s.wn.comps ∧ t.mem = s.mem)) ∧
    (∀ h, s.wn.hot = some h → afterWork s = true → h.tickAt ≤ s.tk.tick + 1 →
      ((h.component ≠ 9 → (getComp s h.component).faults.contains s.tk.tick = false) → Ends .hotSwitch s fun t =>
        t.wn.hot = none ∧ t.wn.hotLast = .ok ∧ (getComp t h.component).version = h.image.version ∧
          (getComp t h.component).stateVersion = h.image.stateOut ∧ (getComp t h.component).digest = h.image.digest ∧
          (∀ c, c ≠ h.component → getComp t c = getComp s c) ∧ t.mem = s.mem ∧ t.jobs = s.jobs) ∧
      (h.component ≠ 9 → (getComp s h.component).faults.contains s.tk.tick = true →
        exec .hotSwitch s = .next { s with wn := { s.wn with hot := none, hotLast := .hotAborted } })) ∧
    (∀ c i, 1 ≤ c → c ≤ 8 → (getComp s c).state = 0 →
      ((recentFaults s.tk.tick (getComp s c).faults).length < 2 → Ends (.componentFault c i) s fun t => (getComp t c).state = 1 ∧
        t.jobs = s.jobs ∧ t.mem = s.mem ∧ t.clusters = s.clusters) ∧
      (2 ≤ (recentFaults s.tk.tick (getComp s c).faults).length → Ends (.componentFault c i) s fun t => (getComp t c).state = 2 ∧
        t.mem = s.mem ∧ t.clusters = s.clusters ∧ (3 ≤ c → ∀ j x, getJob s j = some x → (getJob t j).any (·.ending.isSome) = true) ∧
        (c < 3 → t.jobs = s.jobs))) ∧
    (∀ cl cls p j x, cl < 1792 → (getCore s cl).state = 0 → (getCl s cl).owner = some (cls, p, j) → getJob s j = some x →
      Ends (.componentFault 9 cl) s fun t => (getCl t cl).coreDown = true ∧ (getJob t j).any (·.ending.isSome) = true ∧
        (∀ k, k ≠ j → getJob t k = getJob s k) ∧ t.mem = s.mem ∧ (∀ c, c ≠ cl → getCl t c = getCl s c)) ∧
    (afterWork s = true →
      (∀ c i, c ≠ 9 → (getComp s c).state = 1 → Ends (.componentRestart c i) s fun t => (getComp t c).state = 3 ∧ t.mem = s.mem ∧
        t.jobs = s.jobs ∧ (∀ k, k ≠ c → getComp t k = getComp s k)) ∧
      (∀ cl, (getCore s cl).state = 1 → Ends (.componentRestart 9 cl) s fun t => (getCore t cl).state = 3 ∧ t.jobs = s.jobs ∧
        (∀ i, i < 0x400000 → memByte t.mem (poolKey cl i) = 0#8)))

/-- Status of a boot image as start-up finds it: R408's, and where those checks pass that of its second reading (R408, R409). -/
def imageStatus (s : State) (x : Option BootImage) (reread : Bool) : Status :=
  if bootCheck s x = .ok ∧ reread = false then .bootImageInvalid else bootCheck s x

/-- Start-up (R408, R409, R410): from the release of RST_N the primary image, or after a failure of its checks or its second reading the
recovery image, starts tick 0 with its table, ports and setting; with neither the package enters boot service and shows both
statuses; a die or a device that fails leads to boot service at once. Outside it START_UP changes nothing. -/
def Obligations.StartUp : Prop :=
  ∀ (s : State) (env : StartEnv),
    (s.edge.power = .released → env.deadDies = [] → env.deadDevices = [] →
      (∀ b, s.edge.flash0 = some b → imageStatus s (some b) env.reread0 = .ok → Ends (.startUp env) s fun t =>
        t.edge.power = .running ∧ t.tk.tick = 0 ∧ t.tk.phase = .step ∧ t.tk.cfg = imgCfg b ∧ t.sq.ports = imgPorts b ∧
          t.wn.stage = 10 ∧ t.wn.image = 0 ∧ t.wn.service = false ∧ t.wn.primary = .ok ∧ t.pt.chans = b.chans ∧ t.wn.pkg = b.pkg ∧
          (∀ p, ptEntry t p = bootEntry (tabGet 0#1024 b.parts p))) ∧
      (∀ b, imageStatus s s.edge.flash0 env.reread0 ≠ .ok → s.edge.flash1 = some b → imageStatus s (some b) env.reread1 = .ok →
        Ends (.startUp env) s fun t => t.edge.power = .running ∧ t.tk.tick = 0 ∧ t.tk.phase = .step ∧ t.tk.cfg = imgCfg b ∧
          t.sq.ports = imgPorts b ∧ t.wn.image = 1 ∧ t.wn.service = false ∧ t.pt.chans = b.chans ∧ t.wn.pkg = b.pkg ∧
          t.wn.primary = imageStatus s s.edge.flash0 env.reread0 ∧
          (∀ p, ptEntry t p = bootEntry (tabGet 0#1024 b.parts p))) ∧
      (imageStatus s s.edge.flash0 env.reread0 ≠ .ok → imageStatus s s.edge.flash1 env.reread1 ≠ .ok →
        Ends (.startUp env) s fun t => t.edge.power = .service ∧ t.wn.service = true ∧ t.tk = s.tk ∧
          t.wn.primary = imageStatus s s.edge.flash0 env.reread0 ∧ t.wn.recovery = imageStatus s s.edge.flash1 env.reread1)) ∧
    (∀ b, s.edge.power = .released → s.edge.flash0 = some b → bootCheck s (some b) = .ok →
      (env.deadDies ≠ [] → Ends (.startUp env) s fun t => t.edge.power = .service ∧ t.wn.service = true ∧
        t.wn.primary = .bootDieFailed ∧ t.tk = s.tk) ∧
      (env.deadDies = [] → env.deadDevices ≠ [] → Ends (.startUp env) s fun t => t.edge.power = .service ∧ t.wn.service = true ∧
        t.wn.primary = .bootMemoryFailed ∧ t.tk = s.tk)) ∧
    (s.edge.power ≠ .released → exec (.startUp env) s = .next s)

/-- At tick 0 of an image of a higher security version the fuse count rises to it, and no image of a lower version passes from then
on (R412). -/
def Obligations.SecurityVersionRises : Prop :=
  ∀ (s : State) (env : StartEnv) (b : BootImage), s.edge.power = .released → env.deadDies = [] → env.deadDevices = [] →
    s.edge.flash0 = some b → bootCheck s (some b) = .ok → env.reread0 = true → s.fuses.securityVersion < b.securityVersion →
    b.securityVersion ≤ 64 →
    Ends (.startUp env) s fun t => t.fuses.securityVersion = b.securityVersion ∧
      ∀ b', b'.securityVersion < b.securityVersion → bootCheck t (some b') ≠ .ok

/-- Boot service (R411): only a key whose hash is that of an unrevoked root key is heard; it is served reads of the WN block, bulk
writes to staging, flash programming and reset; every other message ends WN_DENIED. -/
def Obligations.BootService : Prop :=
  ∀ (s : State) (k : Nat), s.edge.power = .service →
    (∀ m, rootKnown s k = false → Ends (.bootService k m) s fun t => t.out = s.out ++ [.authFailed .scAuthFailed] ∧ t.mem = s.mem ∧
      t.edge = s.edge ∧ t.wn = s.wn) ∧
    (rootKnown s k = true →
      (∀ off n, 1 ≤ n → n ≤ 128 → off % 8 = 0 → off + 8 * n ≤ 0x100000 → Ends (.bootService k (.readWn off n)) s fun t =>
        ∃ ws, ws.length = n ∧ t = { s with out := s.out ++ [.reply 0 0#32 .ok ws] }) ∧
      (∀ off data, 1 ≤ data.length → data.length ≤ 8192 → off + data.length ≤ stagingBytes →
        Ends (.bootService k (.bulkWriteStaging off data)) s fun t => t.mem = memPuts s.mem (bytesAt (stagingKey off) data) ∧
          t.out = s.out ++ [.reply 0 0#32 .ok []] ∧ t.edge = s.edge) ∧
      (∀ d b, d < 2 → bootCheck s (some b) = .ok → Ends (.bootService k (.flashWrite d b true)) s fun t =>
        (if d = 0 then t.edge.flash0 else t.edge.flash1) = some b ∧ t.edge.power = .service ∧
          t.out = s.out ++ [.flashed d, .reply 0 0#32 .ok []]) ∧
      (Ends (.bootService k .reset) s fun t => t.edge.power = .released ∧ t.edge.rstN = true ∧ t.edge.flash0 = s.edge.flash0) ∧
      exec (.bootService k .other) s = .next { s with out := s.out ++ [.reply 0 0#32 .wnDenied []] })

/-! ## Numbers -/

/-- Subnormal inputs are exact in BF4, E4M3, E5M2, FP16 and FP32; a BF16 code whose exponent field is 0 is zero of its sign (R50,
R52). -/
def Obligations.SubnormalInputs : Prop :=
  (∀ sg f, sg < 2 → f < 2 → decElem 0 (8 * sg + f) = .fin (sg == 1) f (-1)) ∧
  (∀ sg f, sg < 2 → f < 8 → decElem 2 (128 * sg + f) = .fin (sg == 1) f (-9)) ∧
  (∀ sg f, sg < 2 → f < 4 → decElem 3 (128 * sg + f) = .fin (sg == 1) f (-16)) ∧
  (∀ sg f, sg < 2 → f < 1024 → decElem 6 (32768 * sg + f) = .fin (sg == 1) f (-24)) ∧
  (∀ sg f, sg < 2 → f < 2 ^ 23 → decElem 7 (2 ^ 31 * sg + f) = .fin (sg == 1) f (-149)) ∧
  (∀ sg f, sg < 2 → f < 128 → decElem 5 (32768 * sg + f) = .fin (sg == 1) 0 0)

/-- The one-bit rule of lane-row writeback (R148): below a quarter down, above three quarters up, between them by the bit; the mean
over the bit differs from the exact value n / d by at most a quarter, and by nothing when the discarded part is 0 or a half. -/
def Obligations.OneBitRounding : Prop :=
  ∀ (n d : Nat), 0 < d →
    (∀ b, (4 * (n % d) < d → roundRatio (.oneBit b) n d = n / d) ∧ (3 * d < 4 * (n % d) → roundRatio (.oneBit b) n d = n / d + 1) ∧
      (d ≤ 4 * (n % d) → 4 * (n % d) ≤ 3 * d → roundRatio (.oneBit b) n d = if b then n / d + 1 else n / d)) ∧
    2 * (d * (roundRatio (.oneBit true) n d + roundRatio (.oneBit false) n d)) ≤ 4 * n + d ∧
    4 * n ≤ 2 * (d * (roundRatio (.oneBit true) n d + roundRatio (.oneBit false) n d)) + d ∧
    ((n % d = 0 ∨ 2 * (n % d) = d) → d * (roundRatio (.oneBit true) n d + roundRatio (.oneBit false) n d) = 2 * n)
end

