-- ==== Sys2Proof/Laws/Tab.lean ====
section
/-!
SUPPORT. What the table operations do: a read after a write gives the value written at its key and the old value at every
other, and rising keys stay rising.
-/

namespace Sys2Proof.Machine

@[simp] theorem tabFind_tabIns_self {α : Type} (k : Nat) (v : α) : (t : Tab α) → tabFind k (tabIns k v t) = some v
  | [] => by simp [tabIns, tabFind]
  | (j, w) :: t => by
    by_cases h : k < j
    · simp [tabIns, tabFind, h]
    · by_cases e : k = j
      · simp [tabIns, tabFind, e]
      · simp [tabIns, tabFind, h, e, Ne.symm e, tabFind_tabIns_self k v t]

theorem tabFind_tabIns_ne {α : Type} {k m : Nat} (v : α) (h : m ≠ k) : (t : Tab α) → tabFind m (tabIns k v t) = tabFind m t
  | [] => by simp [tabIns, tabFind, Ne.symm h]
  | (j, w) :: t => by
    by_cases l : k < j
    · simp [tabIns, tabFind, l, Ne.symm h]
    · by_cases e : k = j
      · subst e
        simp [tabIns, tabFind, Ne.symm h]
      · simp [tabIns, tabFind, l, e, tabFind_tabIns_ne v h t]

theorem tabFind_tabDel_ne {α : Type} {k m : Nat} (h : m ≠ k) : (t : Tab α) → tabFind m (tabDel k t) = tabFind m t
  | [] => rfl
  | (j, w) :: t => by
    by_cases e : j = k
    · subst e
      simp [tabDel, tabFind, Ne.symm h, tabFind_tabDel_ne h t]
    · simp [tabDel, tabFind, e, tabFind_tabDel_ne h t]

/-- Below the keys of a rising table there is no entry. -/
theorem tabFind_below {α : Type} {k : Nat} : {lo : Nat} → {t : Tab α} → tabSorted (some lo) t = true → k ≤ lo → tabFind k t = none
  | _, [], _, _ => rfl
  | lo, (j, w) :: t, h, le => by
    have h' : lo < j ∧ tabSorted (some j) t = true := by simpa [tabSorted] using h
    have ne : j ≠ k := by omega
    simp [tabFind, ne, tabFind_below h'.2 (by omega : k ≤ j)]

theorem tabSorted_weaken {α : Type} {t : Tab α} {a b : Nat} (h : tabSorted (some b) t = true) (le : a ≤ b) :
    tabSorted (some a) t = true := by
  cases t with
  | nil => rfl
  | cons e t =>
    obtain ⟨j, w⟩ := e
    have h' : b < j ∧ tabSorted (some j) t = true := by simpa [tabSorted] using h
    have : a < j := by omega
    simp [tabSorted, this, h'.2]

theorem tabSorted_none {α : Type} {t : Tab α} {a : Nat} (h : tabSorted (some a) t = true) : tabSorted none t = true := by
  cases t with
  | nil => rfl
  | cons e t =>
    obtain ⟨j, w⟩ := e
    have h' : a < j ∧ tabSorted (some j) t = true := by simpa [tabSorted] using h
    simp [tabSorted, h'.2]

theorem tabSorted_tabIns_some {α : Type} {k : Nat} (v : α) : {a : Nat} → {t : Tab α} → tabSorted (some a) t = true → a < k →
    tabSorted (some a) (tabIns k v t) = true
  | a, [], _, l => by simp [tabIns, tabSorted, l]
  | a, (j, w) :: t, h, l => by
    have h' : a < j ∧ tabSorted (some j) t = true := by simpa [tabSorted] using h
    by_cases lt : k < j
    · simp [tabIns, tabSorted, lt, l, h'.2]
    · by_cases e : k = j
      · subst e
        simp [tabIns, tabSorted, l, h'.2]
      · have := tabSorted_tabIns_some v h'.2 (by omega : j < k)
        simp [tabIns, tabSorted, lt, e, h'.1, this]

theorem tabSorted_tabIns {α : Type} (k : Nat) (v : α) {t : Tab α} (h : tabSorted none t = true) :
    tabSorted none (tabIns k v t) = true := by
  cases t with
  | nil => rfl
  | cons e t =>
    obtain ⟨j, w⟩ := e
    have h' : tabSorted (some j) t = true := by simpa [tabSorted] using h
    by_cases lt : k < j
    · simp [tabIns, tabSorted, lt, h']
    · by_cases e : k = j
      · subst e
        simp [tabIns, tabSorted, h']
      · have := tabSorted_tabIns_some v h' (by omega : j < k)
        simp [tabIns, tabSorted, lt, e, this]

theorem tabSorted_tabDel_some {α : Type} {k : Nat} : {a : Nat} → {t : Tab α} → tabSorted (some a) t = true →
    tabSorted (some a) (tabDel k t) = true
  | _, [], _ => rfl
  | a, (j, w) :: t, h => by
    have h' : a < j ∧ tabSorted (some j) t = true := by simpa [tabSorted] using h
    by_cases e : j = k
    · simpa [tabDel, e] using tabSorted_tabDel_some (tabSorted_weaken h'.2 (Nat.le_of_lt h'.1))
    · simp [tabDel, tabSorted, e, h'.1, tabSorted_tabDel_some h'.2]

theorem tabSorted_tabDel {α : Type} (k : Nat) {t : Tab α} (h : tabSorted none t = true) : tabSorted none (tabDel k t) = true := by
  cases t with
  | nil => rfl
  | cons e t =>
    obtain ⟨j, w⟩ := e
    have h' : tabSorted (some j) t = true := by simpa [tabSorted] using h
    by_cases e : j = k
    · simpa [tabDel, e] using tabSorted_none (tabSorted_tabDel_some (k := k) h')
    · simp [tabDel, tabSorted, e, tabSorted_tabDel_some h']

/-- A deleted key is gone. -/
@[simp] theorem tabFind_tabDel_self {α : Type} (k : Nat) : (t : Tab α) → tabFind k (tabDel k t) = none
  | [] => rfl
  | (j, w) :: t => by
    by_cases e : j = k
    · simp [tabDel, e, tabFind_tabDel_self k t]
    · simp [tabDel, tabFind, e, tabFind_tabDel_self k t]

theorem mem_tabIns {α : Type} {k : Nat} {v : α} {e : Nat × α} : {t : Tab α} → e ∈ tabIns k v t → e = (k, v) ∨ e ∈ t
  | [], h => by simpa [tabIns] using h
  | (j, w) :: t, h => by
    by_cases l : k < j
    · simpa [tabIns, l] using h
    · by_cases q : k = j
      · have : e = (k, v) ∨ e ∈ t := by simpa [tabIns, l, q] using h
        rcases this with r | r
        · exact .inl r
        · exact .inr (List.mem_cons_of_mem _ r)
      · have : e = (j, w) ∨ e ∈ tabIns k v t := by simpa [tabIns, l, q] using h
        rcases this with r | r
        · exact .inr (by simp [r])
        · rcases mem_tabIns r with z | z
          · exact .inl z
          · exact .inr (List.mem_cons_of_mem _ z)

theorem mem_tabDel {α : Type} {k : Nat} {e : Nat × α} : {t : Tab α} → e ∈ tabDel k t → e ∈ t
  | [], h => h
  | (j, w) :: t, h => by
    by_cases q : j = k
    · exact List.mem_cons_of_mem _ (mem_tabDel (by simpa [tabDel, q] using h))
    · have : e = (j, w) ∨ e ∈ tabDel k t := by simpa [tabDel, q] using h
      rcases this with r | r
      · simp [r]
      · exact List.mem_cons_of_mem _ (mem_tabDel r)

/-- Writing a table kept against a default keeps its canonical form. -/
theorem tabCanon_tabSet {α : Type} [DecidableEq α] {d : α} {t : Tab α} (h : tabCanon d t = true) (k : Nat) (v : α) :
    tabCanon d (tabSet d t k v) = true := by
  obtain ⟨hs, ha⟩ : tabSorted none t = true ∧ ∀ a b, (a, b) ∈ t → ¬b = d := by simpa [tabCanon] using h
  unfold tabSet
  split
  · simpa [tabCanon, tabSorted_tabDel k hs] using fun a b m => ha a b (mem_tabDel m)
  · rename_i ne
    simp only [tabCanon, tabSorted_tabIns k v hs, Bool.true_and, List.all_eq_true, decide_eq_true_eq]
    rintro ⟨a, b⟩ m
    rcases mem_tabIns m with r | r
    · simpa [Prod.mk.injEq] using (Prod.mk.inj r).2 ▸ ne
    · exact ha a b r

theorem tabSorted_filter_some {α : Type} (p : Nat × α → Bool) : {a : Nat} → {t : Tab α} → tabSorted (some a) t = true →
    tabSorted (some a) (t.filter p) = true
  | _, [], _ => rfl
  | a, (j, w) :: t, h => by
    have h' : a < j ∧ tabSorted (some j) t = true := by simpa [tabSorted] using h
    have ih := tabSorted_filter_some p h'.2
    by_cases q : p (j, w) = true
    · simp [List.filter, q, tabSorted, h'.1, ih]
    · simpa [List.filter, q] using tabSorted_weaken ih (Nat.le_of_lt h'.1)

theorem tabSorted_filter {α : Type} (p : Nat × α → Bool) {t : Tab α} (h : tabSorted none t = true) :
    tabSorted none (t.filter p) = true := by
  cases t with
  | nil => rfl
  | cons e t =>
    obtain ⟨j, w⟩ := e
    have h' : tabSorted (some j) t = true := by simpa [tabSorted] using h
    have ih := tabSorted_filter_some p h'
    by_cases q : p (j, w) = true
    · simp [List.filter, q, tabSorted, ih]
    · simpa [List.filter, q] using tabSorted_none ih

/-- The value read after a write of a table kept against a default. -/
theorem tabGet_tabSet {α : Type} [DecidableEq α] (d : α) (t : Tab α) (k m : Nat) (v : α) :
    tabGet d (tabSet d t k v) m = if m = k then v else tabGet d t m := by
  unfold tabGet tabSet
  split
  · rename_i e
    by_cases q : m = k
    · subst q
      simp [e]
    · simp [tabFind_tabDel_ne q, q]
  · by_cases q : m = k
    · subst q
      simp
    · simp [tabFind_tabIns_ne v q, q]

@[simp] theorem tabGet_tabIns_self {α : Type} (d : α) (t : Tab α) (k : Nat) (v : α) : tabGet d (tabIns k v t) k = v := by
  simp [tabGet]

theorem tabGet_tabIns_ne {α : Type} (d : α) (t : Tab α) {k m : Nat} (v : α) (h : m ≠ k) :
    tabGet d (tabIns k v t) m = tabGet d t m := by
  simp [tabGet, tabFind_tabIns_ne v h]

end Sys2Proof.Machine
end

