-- ==== Sys2Proof/Laws/Memory.lean ====
section
/-!
SUPPORT. The byte stores: every operation keeps their canonical form, and a read after a write gives what was written.
-/

namespace Sys2Proof.Machine

theorem memPut_wf {m : List Host.Cell} (h : Memory.wf m = true) (k : Nat) (b : Byte) : Memory.wf (memPut m k b) = true :=
  tabCanon_tabSet h k b

theorem memPuts_wf (ws : List (Nat × Byte)) : ∀ {m : List Host.Cell}, Memory.wf m = true → Memory.wf (memPuts m ws) = true := by
  induction ws with
  | nil => exact fun h => h
  | cons w ws ih => exact fun h => ih (memPut_wf h w.1 w.2)

theorem memZero_wf {m : List Host.Cell} (h : Memory.wf m = true) (k n : Nat) : Memory.wf (memZero m k n) = true := by
  obtain ⟨hs, ha⟩ : tabSorted none m = true ∧ ∀ a b, (a, b) ∈ m → ¬b = memDefault := by
    simpa [Memory.wf, tabCanon] using h
  simp only [Memory.wf, tabCanon, memZero, tabSorted_filter _ hs, Bool.true_and, List.all_eq_true, decide_eq_true_eq]
  rintro ⟨a, b⟩ mem
  exact ha a b (List.mem_filter.mp mem).1

theorem wf_sorted {m : List Host.Cell} (h : Memory.wf m = true) : tabSorted none m = true := by
  simpa using (Bool.and_eq_true _ _ ▸ h : _ ∧ _).1

theorem memByte_memPut (m : List Host.Cell) (k j : Nat) (b : Byte) :
    memByte (memPut m k b) j = if j = k then b else memByte m j :=
  tabGet_tabSet memDefault m k j b

/-- A byte at none of the keys written reads as before. -/
theorem memByte_memPuts_other {j : Nat} (ws : List (Nat × Byte)) : ∀ (m : List Host.Cell),
    (∀ w ∈ ws, w.1 ≠ j) → memByte (memPuts m ws) j = memByte m j := by
  induction ws with
  | nil => exact fun _ _ => rfl
  | cons w ws ih =>
    intro m ne
    have h1 : j ≠ w.1 := fun e => ne w (by simp) e.symm
    have := ih (memPut m w.1 w.2) fun x hx => ne x (List.mem_cons_of_mem _ hx)
    simpa [memPuts, memByte_memPut, h1] using this

@[simp] theorem memPuts_nil (m : List Host.Cell) : memPuts m [] = m := rfl

theorem memPuts_append (m : List Host.Cell) (a b : List (Nat × Byte)) : memPuts m (a ++ b) = memPuts (memPuts m a) b := by
  simp [memPuts, List.foldl_append]

@[simp] theorem memBytes_length (m : List Host.Cell) (k n : Nat) : (memBytes m k n).length = n := by simp [memBytes]

theorem putMem_wf {s : State} (h : Memory.wf s.mem = true) (ws : List (Nat × Byte)) : Memory.wf (putMem ws s).mem = true :=
  memPuts_wf ws h

theorem zeroMem_wf {s : State} (h : Memory.wf s.mem = true) (k n : Nat) : Memory.wf (zeroMem k n s).mem = true :=
  memZero_wf h k n

end Sys2Proof.Machine
end

