-- ==== Sys2Proof/Laws/State.lean ====
section
/-!
SUPPORT. One lemma for each field of State and each of the updates that the meanings are built from.
-/

namespace Sys2Proof.Machine

/-! ## setCl -/

@[simp] theorem setCl_pending (cl : Nat) (c : Cluster) (s : State) : (setCl cl c s).pending = s.pending := rfl
@[simp] theorem setCl_free (cl : Nat) (c : Cluster) (s : State) : (setCl cl c s).free = s.free := rfl
@[simp] theorem setCl_out (cl : Nat) (c : Cluster) (s : State) : (setCl cl c s).out = s.out := rfl
@[simp] theorem setCl_mem (cl : Nat) (c : Cluster) (s : State) : (setCl cl c s).mem = s.mem := rfl
@[simp] theorem setCl_ctrs (cl : Nat) (c : Cluster) (s : State) : (setCl cl c s).ctrs = s.ctrs := rfl
@[simp] theorem setCl_ovfs (cl : Nat) (c : Cluster) (s : State) : (setCl cl c s).ovfs = s.ovfs := rfl
@[simp] theorem setCl_fuses (cl : Nat) (c : Cluster) (s : State) : (setCl cl c s).fuses = s.fuses := rfl
@[simp] theorem setCl_edge (cl : Nat) (c : Cluster) (s : State) : (setCl cl c s).edge = s.edge := rfl
@[simp] theorem setCl_tk (cl : Nat) (c : Cluster) (s : State) : (setCl cl c s).tk = s.tk := rfl
@[simp] theorem setCl_units (cl : Nat) (c : Cluster) (s : State) : (setCl cl c s).units = s.units := rfl
@[simp] theorem setCl_clusters (cl : Nat) (c : Cluster) (s : State) : (setCl cl c s).clusters = tabIns cl c s.clusters := rfl
@[simp] theorem setCl_repairFull (cl : Nat) (c : Cluster) (s : State) : (setCl cl c s).repairFull = s.repairFull := rfl
@[simp] theorem setCl_maint (cl : Nat) (c : Cluster) (s : State) : (setCl cl c s).maint = s.maint := rfl
@[simp] theorem setCl_mt (cl : Nat) (c : Cluster) (s : State) : (setCl cl c s).mt = s.mt := rfl
@[simp] theorem setCl_gen (cl : Nat) (c : Cluster) (s : State) : (setCl cl c s).gen = s.gen := rfl
@[simp] theorem setCl_lrn (cl : Nat) (c : Cluster) (s : State) : (setCl cl c s).lrn = s.lrn := rfl
@[simp] theorem setCl_sq (cl : Nat) (c : Cluster) (s : State) : (setCl cl c s).sq = s.sq := rfl
@[simp] theorem setCl_streams (cl : Nat) (c : Cluster) (s : State) : (setCl cl c s).streams = s.streams := rfl
@[simp] theorem setCl_waiting (cl : Nat) (c : Cluster) (s : State) : (setCl cl c s).waiting = s.waiting := rfl
@[simp] theorem setCl_envPorts (cl : Nat) (c : Cluster) (s : State) : (setCl cl c s).envPorts = s.envPorts := rfl
@[simp] theorem setCl_pt (cl : Nat) (c : Cluster) (s : State) : (setCl cl c s).pt = s.pt := rfl
@[simp] theorem setCl_parts (cl : Nat) (c : Cluster) (s : State) : (setCl cl c s).parts = s.parts := rfl
@[simp] theorem setCl_jobs (cl : Nat) (c : Cluster) (s : State) : (setCl cl c s).jobs = s.jobs := rfl
@[simp] theorem setCl_sc (cl : Nat) (c : Cluster) (s : State) : (setCl cl c s).sc = s.sc := rfl
@[simp] theorem setCl_wn (cl : Nat) (c : Cluster) (s : State) : (setCl cl c s).wn = s.wn := rfl
@[simp] theorem setCl_pm (cl : Nat) (c : Cluster) (s : State) : (setCl cl c s).pm = s.pm := rfl

/-! ## modCl -/

@[simp] theorem modCl_pending (cl : Nat) (f : Cluster → Cluster) (s : State) : (modCl cl f s).pending = s.pending := rfl
@[simp] theorem modCl_free (cl : Nat) (f : Cluster → Cluster) (s : State) : (modCl cl f s).free = s.free := rfl
@[simp] theorem modCl_out (cl : Nat) (f : Cluster → Cluster) (s : State) : (modCl cl f s).out = s.out := rfl
@[simp] theorem modCl_mem (cl : Nat) (f : Cluster → Cluster) (s : State) : (modCl cl f s).mem = s.mem := rfl
@[simp] theorem modCl_ctrs (cl : Nat) (f : Cluster → Cluster) (s : State) : (modCl cl f s).ctrs = s.ctrs := rfl
@[simp] theorem modCl_ovfs (cl : Nat) (f : Cluster → Cluster) (s : State) : (modCl cl f s).ovfs = s.ovfs := rfl
@[simp] theorem modCl_fuses (cl : Nat) (f : Cluster → Cluster) (s : State) : (modCl cl f s).fuses = s.fuses := rfl
@[simp] theorem modCl_edge (cl : Nat) (f : Cluster → Cluster) (s : State) : (modCl cl f s).edge = s.edge := rfl
@[simp] theorem modCl_tk (cl : Nat) (f : Cluster → Cluster) (s : State) : (modCl cl f s).tk = s.tk := rfl
@[simp] theorem modCl_units (cl : Nat) (f : Cluster → Cluster) (s : State) : (modCl cl f s).units = s.units := rfl
@[simp] theorem modCl_clusters (cl : Nat) (f : Cluster → Cluster) (s : State) : (modCl cl f s).clusters = tabIns cl (f (getCl s cl)) s.clusters := rfl
@[simp] theorem modCl_repairFull (cl : Nat) (f : Cluster → Cluster) (s : State) : (modCl cl f s).repairFull = s.repairFull := rfl
@[simp] theorem modCl_maint (cl : Nat) (f : Cluster → Cluster) (s : State) : (modCl cl f s).maint = s.maint := rfl
@[simp] theorem modCl_mt (cl : Nat) (f : Cluster → Cluster) (s : State) : (modCl cl f s).mt = s.mt := rfl
@[simp] theorem modCl_gen (cl : Nat) (f : Cluster → Cluster) (s : State) : (modCl cl f s).gen = s.gen := rfl
@[simp] theorem modCl_lrn (cl : Nat) (f : Cluster → Cluster) (s : State) : (modCl cl f s).lrn = s.lrn := rfl
@[simp] theorem modCl_sq (cl : Nat) (f : Cluster → Cluster) (s : State) : (modCl cl f s).sq = s.sq := rfl
@[simp] theorem modCl_streams (cl : Nat) (f : Cluster → Cluster) (s : State) : (modCl cl f s).streams = s.streams := rfl
@[simp] theorem modCl_waiting (cl : Nat) (f : Cluster → Cluster) (s : State) : (modCl cl f s).waiting = s.waiting := rfl
@[simp] theorem modCl_envPorts (cl : Nat) (f : Cluster → Cluster) (s : State) : (modCl cl f s).envPorts = s.envPorts := rfl
@[simp] theorem modCl_pt (cl : Nat) (f : Cluster → Cluster) (s : State) : (modCl cl f s).pt = s.pt := rfl
@[simp] theorem modCl_parts (cl : Nat) (f : Cluster → Cluster) (s : State) : (modCl cl f s).parts = s.parts := rfl
@[simp] theorem modCl_jobs (cl : Nat) (f : Cluster → Cluster) (s : State) : (modCl cl f s).jobs = s.jobs := rfl
@[simp] theorem modCl_sc (cl : Nat) (f : Cluster → Cluster) (s : State) : (modCl cl f s).sc = s.sc := rfl
@[simp] theorem modCl_wn (cl : Nat) (f : Cluster → Cluster) (s : State) : (modCl cl f s).wn = s.wn := rfl
@[simp] theorem modCl_pm (cl : Nat) (f : Cluster → Cluster) (s : State) : (modCl cl f s).pm = s.pm := rfl

/-! ## setUnit -/

@[simp] theorem setUnit_pending (k : Nat) (u : UnitSt) (s : State) : (setUnit k u s).pending = s.pending := rfl
@[simp] theorem setUnit_free (k : Nat) (u : UnitSt) (s : State) : (setUnit k u s).free = s.free := rfl
@[simp] theorem setUnit_out (k : Nat) (u : UnitSt) (s : State) : (setUnit k u s).out = s.out := rfl
@[simp] theorem setUnit_mem (k : Nat) (u : UnitSt) (s : State) : (setUnit k u s).mem = s.mem := rfl
@[simp] theorem setUnit_ctrs (k : Nat) (u : UnitSt) (s : State) : (setUnit k u s).ctrs = s.ctrs := rfl
@[simp] theorem setUnit_ovfs (k : Nat) (u : UnitSt) (s : State) : (setUnit k u s).ovfs = s.ovfs := rfl
@[simp] theorem setUnit_fuses (k : Nat) (u : UnitSt) (s : State) : (setUnit k u s).fuses = s.fuses := rfl
@[simp] theorem setUnit_edge (k : Nat) (u : UnitSt) (s : State) : (setUnit k u s).edge = s.edge := rfl
@[simp] theorem setUnit_tk (k : Nat) (u : UnitSt) (s : State) : (setUnit k u s).tk = s.tk := rfl
@[simp] theorem setUnit_units (k : Nat) (u : UnitSt) (s : State) : (setUnit k u s).units = tabIns k u s.units := rfl
@[simp] theorem setUnit_clusters (k : Nat) (u : UnitSt) (s : State) : (setUnit k u s).clusters = s.clusters := rfl
@[simp] theorem setUnit_repairFull (k : Nat) (u : UnitSt) (s : State) : (setUnit k u s).repairFull = s.repairFull := rfl
@[simp] theorem setUnit_maint (k : Nat) (u : UnitSt) (s : State) : (setUnit k u s).maint = s.maint := rfl
@[simp] theorem setUnit_mt (k : Nat) (u : UnitSt) (s : State) : (setUnit k u s).mt = s.mt := rfl
@[simp] theorem setUnit_gen (k : Nat) (u : UnitSt) (s : State) : (setUnit k u s).gen = s.gen := rfl
@[simp] theorem setUnit_lrn (k : Nat) (u : UnitSt) (s : State) : (setUnit k u s).lrn = s.lrn := rfl
@[simp] theorem setUnit_sq (k : Nat) (u : UnitSt) (s : State) : (setUnit k u s).sq = s.sq := rfl
@[simp] theorem setUnit_streams (k : Nat) (u : UnitSt) (s : State) : (setUnit k u s).streams = s.streams := rfl
@[simp] theorem setUnit_waiting (k : Nat) (u : UnitSt) (s : State) : (setUnit k u s).waiting = s.waiting := rfl
@[simp] theorem setUnit_envPorts (k : Nat) (u : UnitSt) (s : State) : (setUnit k u s).envPorts = s.envPorts := rfl
@[simp] theorem setUnit_pt (k : Nat) (u : UnitSt) (s : State) : (setUnit k u s).pt = s.pt := rfl
@[simp] theorem setUnit_parts (k : Nat) (u : UnitSt) (s : State) : (setUnit k u s).parts = s.parts := rfl
@[simp] theorem setUnit_jobs (k : Nat) (u : UnitSt) (s : State) : (setUnit k u s).jobs = s.jobs := rfl
@[simp] theorem setUnit_sc (k : Nat) (u : UnitSt) (s : State) : (setUnit k u s).sc = s.sc := rfl
@[simp] theorem setUnit_wn (k : Nat) (u : UnitSt) (s : State) : (setUnit k u s).wn = s.wn := rfl
@[simp] theorem setUnit_pm (k : Nat) (u : UnitSt) (s : State) : (setUnit k u s).pm = s.pm := rfl

/-! ## modUnit -/

@[simp] theorem modUnit_pending (k : Nat) (f : UnitSt → UnitSt) (s : State) : (modUnit k f s).pending = s.pending := rfl
@[simp] theorem modUnit_free (k : Nat) (f : UnitSt → UnitSt) (s : State) : (modUnit k f s).free = s.free := rfl
@[simp] theorem modUnit_out (k : Nat) (f : UnitSt → UnitSt) (s : State) : (modUnit k f s).out = s.out := rfl
@[simp] theorem modUnit_mem (k : Nat) (f : UnitSt → UnitSt) (s : State) : (modUnit k f s).mem = s.mem := rfl
@[simp] theorem modUnit_ctrs (k : Nat) (f : UnitSt → UnitSt) (s : State) : (modUnit k f s).ctrs = s.ctrs := rfl
@[simp] theorem modUnit_ovfs (k : Nat) (f : UnitSt → UnitSt) (s : State) : (modUnit k f s).ovfs = s.ovfs := rfl
@[simp] theorem modUnit_fuses (k : Nat) (f : UnitSt → UnitSt) (s : State) : (modUnit k f s).fuses = s.fuses := rfl
@[simp] theorem modUnit_edge (k : Nat) (f : UnitSt → UnitSt) (s : State) : (modUnit k f s).edge = s.edge := rfl
@[simp] theorem modUnit_tk (k : Nat) (f : UnitSt → UnitSt) (s : State) : (modUnit k f s).tk = s.tk := rfl
@[simp] theorem modUnit_units (k : Nat) (f : UnitSt → UnitSt) (s : State) : (modUnit k f s).units = tabIns k (f (getUnit s k)) s.units := rfl
@[simp] theorem modUnit_clusters (k : Nat) (f : UnitSt → UnitSt) (s : State) : (modUnit k f s).clusters = s.clusters := rfl
@[simp] theorem modUnit_repairFull (k : Nat) (f : UnitSt → UnitSt) (s : State) : (modUnit k f s).repairFull = s.repairFull := rfl
@[simp] theorem modUnit_maint (k : Nat) (f : UnitSt → UnitSt) (s : State) : (modUnit k f s).maint = s.maint := rfl
@[simp] theorem modUnit_mt (k : Nat) (f : UnitSt → UnitSt) (s : State) : (modUnit k f s).mt = s.mt := rfl
@[simp] theorem modUnit_gen (k : Nat) (f : UnitSt → UnitSt) (s : State) : (modUnit k f s).gen = s.gen := rfl
@[simp] theorem modUnit_lrn (k : Nat) (f : UnitSt → UnitSt) (s : State) : (modUnit k f s).lrn = s.lrn := rfl
@[simp] theorem modUnit_sq (k : Nat) (f : UnitSt → UnitSt) (s : State) : (modUnit k f s).sq = s.sq := rfl
@[simp] theorem modUnit_streams (k : Nat) (f : UnitSt → UnitSt) (s : State) : (modUnit k f s).streams = s.streams := rfl
@[simp] theorem modUnit_waiting (k : Nat) (f : UnitSt → UnitSt) (s : State) : (modUnit k f s).waiting = s.waiting := rfl
@[simp] theorem modUnit_envPorts (k : Nat) (f : UnitSt → UnitSt) (s : State) : (modUnit k f s).envPorts = s.envPorts := rfl
@[simp] theorem modUnit_pt (k : Nat) (f : UnitSt → UnitSt) (s : State) : (modUnit k f s).pt = s.pt := rfl
@[simp] theorem modUnit_parts (k : Nat) (f : UnitSt → UnitSt) (s : State) : (modUnit k f s).parts = s.parts := rfl
@[simp] theorem modUnit_jobs (k : Nat) (f : UnitSt → UnitSt) (s : State) : (modUnit k f s).jobs = s.jobs := rfl
@[simp] theorem modUnit_sc (k : Nat) (f : UnitSt → UnitSt) (s : State) : (modUnit k f s).sc = s.sc := rfl
@[simp] theorem modUnit_wn (k : Nat) (f : UnitSt → UnitSt) (s : State) : (modUnit k f s).wn = s.wn := rfl
@[simp] theorem modUnit_pm (k : Nat) (f : UnitSt → UnitSt) (s : State) : (modUnit k f s).pm = s.pm := rfl

/-! ## modPart -/

@[simp] theorem modPart_pending (p : Nat) (f : PartSt → PartSt) (s : State) : (modPart p f s).pending = s.pending := rfl
@[simp] theorem modPart_free (p : Nat) (f : PartSt → PartSt) (s : State) : (modPart p f s).free = s.free := rfl
@[simp] theorem modPart_out (p : Nat) (f : PartSt → PartSt) (s : State) : (modPart p f s).out = s.out := rfl
@[simp] theorem modPart_mem (p : Nat) (f : PartSt → PartSt) (s : State) : (modPart p f s).mem = s.mem := rfl
@[simp] theorem modPart_ctrs (p : Nat) (f : PartSt → PartSt) (s : State) : (modPart p f s).ctrs = s.ctrs := rfl
@[simp] theorem modPart_ovfs (p : Nat) (f : PartSt → PartSt) (s : State) : (modPart p f s).ovfs = s.ovfs := rfl
@[simp] theorem modPart_fuses (p : Nat) (f : PartSt → PartSt) (s : State) : (modPart p f s).fuses = s.fuses := rfl
@[simp] theorem modPart_edge (p : Nat) (f : PartSt → PartSt) (s : State) : (modPart p f s).edge = s.edge := rfl
@[simp] theorem modPart_tk (p : Nat) (f : PartSt → PartSt) (s : State) : (modPart p f s).tk = s.tk := rfl
@[simp] theorem modPart_units (p : Nat) (f : PartSt → PartSt) (s : State) : (modPart p f s).units = s.units := rfl
@[simp] theorem modPart_clusters (p : Nat) (f : PartSt → PartSt) (s : State) : (modPart p f s).clusters = s.clusters := rfl
@[simp] theorem modPart_repairFull (p : Nat) (f : PartSt → PartSt) (s : State) : (modPart p f s).repairFull = s.repairFull := rfl
@[simp] theorem modPart_maint (p : Nat) (f : PartSt → PartSt) (s : State) : (modPart p f s).maint = s.maint := rfl
@[simp] theorem modPart_mt (p : Nat) (f : PartSt → PartSt) (s : State) : (modPart p f s).mt = s.mt := rfl
@[simp] theorem modPart_gen (p : Nat) (f : PartSt → PartSt) (s : State) : (modPart p f s).gen = s.gen := rfl
@[simp] theorem modPart_lrn (p : Nat) (f : PartSt → PartSt) (s : State) : (modPart p f s).lrn = s.lrn := rfl
@[simp] theorem modPart_sq (p : Nat) (f : PartSt → PartSt) (s : State) : (modPart p f s).sq = s.sq := rfl
@[simp] theorem modPart_streams (p : Nat) (f : PartSt → PartSt) (s : State) : (modPart p f s).streams = s.streams := rfl
@[simp] theorem modPart_waiting (p : Nat) (f : PartSt → PartSt) (s : State) : (modPart p f s).waiting = s.waiting := rfl
@[simp] theorem modPart_envPorts (p : Nat) (f : PartSt → PartSt) (s : State) : (modPart p f s).envPorts = s.envPorts := rfl
@[simp] theorem modPart_pt (p : Nat) (f : PartSt → PartSt) (s : State) : (modPart p f s).pt = s.pt := rfl
@[simp] theorem modPart_parts (p : Nat) (f : PartSt → PartSt) (s : State) : (modPart p f s).parts = tabIns p (f (getPart s p)) s.parts := rfl
@[simp] theorem modPart_jobs (p : Nat) (f : PartSt → PartSt) (s : State) : (modPart p f s).jobs = s.jobs := rfl
@[simp] theorem modPart_sc (p : Nat) (f : PartSt → PartSt) (s : State) : (modPart p f s).sc = s.sc := rfl
@[simp] theorem modPart_wn (p : Nat) (f : PartSt → PartSt) (s : State) : (modPart p f s).wn = s.wn := rfl
@[simp] theorem modPart_pm (p : Nat) (f : PartSt → PartSt) (s : State) : (modPart p f s).pm = s.pm := rfl

/-! ## modChan -/

@[simp] theorem modChan_pending (ch : Nat) (f : Chan → Chan) (s : State) : (modChan ch f s).pending = s.pending := rfl
@[simp] theorem modChan_free (ch : Nat) (f : Chan → Chan) (s : State) : (modChan ch f s).free = s.free := rfl
@[simp] theorem modChan_out (ch : Nat) (f : Chan → Chan) (s : State) : (modChan ch f s).out = s.out := rfl
@[simp] theorem modChan_mem (ch : Nat) (f : Chan → Chan) (s : State) : (modChan ch f s).mem = s.mem := rfl
@[simp] theorem modChan_ctrs (ch : Nat) (f : Chan → Chan) (s : State) : (modChan ch f s).ctrs = s.ctrs := rfl
@[simp] theorem modChan_ovfs (ch : Nat) (f : Chan → Chan) (s : State) : (modChan ch f s).ovfs = s.ovfs := rfl
@[simp] theorem modChan_fuses (ch : Nat) (f : Chan → Chan) (s : State) : (modChan ch f s).fuses = s.fuses := rfl
@[simp] theorem modChan_edge (ch : Nat) (f : Chan → Chan) (s : State) : (modChan ch f s).edge = s.edge := rfl
@[simp] theorem modChan_tk (ch : Nat) (f : Chan → Chan) (s : State) : (modChan ch f s).tk = s.tk := rfl
@[simp] theorem modChan_units (ch : Nat) (f : Chan → Chan) (s : State) : (modChan ch f s).units = s.units := rfl
@[simp] theorem modChan_clusters (ch : Nat) (f : Chan → Chan) (s : State) : (modChan ch f s).clusters = s.clusters := rfl
@[simp] theorem modChan_repairFull (ch : Nat) (f : Chan → Chan) (s : State) : (modChan ch f s).repairFull = s.repairFull := rfl
@[simp] theorem modChan_maint (ch : Nat) (f : Chan → Chan) (s : State) : (modChan ch f s).maint = s.maint := rfl
@[simp] theorem modChan_gen (ch : Nat) (f : Chan → Chan) (s : State) : (modChan ch f s).gen = s.gen := rfl
@[simp] theorem modChan_lrn (ch : Nat) (f : Chan → Chan) (s : State) : (modChan ch f s).lrn = s.lrn := rfl
@[simp] theorem modChan_sq (ch : Nat) (f : Chan → Chan) (s : State) : (modChan ch f s).sq = s.sq := rfl
@[simp] theorem modChan_streams (ch : Nat) (f : Chan → Chan) (s : State) : (modChan ch f s).streams = s.streams := rfl
@[simp] theorem modChan_waiting (ch : Nat) (f : Chan → Chan) (s : State) : (modChan ch f s).waiting = s.waiting := rfl
@[simp] theorem modChan_envPorts (ch : Nat) (f : Chan → Chan) (s : State) : (modChan ch f s).envPorts = s.envPorts := rfl
@[simp] theorem modChan_pt (ch : Nat) (f : Chan → Chan) (s : State) : (modChan ch f s).pt = s.pt := rfl
@[simp] theorem modChan_parts (ch : Nat) (f : Chan → Chan) (s : State) : (modChan ch f s).parts = s.parts := rfl
@[simp] theorem modChan_jobs (ch : Nat) (f : Chan → Chan) (s : State) : (modChan ch f s).jobs = s.jobs := rfl
@[simp] theorem modChan_sc (ch : Nat) (f : Chan → Chan) (s : State) : (modChan ch f s).sc = s.sc := rfl
@[simp] theorem modChan_wn (ch : Nat) (f : Chan → Chan) (s : State) : (modChan ch f s).wn = s.wn := rfl
@[simp] theorem modChan_pm (ch : Nat) (f : Chan → Chan) (s : State) : (modChan ch f s).pm = s.pm := rfl

/-! ## putMem -/

@[simp] theorem putMem_pending (ws : List (Nat × Byte)) (s : State) : (putMem ws s).pending = s.pending := rfl
@[simp] theorem putMem_free (ws : List (Nat × Byte)) (s : State) : (putMem ws s).free = s.free := rfl
@[simp] theorem putMem_out (ws : List (Nat × Byte)) (s : State) : (putMem ws s).out = s.out := rfl
@[simp] theorem putMem_mem (ws : List (Nat × Byte)) (s : State) : (putMem ws s).mem = memPuts s.mem ws := rfl
@[simp] theorem putMem_ctrs (ws : List (Nat × Byte)) (s : State) : (putMem ws s).ctrs = s.ctrs := rfl
@[simp] theorem putMem_ovfs (ws : List (Nat × Byte)) (s : State) : (putMem ws s).ovfs = s.ovfs := rfl
@[simp] theorem putMem_fuses (ws : List (Nat × Byte)) (s : State) : (putMem ws s).fuses = s.fuses := rfl
@[simp] theorem putMem_edge (ws : List (Nat × Byte)) (s : State) : (putMem ws s).edge = s.edge := rfl
@[simp] theorem putMem_tk (ws : List (Nat × Byte)) (s : State) : (putMem ws s).tk = s.tk := rfl
@[simp] theorem putMem_units (ws : List (Nat × Byte)) (s : State) : (putMem ws s).units = s.units := rfl
@[simp] theorem putMem_clusters (ws : List (Nat × Byte)) (s : State) : (putMem ws s).clusters = s.clusters := rfl
@[simp] theorem putMem_repairFull (ws : List (Nat × Byte)) (s : State) : (putMem ws s).repairFull = s.repairFull := rfl
@[simp] theorem putMem_maint (ws : List (Nat × Byte)) (s : State) : (putMem ws s).maint = s.maint := rfl
@[simp] theorem putMem_mt (ws : List (Nat × Byte)) (s : State) : (putMem ws s).mt = s.mt := rfl
@[simp] theorem putMem_gen (ws : List (Nat × Byte)) (s : State) : (putMem ws s).gen = s.gen := rfl
@[simp] theorem putMem_lrn (ws : List (Nat × Byte)) (s : State) : (putMem ws s).lrn = s.lrn := rfl
@[simp] theorem putMem_sq (ws : List (Nat × Byte)) (s : State) : (putMem ws s).sq = s.sq := rfl
@[simp] theorem putMem_streams (ws : List (Nat × Byte)) (s : State) : (putMem ws s).streams = s.streams := rfl
@[simp] theorem putMem_waiting (ws : List (Nat × Byte)) (s : State) : (putMem ws s).waiting = s.waiting := rfl
@[simp] theorem putMem_envPorts (ws : List (Nat × Byte)) (s : State) : (putMem ws s).envPorts = s.envPorts := rfl
@[simp] theorem putMem_pt (ws : List (Nat × Byte)) (s : State) : (putMem ws s).pt = s.pt := rfl
@[simp] theorem putMem_parts (ws : List (Nat × Byte)) (s : State) : (putMem ws s).parts = s.parts := rfl
@[simp] theorem putMem_jobs (ws : List (Nat × Byte)) (s : State) : (putMem ws s).jobs = s.jobs := rfl
@[simp] theorem putMem_sc (ws : List (Nat × Byte)) (s : State) : (putMem ws s).sc = s.sc := rfl
@[simp] theorem putMem_wn (ws : List (Nat × Byte)) (s : State) : (putMem ws s).wn = s.wn := rfl
@[simp] theorem putMem_pm (ws : List (Nat × Byte)) (s : State) : (putMem ws s).pm = s.pm := rfl

/-! ## zeroMem -/

@[simp] theorem zeroMem_pending (k n : Nat) (s : State) : (zeroMem k n s).pending = s.pending := rfl
@[simp] theorem zeroMem_free (k n : Nat) (s : State) : (zeroMem k n s).free = s.free := rfl
@[simp] theorem zeroMem_out (k n : Nat) (s : State) : (zeroMem k n s).out = s.out := rfl
@[simp] theorem zeroMem_mem (k n : Nat) (s : State) : (zeroMem k n s).mem = memZero s.mem k n := rfl
@[simp] theorem zeroMem_ctrs (k n : Nat) (s : State) : (zeroMem k n s).ctrs = s.ctrs := rfl
@[simp] theorem zeroMem_ovfs (k n : Nat) (s : State) : (zeroMem k n s).ovfs = s.ovfs := rfl
@[simp] theorem zeroMem_fuses (k n : Nat) (s : State) : (zeroMem k n s).fuses = s.fuses := rfl
@[simp] theorem zeroMem_edge (k n : Nat) (s : State) : (zeroMem k n s).edge = s.edge := rfl
@[simp] theorem zeroMem_tk (k n : Nat) (s : State) : (zeroMem k n s).tk = s.tk := rfl
@[simp] theorem zeroMem_units (k n : Nat) (s : State) : (zeroMem k n s).units = s.units := rfl
@[simp] theorem zeroMem_clusters (k n : Nat) (s : State) : (zeroMem k n s).clusters = s.clusters := rfl
@[simp] theorem zeroMem_repairFull (k n : Nat) (s : State) : (zeroMem k n s).repairFull = s.repairFull := rfl
@[simp] theorem zeroMem_maint (k n : Nat) (s : State) : (zeroMem k n s).maint = s.maint := rfl
@[simp] theorem zeroMem_mt (k n : Nat) (s : State) : (zeroMem k n s).mt = s.mt := rfl
@[simp] theorem zeroMem_gen (k n : Nat) (s : State) : (zeroMem k n s).gen = s.gen := rfl
@[simp] theorem zeroMem_lrn (k n : Nat) (s : State) : (zeroMem k n s).lrn = s.lrn := rfl
@[simp] theorem zeroMem_sq (k n : Nat) (s : State) : (zeroMem k n s).sq = s.sq := rfl
@[simp] theorem zeroMem_streams (k n : Nat) (s : State) : (zeroMem k n s).streams = s.streams := rfl
@[simp] theorem zeroMem_waiting (k n : Nat) (s : State) : (zeroMem k n s).waiting = s.waiting := rfl
@[simp] theorem zeroMem_envPorts (k n : Nat) (s : State) : (zeroMem k n s).envPorts = s.envPorts := rfl
@[simp] theorem zeroMem_pt (k n : Nat) (s : State) : (zeroMem k n s).pt = s.pt := rfl
@[simp] theorem zeroMem_parts (k n : Nat) (s : State) : (zeroMem k n s).parts = s.parts := rfl
@[simp] theorem zeroMem_jobs (k n : Nat) (s : State) : (zeroMem k n s).jobs = s.jobs := rfl
@[simp] theorem zeroMem_sc (k n : Nat) (s : State) : (zeroMem k n s).sc = s.sc := rfl
@[simp] theorem zeroMem_wn (k n : Nat) (s : State) : (zeroMem k n s).wn = s.wn := rfl
@[simp] theorem zeroMem_pm (k n : Nat) (s : State) : (zeroMem k n s).pm = s.pm := rfl

/-! ## emit -/

@[simp] theorem emit_pending (o : Out) (s : State) : (emit o s).pending = s.pending := rfl
@[simp] theorem emit_free (o : Out) (s : State) : (emit o s).free = s.free := rfl
@[simp] theorem emit_out (o : Out) (s : State) : (emit o s).out = s.out ++ [o] := rfl
@[simp] theorem emit_mem (o : Out) (s : State) : (emit o s).mem = s.mem := rfl
@[simp] theorem emit_ctrs (o : Out) (s : State) : (emit o s).ctrs = s.ctrs := rfl
@[simp] theorem emit_ovfs (o : Out) (s : State) : (emit o s).ovfs = s.ovfs := rfl
@[simp] theorem emit_fuses (o : Out) (s : State) : (emit o s).fuses = s.fuses := rfl
@[simp] theorem emit_edge (o : Out) (s : State) : (emit o s).edge = s.edge := rfl
@[simp] theorem emit_tk (o : Out) (s : State) : (emit o s).tk = s.tk := rfl
@[simp] theorem emit_units (o : Out) (s : State) : (emit o s).units = s.units := rfl
@[simp] theorem emit_clusters (o : Out) (s : State) : (emit o s).clusters = s.clusters := rfl
@[simp] theorem emit_repairFull (o : Out) (s : State) : (emit o s).repairFull = s.repairFull := rfl
@[simp] theorem emit_maint (o : Out) (s : State) : (emit o s).maint = s.maint := rfl
@[simp] theorem emit_mt (o : Out) (s : State) : (emit o s).mt = s.mt := rfl
@[simp] theorem emit_gen (o : Out) (s : State) : (emit o s).gen = s.gen := rfl
@[simp] theorem emit_lrn (o : Out) (s : State) : (emit o s).lrn = s.lrn := rfl
@[simp] theorem emit_sq (o : Out) (s : State) : (emit o s).sq = s.sq := rfl
@[simp] theorem emit_streams (o : Out) (s : State) : (emit o s).streams = s.streams := rfl
@[simp] theorem emit_waiting (o : Out) (s : State) : (emit o s).waiting = s.waiting := rfl
@[simp] theorem emit_envPorts (o : Out) (s : State) : (emit o s).envPorts = s.envPorts := rfl
@[simp] theorem emit_pt (o : Out) (s : State) : (emit o s).pt = s.pt := rfl
@[simp] theorem emit_parts (o : Out) (s : State) : (emit o s).parts = s.parts := rfl
@[simp] theorem emit_jobs (o : Out) (s : State) : (emit o s).jobs = s.jobs := rfl
@[simp] theorem emit_sc (o : Out) (s : State) : (emit o s).sc = s.sc := rfl
@[simp] theorem emit_wn (o : Out) (s : State) : (emit o s).wn = s.wn := rfl
@[simp] theorem emit_pm (o : Out) (s : State) : (emit o s).pm = s.pm := rfl

/-! ## modReq -/

@[simp] theorem modReq_pending (p id : Nat) (f : Req → Req) (s : State) : (modReq p id f s).pending = s.pending := rfl
@[simp] theorem modReq_free (p id : Nat) (f : Req → Req) (s : State) : (modReq p id f s).free = s.free := rfl
@[simp] theorem modReq_out (p id : Nat) (f : Req → Req) (s : State) : (modReq p id f s).out = s.out := rfl
@[simp] theorem modReq_mem (p id : Nat) (f : Req → Req) (s : State) : (modReq p id f s).mem = s.mem := rfl
@[simp] theorem modReq_ctrs (p id : Nat) (f : Req → Req) (s : State) : (modReq p id f s).ctrs = s.ctrs := rfl
@[simp] theorem modReq_ovfs (p id : Nat) (f : Req → Req) (s : State) : (modReq p id f s).ovfs = s.ovfs := rfl
@[simp] theorem modReq_fuses (p id : Nat) (f : Req → Req) (s : State) : (modReq p id f s).fuses = s.fuses := rfl
@[simp] theorem modReq_edge (p id : Nat) (f : Req → Req) (s : State) : (modReq p id f s).edge = s.edge := rfl
@[simp] theorem modReq_tk (p id : Nat) (f : Req → Req) (s : State) : (modReq p id f s).tk = s.tk := rfl
@[simp] theorem modReq_units (p id : Nat) (f : Req → Req) (s : State) : (modReq p id f s).units = s.units := rfl
@[simp] theorem modReq_clusters (p id : Nat) (f : Req → Req) (s : State) : (modReq p id f s).clusters = s.clusters := rfl
@[simp] theorem modReq_repairFull (p id : Nat) (f : Req → Req) (s : State) : (modReq p id f s).repairFull = s.repairFull := rfl
@[simp] theorem modReq_maint (p id : Nat) (f : Req → Req) (s : State) : (modReq p id f s).maint = s.maint := rfl
@[simp] theorem modReq_mt (p id : Nat) (f : Req → Req) (s : State) : (modReq p id f s).mt = s.mt := rfl
@[simp] theorem modReq_lrn (p id : Nat) (f : Req → Req) (s : State) : (modReq p id f s).lrn = s.lrn := rfl
@[simp] theorem modReq_sq (p id : Nat) (f : Req → Req) (s : State) : (modReq p id f s).sq = s.sq := rfl
@[simp] theorem modReq_streams (p id : Nat) (f : Req → Req) (s : State) : (modReq p id f s).streams = s.streams := rfl
@[simp] theorem modReq_waiting (p id : Nat) (f : Req → Req) (s : State) : (modReq p id f s).waiting = s.waiting := rfl
@[simp] theorem modReq_envPorts (p id : Nat) (f : Req → Req) (s : State) : (modReq p id f s).envPorts = s.envPorts := rfl
@[simp] theorem modReq_pt (p id : Nat) (f : Req → Req) (s : State) : (modReq p id f s).pt = s.pt := rfl
@[simp] theorem modReq_parts (p id : Nat) (f : Req → Req) (s : State) : (modReq p id f s).parts = s.parts := rfl
@[simp] theorem modReq_jobs (p id : Nat) (f : Req → Req) (s : State) : (modReq p id f s).jobs = s.jobs := rfl
@[simp] theorem modReq_sc (p id : Nat) (f : Req → Req) (s : State) : (modReq p id f s).sc = s.sc := rfl
@[simp] theorem modReq_wn (p id : Nat) (f : Req → Req) (s : State) : (modReq p id f s).wn = s.wn := rfl
@[simp] theorem modReq_pm (p id : Nat) (f : Req → Req) (s : State) : (modReq p id f s).pm = s.pm := rfl

/-! ## takeFree -/

@[simp] theorem takeFree_pending (s : State) : ((takeFree s).2).pending = s.pending := rfl
@[simp] theorem takeFree_free (s : State) : ((takeFree s).2).free = s.free + 1 := rfl
@[simp] theorem takeFree_out (s : State) : ((takeFree s).2).out = s.out := rfl
@[simp] theorem takeFree_mem (s : State) : ((takeFree s).2).mem = s.mem := rfl
@[simp] theorem takeFree_ctrs (s : State) : ((takeFree s).2).ctrs = s.ctrs := rfl
@[simp] theorem takeFree_ovfs (s : State) : ((takeFree s).2).ovfs = s.ovfs := rfl
@[simp] theorem takeFree_fuses (s : State) : ((takeFree s).2).fuses = s.fuses := rfl
@[simp] theorem takeFree_edge (s : State) : ((takeFree s).2).edge = s.edge := rfl
@[simp] theorem takeFree_tk (s : State) : ((takeFree s).2).tk = s.tk := rfl
@[simp] theorem takeFree_units (s : State) : ((takeFree s).2).units = s.units := rfl
@[simp] theorem takeFree_clusters (s : State) : ((takeFree s).2).clusters = s.clusters := rfl
@[simp] theorem takeFree_repairFull (s : State) : ((takeFree s).2).repairFull = s.repairFull := rfl
@[simp] theorem takeFree_maint (s : State) : ((takeFree s).2).maint = s.maint := rfl
@[simp] theorem takeFree_mt (s : State) : ((takeFree s).2).mt = s.mt := rfl
@[simp] theorem takeFree_gen (s : State) : ((takeFree s).2).gen = s.gen := rfl
@[simp] theorem takeFree_lrn (s : State) : ((takeFree s).2).lrn = s.lrn := rfl
@[simp] theorem takeFree_sq (s : State) : ((takeFree s).2).sq = s.sq := rfl
@[simp] theorem takeFree_streams (s : State) : ((takeFree s).2).streams = s.streams := rfl
@[simp] theorem takeFree_waiting (s : State) : ((takeFree s).2).waiting = s.waiting := rfl
@[simp] theorem takeFree_envPorts (s : State) : ((takeFree s).2).envPorts = s.envPorts := rfl
@[simp] theorem takeFree_pt (s : State) : ((takeFree s).2).pt = s.pt := rfl
@[simp] theorem takeFree_parts (s : State) : ((takeFree s).2).parts = s.parts := rfl
@[simp] theorem takeFree_jobs (s : State) : ((takeFree s).2).jobs = s.jobs := rfl
@[simp] theorem takeFree_sc (s : State) : ((takeFree s).2).sc = s.sc := rfl
@[simp] theorem takeFree_wn (s : State) : ((takeFree s).2).wn = s.wn := rfl
@[simp] theorem takeFree_pm (s : State) : ((takeFree s).2).pm = s.pm := rfl

/-! ## The updates with cases -/

/-- A completion record changes the byte stores only. -/
theorem complete_eq (cl : Nat) (c : Card) (r : Report) (s : State) : ∃ m, complete cl c r s = { s with mem := m } := by
  unfold complete
  generalize (c.always || decide (r.status ≠ .ok) || r.nanIn || r.nanGen || r.ovf) = b
  cases b
  · exact ⟨s.mem, rfl⟩
  · exact ⟨_, rfl⟩

/-- Adding to a counter changes the counters and their flags only. -/
theorem bumpBy_eq (c : Ctr) (i n : Nat) (s : State) : ∃ a b, bumpBy c i n s = { s with ctrs := a, ovfs := b } := by
  unfold bumpBy
  dsimp only
  generalize 2 ^ 64 - 1 = m
  by_cases h : ctrVal s c i + n < m
  · rw [if_pos h]
    exact ⟨_, _, rfl⟩
  · rw [if_neg h]
    exact ⟨_, _, rfl⟩

@[simp] theorem bumpBy_pending (c : Ctr) (i n : Nat) (s : State) : (bumpBy c i n s).pending = s.pending := by
  obtain ⟨a, b, h⟩ := bumpBy_eq c i n s
  rw [h]
@[simp] theorem bumpBy_free (c : Ctr) (i n : Nat) (s : State) : (bumpBy c i n s).free = s.free := by
  obtain ⟨a, b, h⟩ := bumpBy_eq c i n s
  rw [h]
@[simp] theorem bumpBy_out (c : Ctr) (i n : Nat) (s : State) : (bumpBy c i n s).out = s.out := by
  obtain ⟨a, b, h⟩ := bumpBy_eq c i n s
  rw [h]
@[simp] theorem bumpBy_mem (c : Ctr) (i n : Nat) (s : State) : (bumpBy c i n s).mem = s.mem := by
  obtain ⟨a, b, h⟩ := bumpBy_eq c i n s
  rw [h]
@[simp] theorem bumpBy_fuses (c : Ctr) (i n : Nat) (s : State) : (bumpBy c i n s).fuses = s.fuses := by
  obtain ⟨a, b, h⟩ := bumpBy_eq c i n s
  rw [h]
@[simp] theorem bumpBy_edge (c : Ctr) (i n : Nat) (s : State) : (bumpBy c i n s).edge = s.edge := by
  obtain ⟨a, b, h⟩ := bumpBy_eq c i n s
  rw [h]
@[simp] theorem bumpBy_tk (c : Ctr) (i n : Nat) (s : State) : (bumpBy c i n s).tk = s.tk := by
  obtain ⟨a, b, h⟩ := bumpBy_eq c i n s
  rw [h]
@[simp] theorem bumpBy_units (c : Ctr) (i n : Nat) (s : State) : (bumpBy c i n s).units = s.units := by
  obtain ⟨a, b, h⟩ := bumpBy_eq c i n s
  rw [h]
@[simp] theorem bumpBy_clusters (c : Ctr) (i n : Nat) (s : State) : (bumpBy c i n s).clusters = s.clusters := by
  obtain ⟨a, b, h⟩ := bumpBy_eq c i n s
  rw [h]
@[simp] theorem bumpBy_repairFull (c : Ctr) (i n : Nat) (s : State) : (bumpBy c i n s).repairFull = s.repairFull := by
  obtain ⟨a, b, h⟩ := bumpBy_eq c i n s
  rw [h]
@[simp] theorem bumpBy_maint (c : Ctr) (i n : Nat) (s : State) : (bumpBy c i n s).maint = s.maint := by
  obtain ⟨a, b, h⟩ := bumpBy_eq c i n s
  rw [h]
@[simp] theorem bumpBy_mt (c : Ctr) (i n : Nat) (s : State) : (bumpBy c i n s).mt = s.mt := by
  obtain ⟨a, b, h⟩ := bumpBy_eq c i n s
  rw [h]
@[simp] theorem bumpBy_gen (c : Ctr) (i n : Nat) (s : State) : (bumpBy c i n s).gen = s.gen := by
  obtain ⟨a, b, h⟩ := bumpBy_eq c i n s
  rw [h]
@[simp] theorem bumpBy_lrn (c : Ctr) (i n : Nat) (s : State) : (bumpBy c i n s).lrn = s.lrn := by
  obtain ⟨a, b, h⟩ := bumpBy_eq c i n s
  rw [h]
@[simp] theorem bumpBy_sq (c : Ctr) (i n : Nat) (s : State) : (bumpBy c i n s).sq = s.sq := by
  obtain ⟨a, b, h⟩ := bumpBy_eq c i n s
  rw [h]
@[simp] theorem bumpBy_streams (c : Ctr) (i n : Nat) (s : State) : (bumpBy c i n s).streams = s.streams := by
  obtain ⟨a, b, h⟩ := bumpBy_eq c i n s
  rw [h]
@[simp] theorem bumpBy_waiting (c : Ctr) (i n : Nat) (s : State) : (bumpBy c i n s).waiting = s.waiting := by
  obtain ⟨a, b, h⟩ := bumpBy_eq c i n s
  rw [h]
@[simp] theorem bumpBy_envPorts (c : Ctr) (i n : Nat) (s : State) : (bumpBy c i n s).envPorts = s.envPorts := by
  obtain ⟨a, b, h⟩ := bumpBy_eq c i n s
  rw [h]
@[simp] theorem bumpBy_pt (c : Ctr) (i n : Nat) (s : State) : (bumpBy c i n s).pt = s.pt := by
  obtain ⟨a, b, h⟩ := bumpBy_eq c i n s
  rw [h]
@[simp] theorem bumpBy_parts (c : Ctr) (i n : Nat) (s : State) : (bumpBy c i n s).parts = s.parts := by
  obtain ⟨a, b, h⟩ := bumpBy_eq c i n s
  rw [h]
@[simp] theorem bumpBy_jobs (c : Ctr) (i n : Nat) (s : State) : (bumpBy c i n s).jobs = s.jobs := by
  obtain ⟨a, b, h⟩ := bumpBy_eq c i n s
  rw [h]
@[simp] theorem bumpBy_sc (c : Ctr) (i n : Nat) (s : State) : (bumpBy c i n s).sc = s.sc := by
  obtain ⟨a, b, h⟩ := bumpBy_eq c i n s
  rw [h]
@[simp] theorem bumpBy_wn (c : Ctr) (i n : Nat) (s : State) : (bumpBy c i n s).wn = s.wn := by
  obtain ⟨a, b, h⟩ := bumpBy_eq c i n s
  rw [h]
@[simp] theorem bumpBy_pm (c : Ctr) (i n : Nat) (s : State) : (bumpBy c i n s).pm = s.pm := by
  obtain ⟨a, b, h⟩ := bumpBy_eq c i n s
  rw [h]

@[simp] theorem modJob_pending (j : Nat) (f : Job → Job) (s : State) : (modJob j f s).pending = s.pending := by
  unfold modJob
  split <;> rfl
@[simp] theorem modJob_free (j : Nat) (f : Job → Job) (s : State) : (modJob j f s).free = s.free := by
  unfold modJob
  split <;> rfl
@[simp] theorem modJob_out (j : Nat) (f : Job → Job) (s : State) : (modJob j f s).out = s.out := by
  unfold modJob
  split <;> rfl
@[simp] theorem modJob_mem (j : Nat) (f : Job → Job) (s : State) : (modJob j f s).mem = s.mem := by
  unfold modJob
  split <;> rfl
@[simp] theorem modJob_ctrs (j : Nat) (f : Job → Job) (s : State) : (modJob j f s).ctrs = s.ctrs := by
  unfold modJob
  split <;> rfl
@[simp] theorem modJob_ovfs (j : Nat) (f : Job → Job) (s : State) : (modJob j f s).ovfs = s.ovfs := by
  unfold modJob
  split <;> rfl
@[simp] theorem modJob_fuses (j : Nat) (f : Job → Job) (s : State) : (modJob j f s).fuses = s.fuses := by
  unfold modJob
  split <;> rfl
@[simp] theorem modJob_edge (j : Nat) (f : Job → Job) (s : State) : (modJob j f s).edge = s.edge := by
  unfold modJob
  split <;> rfl
@[simp] theorem modJob_tk (j : Nat) (f : Job → Job) (s : State) : (modJob j f s).tk = s.tk := by
  unfold modJob
  split <;> rfl
@[simp] theorem modJob_units (j : Nat) (f : Job → Job) (s : State) : (modJob j f s).units = s.units := by
  unfold modJob
  split <;> rfl
@[simp] theorem modJob_clusters (j : Nat) (f : Job → Job) (s : State) : (modJob j f s).clusters = s.clusters := by
  unfold modJob
  split <;> rfl
@[simp] theorem modJob_repairFull (j : Nat) (f : Job → Job) (s : State) : (modJob j f s).repairFull = s.repairFull := by
  unfold modJob
  split <;> rfl
@[simp] theorem modJob_maint (j : Nat) (f : Job → Job) (s : State) : (modJob j f s).maint = s.maint := by
  unfold modJob
  split <;> rfl
@[simp] theorem modJob_mt (j : Nat) (f : Job → Job) (s : State) : (modJob j f s).mt = s.mt := by
  unfold modJob
  split <;> rfl
@[simp] theorem modJob_gen (j : Nat) (f : Job → Job) (s : State) : (modJob j f s).gen = s.gen := by
  unfold modJob
  split <;> rfl
@[simp] theorem modJob_lrn (j : Nat) (f : Job → Job) (s : State) : (modJob j f s).lrn = s.lrn := by
  unfold modJob
  split <;> rfl
@[simp] theorem modJob_sq (j : Nat) (f : Job → Job) (s : State) : (modJob j f s).sq = s.sq := by
  unfold modJob
  split <;> rfl
@[simp] theorem modJob_streams (j : Nat) (f : Job → Job) (s : State) : (modJob j f s).streams = s.streams := by
  unfold modJob
  split <;> rfl
@[simp] theorem modJob_waiting (j : Nat) (f : Job → Job) (s : State) : (modJob j f s).waiting = s.waiting := by
  unfold modJob
  split <;> rfl
@[simp] theorem modJob_envPorts (j : Nat) (f : Job → Job) (s : State) : (modJob j f s).envPorts = s.envPorts := by
  unfold modJob
  split <;> rfl
@[simp] theorem modJob_pt (j : Nat) (f : Job → Job) (s : State) : (modJob j f s).pt = s.pt := by
  unfold modJob
  split <;> rfl
@[simp] theorem modJob_parts (j : Nat) (f : Job → Job) (s : State) : (modJob j f s).parts = s.parts := by
  unfold modJob
  split <;> rfl
@[simp] theorem modJob_sc (j : Nat) (f : Job → Job) (s : State) : (modJob j f s).sc = s.sc := by
  unfold modJob
  split <;> rfl
@[simp] theorem modJob_wn (j : Nat) (f : Job → Job) (s : State) : (modJob j f s).wn = s.wn := by
  unfold modJob
  split <;> rfl
@[simp] theorem modJob_pm (j : Nat) (f : Job → Job) (s : State) : (modJob j f s).pm = s.pm := by
  unfold modJob
  split <;> rfl

@[simp] theorem complete_pending (cl : Nat) (c : Card) (r : Report) (s : State) : (complete cl c r s).pending = s.pending := by
  obtain ⟨m, h⟩ := complete_eq cl c r s
  rw [h]
@[simp] theorem complete_free (cl : Nat) (c : Card) (r : Report) (s : State) : (complete cl c r s).free = s.free := by
  obtain ⟨m, h⟩ := complete_eq cl c r s
  rw [h]
@[simp] theorem complete_out (cl : Nat) (c : Card) (r : Report) (s : State) : (complete cl c r s).out = s.out := by
  obtain ⟨m, h⟩ := complete_eq cl c r s
  rw [h]
@[simp] theorem complete_ctrs (cl : Nat) (c : Card) (r : Report) (s : State) : (complete cl c r s).ctrs = s.ctrs := by
  obtain ⟨m, h⟩ := complete_eq cl c r s
  rw [h]
@[simp] theorem complete_ovfs (cl : Nat) (c : Card) (r : Report) (s : State) : (complete cl c r s).ovfs = s.ovfs := by
  obtain ⟨m, h⟩ := complete_eq cl c r s
  rw [h]
@[simp] theorem complete_fuses (cl : Nat) (c : Card) (r : Report) (s : State) : (complete cl c r s).fuses = s.fuses := by
  obtain ⟨m, h⟩ := complete_eq cl c r s
  rw [h]
@[simp] theorem complete_edge (cl : Nat) (c : Card) (r : Report) (s : State) : (complete cl c r s).edge = s.edge := by
  obtain ⟨m, h⟩ := complete_eq cl c r s
  rw [h]
@[simp] theorem complete_tk (cl : Nat) (c : Card) (r : Report) (s : State) : (complete cl c r s).tk = s.tk := by
  obtain ⟨m, h⟩ := complete_eq cl c r s
  rw [h]
@[simp] theorem complete_units (cl : Nat) (c : Card) (r : Report) (s : State) : (complete cl c r s).units = s.units := by
  obtain ⟨m, h⟩ := complete_eq cl c r s
  rw [h]
@[simp] theorem complete_clusters (cl : Nat) (c : Card) (r : Report) (s : State) : (complete cl c r s).clusters = s.clusters := by
  obtain ⟨m, h⟩ := complete_eq cl c r s
  rw [h]
@[simp] theorem complete_repairFull (cl : Nat) (c : Card) (r : Report) (s : State) : (complete cl c r s).repairFull = s.repairFull := by
  obtain ⟨m, h⟩ := complete_eq cl c r s
  rw [h]
@[simp] theorem complete_maint (cl : Nat) (c : Card) (r : Report) (s : State) : (complete cl c r s).maint = s.maint := by
  obtain ⟨m, h⟩ := complete_eq cl c r s
  rw [h]
@[simp] theorem complete_mt (cl : Nat) (c : Card) (r : Report) (s : State) : (complete cl c r s).mt = s.mt := by
  obtain ⟨m, h⟩ := complete_eq cl c r s
  rw [h]
@[simp] theorem complete_gen (cl : Nat) (c : Card) (r : Report) (s : State) : (complete cl c r s).gen = s.gen := by
  obtain ⟨m, h⟩ := complete_eq cl c r s
  rw [h]
@[simp] theorem complete_lrn (cl : Nat) (c : Card) (r : Report) (s : State) : (complete cl c r s).lrn = s.lrn := by
  obtain ⟨m, h⟩ := complete_eq cl c r s
  rw [h]
@[simp] theorem complete_sq (cl : Nat) (c : Card) (r : Report) (s : State) : (complete cl c r s).sq = s.sq := by
  obtain ⟨m, h⟩ := complete_eq cl c r s
  rw [h]
@[simp] theorem complete_streams (cl : Nat) (c : Card) (r : Report) (s : State) : (complete cl c r s).streams = s.streams := by
  obtain ⟨m, h⟩ := complete_eq cl c r s
  rw [h]
@[simp] theorem complete_waiting (cl : Nat) (c : Card) (r : Report) (s : State) : (complete cl c r s).waiting = s.waiting := by
  obtain ⟨m, h⟩ := complete_eq cl c r s
  rw [h]
@[simp] theorem complete_envPorts (cl : Nat) (c : Card) (r : Report) (s : State) : (complete cl c r s).envPorts = s.envPorts := by
  obtain ⟨m, h⟩ := complete_eq cl c r s
  rw [h]
@[simp] theorem complete_pt (cl : Nat) (c : Card) (r : Report) (s : State) : (complete cl c r s).pt = s.pt := by
  obtain ⟨m, h⟩ := complete_eq cl c r s
  rw [h]
@[simp] theorem complete_parts (cl : Nat) (c : Card) (r : Report) (s : State) : (complete cl c r s).parts = s.parts := by
  obtain ⟨m, h⟩ := complete_eq cl c r s
  rw [h]
@[simp] theorem complete_jobs (cl : Nat) (c : Card) (r : Report) (s : State) : (complete cl c r s).jobs = s.jobs := by
  obtain ⟨m, h⟩ := complete_eq cl c r s
  rw [h]
@[simp] theorem complete_sc (cl : Nat) (c : Card) (r : Report) (s : State) : (complete cl c r s).sc = s.sc := by
  obtain ⟨m, h⟩ := complete_eq cl c r s
  rw [h]
@[simp] theorem complete_wn (cl : Nat) (c : Card) (r : Report) (s : State) : (complete cl c r s).wn = s.wn := by
  obtain ⟨m, h⟩ := complete_eq cl c r s
  rw [h]
@[simp] theorem complete_pm (cl : Nat) (c : Card) (r : Report) (s : State) : (complete cl c r s).pm = s.pm := by
  obtain ⟨m, h⟩ := complete_eq cl c r s
  rw [h]

@[simp] theorem bump_pending (c : Ctr) (i : Nat) (s : State) : (bump c i s).pending = s.pending := by
  simp [bump]
@[simp] theorem bump_free (c : Ctr) (i : Nat) (s : State) : (bump c i s).free = s.free := by
  simp [bump]
@[simp] theorem bump_out (c : Ctr) (i : Nat) (s : State) : (bump c i s).out = s.out := by
  simp [bump]
@[simp] theorem bump_mem (c : Ctr) (i : Nat) (s : State) : (bump c i s).mem = s.mem := by
  simp [bump]
@[simp] theorem bump_fuses (c : Ctr) (i : Nat) (s : State) : (bump c i s).fuses = s.fuses := by
  simp [bump]
@[simp] theorem bump_edge (c : Ctr) (i : Nat) (s : State) : (bump c i s).edge = s.edge := by
  simp [bump]
@[simp] theorem bump_tk (c : Ctr) (i : Nat) (s : State) : (bump c i s).tk = s.tk := by
  simp [bump]
@[simp] theorem bump_units (c : Ctr) (i : Nat) (s : State) : (bump c i s).units = s.units := by
  simp [bump]
@[simp] theorem bump_clusters (c : Ctr) (i : Nat) (s : State) : (bump c i s).clusters = s.clusters := by
  simp [bump]
@[simp] theorem bump_repairFull (c : Ctr) (i : Nat) (s : State) : (bump c i s).repairFull = s.repairFull := by
  simp [bump]
@[simp] theorem bump_maint (c : Ctr) (i : Nat) (s : State) : (bump c i s).maint = s.maint := by
  simp [bump]
@[simp] theorem bump_mt (c : Ctr) (i : Nat) (s : State) : (bump c i s).mt = s.mt := by
  simp [bump]
@[simp] theorem bump_gen (c : Ctr) (i : Nat) (s : State) : (bump c i s).gen = s.gen := by
  simp [bump]
@[simp] theorem bump_lrn (c : Ctr) (i : Nat) (s : State) : (bump c i s).lrn = s.lrn := by
  simp [bump]
@[simp] theorem bump_sq (c : Ctr) (i : Nat) (s : State) : (bump c i s).sq = s.sq := by
  simp [bump]
@[simp] theorem bump_streams (c : Ctr) (i : Nat) (s : State) : (bump c i s).streams = s.streams := by
  simp [bump]
@[simp] theorem bump_waiting (c : Ctr) (i : Nat) (s : State) : (bump c i s).waiting = s.waiting := by
  simp [bump]
@[simp] theorem bump_envPorts (c : Ctr) (i : Nat) (s : State) : (bump c i s).envPorts = s.envPorts := by
  simp [bump]
@[simp] theorem bump_pt (c : Ctr) (i : Nat) (s : State) : (bump c i s).pt = s.pt := by
  simp [bump]
@[simp] theorem bump_parts (c : Ctr) (i : Nat) (s : State) : (bump c i s).parts = s.parts := by
  simp [bump]
@[simp] theorem bump_jobs (c : Ctr) (i : Nat) (s : State) : (bump c i s).jobs = s.jobs := by
  simp [bump]
@[simp] theorem bump_sc (c : Ctr) (i : Nat) (s : State) : (bump c i s).sc = s.sc := by
  simp [bump]
@[simp] theorem bump_wn (c : Ctr) (i : Nat) (s : State) : (bump c i s).wn = s.wn := by
  simp [bump]
@[simp] theorem bump_pm (c : Ctr) (i : Nat) (s : State) : (bump c i s).pm = s.pm := by
  simp [bump]

@[simp] theorem decideEnd_pending (j : Nat) (e : JobEnd) (st : Status) (s : State) : (decideEnd j e st s).pending = s.pending := by
  simp [decideEnd]
@[simp] theorem decideEnd_free (j : Nat) (e : JobEnd) (st : Status) (s : State) : (decideEnd j e st s).free = s.free := by
  simp [decideEnd]
@[simp] theorem decideEnd_out (j : Nat) (e : JobEnd) (st : Status) (s : State) : (decideEnd j e st s).out = s.out := by
  simp [decideEnd]
@[simp] theorem decideEnd_mem (j : Nat) (e : JobEnd) (st : Status) (s : State) : (decideEnd j e st s).mem = s.mem := by
  simp [decideEnd]
@[simp] theorem decideEnd_ctrs (j : Nat) (e : JobEnd) (st : Status) (s : State) : (decideEnd j e st s).ctrs = s.ctrs := by
  simp [decideEnd]
@[simp] theorem decideEnd_ovfs (j : Nat) (e : JobEnd) (st : Status) (s : State) : (decideEnd j e st s).ovfs = s.ovfs := by
  simp [decideEnd]
@[simp] theorem decideEnd_fuses (j : Nat) (e : JobEnd) (st : Status) (s : State) : (decideEnd j e st s).fuses = s.fuses := by
  simp [decideEnd]
@[simp] theorem decideEnd_edge (j : Nat) (e : JobEnd) (st : Status) (s : State) : (decideEnd j e st s).edge = s.edge := by
  simp [decideEnd]
@[simp] theorem decideEnd_tk (j : Nat) (e : JobEnd) (st : Status) (s : State) : (decideEnd j e st s).tk = s.tk := by
  simp [decideEnd]
@[simp] theorem decideEnd_units (j : Nat) (e : JobEnd) (st : Status) (s : State) : (decideEnd j e st s).units = s.units := by
  simp [decideEnd]
@[simp] theorem decideEnd_clusters (j : Nat) (e : JobEnd) (st : Status) (s : State) : (decideEnd j e st s).clusters = s.clusters := by
  simp [decideEnd]
@[simp] theorem decideEnd_repairFull (j : Nat) (e : JobEnd) (st : Status) (s : State) : (decideEnd j e st s).repairFull = s.repairFull := by
  simp [decideEnd]
@[simp] theorem decideEnd_maint (j : Nat) (e : JobEnd) (st : Status) (s : State) : (decideEnd j e st s).maint = s.maint := by
  simp [decideEnd]
@[simp] theorem decideEnd_mt (j : Nat) (e : JobEnd) (st : Status) (s : State) : (decideEnd j e st s).mt = s.mt := by
  simp [decideEnd]
@[simp] theorem decideEnd_gen (j : Nat) (e : JobEnd) (st : Status) (s : State) : (decideEnd j e st s).gen = s.gen := by
  simp [decideEnd]
@[simp] theorem decideEnd_lrn (j : Nat) (e : JobEnd) (st : Status) (s : State) : (decideEnd j e st s).lrn = s.lrn := by
  simp [decideEnd]
@[simp] theorem decideEnd_sq (j : Nat) (e : JobEnd) (st : Status) (s : State) : (decideEnd j e st s).sq = s.sq := by
  simp [decideEnd]
@[simp] theorem decideEnd_streams (j : Nat) (e : JobEnd) (st : Status) (s : State) : (decideEnd j e st s).streams = s.streams := by
  simp [decideEnd]
@[simp] theorem decideEnd_waiting (j : Nat) (e : JobEnd) (st : Status) (s : State) : (decideEnd j e st s).waiting = s.waiting := by
  simp [decideEnd]
@[simp] theorem decideEnd_envPorts (j : Nat) (e : JobEnd) (st : Status) (s : State) : (decideEnd j e st s).envPorts = s.envPorts := by
  simp [decideEnd]
@[simp] theorem decideEnd_pt (j : Nat) (e : JobEnd) (st : Status) (s : State) : (decideEnd j e st s).pt = s.pt := by
  simp [decideEnd]
@[simp] theorem decideEnd_parts (j : Nat) (e : JobEnd) (st : Status) (s : State) : (decideEnd j e st s).parts = s.parts := by
  simp [decideEnd]
@[simp] theorem decideEnd_sc (j : Nat) (e : JobEnd) (st : Status) (s : State) : (decideEnd j e st s).sc = s.sc := by
  simp [decideEnd]
@[simp] theorem decideEnd_wn (j : Nat) (e : JobEnd) (st : Status) (s : State) : (decideEnd j e st s).wn = s.wn := by
  simp [decideEnd]
@[simp] theorem decideEnd_pm (j : Nat) (e : JobEnd) (st : Status) (s : State) : (decideEnd j e st s).pm = s.pm := by
  simp [decideEnd]

/-! ## What the accessors read after an update -/

@[simp] theorem getCl_setCl_self (cl : Nat) (c : Cluster) (s : State) : getCl (setCl cl c s) cl = c := by simp [getCl]

theorem getCl_setCl_ne {cl k : Nat} (c : Cluster) (s : State) (h : k ≠ cl) : getCl (setCl cl c s) k = getCl s k := by
  simp [getCl, tabGet_tabIns_ne clReset s.clusters c h]

@[simp] theorem getCl_modCl_self (cl : Nat) (f : Cluster → Cluster) (s : State) : getCl (modCl cl f s) cl = f (getCl s cl) :=
  getCl_setCl_self ..

theorem getCl_modCl_ne {cl k : Nat} (f : Cluster → Cluster) (s : State) (h : k ≠ cl) : getCl (modCl cl f s) k = getCl s k :=
  getCl_setCl_ne _ _ h

@[simp] theorem getPart_modPart_self (p : Nat) (f : PartSt → PartSt) (s : State) : getPart (modPart p f s) p = f (getPart s p) := by
  simp [getPart]

theorem getPart_modPart_ne {p q : Nat} (f : PartSt → PartSt) (s : State) (h : q ≠ p) : getPart (modPart p f s) q = getPart s q := by
  simp [getPart, tabGet_tabIns_ne partReset s.parts _ h]

@[simp] theorem getUnit_setUnit_self (k : Nat) (u : UnitSt) (s : State) : getUnit (setUnit k u s) k = u := by
  simp [getUnit]

theorem getUnit_setUnit_ne {k m : Nat} (u : UnitSt) (s : State) (h : m ≠ k) : getUnit (setUnit k u s) m = getUnit s m := by
  have e : unitReset (setUnit k u s) m = unitReset s m := rfl
  simp only [getUnit, setUnit_units, tabFind_tabIns_ne u h, e]

@[simp] theorem getChan_modChan_self (ch : Nat) (f : Chan → Chan) (s : State) : getChan (modChan ch f s) ch = f (getChan s ch) := by
  simp [getChan, modChan]

theorem getChan_modChan_ne {ch c : Nat} (f : Chan → Chan) (s : State) (h : c ≠ ch) : getChan (modChan ch f s) c = getChan s c := by
  simp [getChan, modChan, tabGet_tabIns_ne chanReset s.mt.chans _ h]

theorem getJob_modJob_self {j : Nat} {x : Job} {s : State} (f : Job → Job) (h : getJob s j = some x) :
    getJob (modJob j f s) j = some (f x) := by
  unfold modJob
  rw [h]
  simp [getJob]

theorem getJob_modJob_ne {j k : Nat} (f : Job → Job) (s : State) (h : k ≠ j) : getJob (modJob j f s) k = getJob s k := by
  unfold modJob
  split
  · simp [getJob, tabFind_tabIns_ne _ h]
  · rfl

/-- A decided end stands: a later cause changes nothing of it (R402). -/
theorem decideEnd_first {j : Nat} {x : Job} {s : State} (e : JobEnd) (st : Status) (h : getJob s j = some x)
    (d : x.ending ≠ none) : getJob (decideEnd j e st s) j = some x := by
  simp [decideEnd, getJob_modJob_self _ h, d]

/-- Work for each element of a list keeps what each piece of it keeps. -/
theorem forEach_keeps {α β : Type} (g : State → β) (f : α → State → State) (h : ∀ a s, g (f a s) = g s) :
    ∀ (l : List α) (s : State), g (forEach l f s) = g s
  | [], _ => rfl
  | a :: l, s => by
    have := forEach_keeps g f h l (f a s)
    simpa [forEach, h a s] using this

/-- A predicate that each piece keeps is kept by the whole. -/
theorem forEach_inv {α : Type} (p : State → Prop) (f : α → State → State) (h : ∀ a s, p s → p (f a s)) :
    ∀ (l : List α) {s : State}, p s → p (forEach l f s)
  | [], _, hs => hs
  | a :: l, s, hs => forEach_inv p f h l (h a s hs)

@[simp] theorem forEach_nil {α : Type} (f : α → State → State) (s : State) : forEach [] f s = s := rfl

@[simp] theorem forEach_cons {α : Type} (a : α) (l : List α) (f : α → State → State) (s : State) :
    forEach (a :: l) f s = forEach l f (f a s) := rfl

/-- A command while ticks run ends in its effect, and leaves the queue. -/
theorem running_on {s : State} (f : State → State) (h : s.edge.power = .running) :
    running s f = .next { f s with pending := s.pending } := by simp [running, h]

/-- While no tick runs it changes nothing (log 7). -/
theorem running_off {s : State} (f : State → State) (h : s.edge.power ≠ .running) : running s f = .next s := by
  simp [running, h]

/-- Adding to a counter below its limit adds exactly that. -/
theorem ctrVal_bumpBy {c : Ctr} {i n : Nat} {s : State} (h : ctrVal s c i + n < 2 ^ 64 - 1) (pos : ctrVal s c i + n ≠ 0) :
    ctrVal (bumpBy c i n s) c i = ctrVal s c i + n := by
  simp only [bumpBy, h, ite_true]
  simp only [ctrVal] at pos ⊢
  unfold tabSet
  rw [if_neg pos]
  simp

/-- A counter at its limit sticks there (R447). -/
theorem ctrVal_bumpBy_stick {c : Ctr} {i n : Nat} {s : State} (h : 2 ^ 64 - 1 ≤ ctrVal s c i + n) :
    ctrVal (bumpBy c i n s) c i = 2 ^ 64 - 1 := by
  simp only [bumpBy, Nat.not_lt.mpr h, ite_false]
  simp [ctrVal, tabSet]

end Sys2Proof.Machine
end

