-- ==== Sys2Proof/Laws/Ops.lean ====
section
/-!
SUPPORT. What each shared operation can change: one lemma for each, which says the fields that it may write, and lemmas
for the cases that its callers meet.
-/

namespace Sys2Proof.Machine

/-! ## Views, events and window writes -/

theorem modView_eq (v : Nat) (f : PartSt → PartSt) (g : WnSt → WnSt) (s : State) :
    ∃ a b, modView v f g s = { s with parts := a, wn := b } := by
  unfold modView
  split
  · exact ⟨_, s.wn, rfl⟩
  · split
    · exact ⟨s.parts, _, rfl⟩
    · exact ⟨s.parts, s.wn, rfl⟩

theorem pushEvent_eq (n : Nat) (st : Status) (part detail : Nat) (s : State) :
    ∃ a b, pushEvent n st part detail s = { s with sc := a, out := b } := by
  unfold pushEvent
  split
  · exact ⟨s.sc, s.out, rfl⟩
  · exact ⟨_, _, rfl⟩

theorem deliver_eq (n : Nat) (st : Status) (part detail : Nat) (s : State) :
    ∃ a b, deliver n st part detail s = { s with sc := a, out := b } := by
  unfold deliver
  split
  · exact ⟨s.sc, s.out, rfl⟩
  · rename_i x _
    split
    · exact pushEvent_eq ..
    · obtain ⟨a, b, h⟩ := pushEvent_eq n .mgmtEventsLost 0xFF x.lost
        { s with sc := { s.sc with sessions := tabIns n { x with lost := 0 } s.sc.sessions } }
      obtain ⟨c, d, e⟩ := pushEvent_eq n st part detail (pushEvent n .mgmtEventsLost 0xFF x.lost
        { s with sc := { s.sc with sessions := tabIns n { x with lost := 0 } s.sc.sessions } })
      exact ⟨c, d, by rw [e, h]⟩

/-- An event changes the sessions' lists and what has left the package, and nothing else (R431). -/
theorem raise_eq (st : Status) (part detail : Nat) (s : State) : ∃ a b, raise st part detail s = { s with sc := a, out := b } := by
  unfold raise
  generalize s.sc.sessions.map (·.1) = l
  suffices h : ∀ (l : List Nat) (t : State), (∃ a b, t = { s with sc := a, out := b }) →
      ∃ a b, forEach l (fun n t => if packageRights t (.session n) || (decide (part < 16) && rightsOver t (.session n) part)
        then deliver n st part detail t else t) t = { s with sc := a, out := b } from h l s ⟨s.sc, s.out, rfl⟩
  intro l
  induction l with
  | nil => exact fun t h => h
  | cons n l ih =>
    intro t h
    refine ih _ ?_
    obtain ⟨a, b, rfl⟩ := h
    dsimp only
    split
    · obtain ⟨c, d, e⟩ := deliver_eq n st part detail { s with sc := a, out := b }
      exact ⟨c, d, by rw [e]⟩
    · exact ⟨a, b, rfl⟩

theorem recordDiscard_eq (who : Who) (off kind : Nat) (s : State) :
    ∃ a b c d, recordDiscard who off kind s = { s with parts := a, wn := b, ctrs := c, ovfs := d } := by
  unfold recordDiscard
  dsimp only
  obtain ⟨a, b, h⟩ := modView_eq (viewOf s who) (fun x => { x with discard := (off % 2 ^ 24, kind, s.tk.tick % 2 ^ 32) })
    (fun x => { x with discard := (off % 2 ^ 24, kind, s.tk.tick % 2 ^ 32) }) s
  rw [h]
  split
  · obtain ⟨c, d, e⟩ := bumpBy_eq .wnDiscards (viewOf s who) 1 { s with parts := a, wn := b }
    exact ⟨a, b, c, d, e⟩
  · exact ⟨a, b, s.ctrs, s.ovfs, rfl⟩

/-- A command that stands for a register write takes effect through the window, and not otherwise. -/
theorem writeCmd_up {who : Who} {s : State} (r : Reg) (i w : Nat) (f : State → Wr) (h : windowUp s who = true) :
    writeCmd who r i w f s = endWrite who (regOff r i w) (f s) := by simp [writeCmd, h]

theorem writeCmd_down {who : Who} {s : State} (r : Reg) (i w : Nat) (f : State → Wr) (h : windowUp s who = false) :
    writeCmd who r i w f s = s := by simp [writeCmd, h]

/-- A write with nothing to record only tells its writer the status. -/
theorem endWrite_plain (who : Who) (off : Nat) (st : Status) (s : State) : endWrite who off ⟨st, none, s⟩ = emit (.outcome who st) s := rfl

/-! ## Chains and retirements -/

theorem closeIfDone_eq (cl ch : Nat) (s : State) : ∃ a, closeIfDone cl ch s = { s with clusters := a } := by
  unfold closeIfDone
  split
  · split
    · exact ⟨_, rfl⟩
    · exact ⟨s.clusters, rfl⟩
  · exact ⟨s.clusters, rfl⟩

theorem chainRetire_eq (cl : Nat) (c : Card) (ord : ChainPlace) (s : State) :
    ∃ a, chainRetire cl c ord s = { s with clusters := a } := by
  unfold chainRetire
  split
  · exact ⟨s.clusters, rfl⟩
  · split
    · exact ⟨s.clusters, rfl⟩
    · obtain ⟨a, e⟩ := closeIfDone_eq cl c.chain (modCl cl _ s)
      exact ⟨a, e⟩

/-- A card of no chain leaves every chain as it is. -/
theorem chainRetire_free {c : Card} (h : c.chain = 0) (cl : Nat) (ord : ChainPlace) (s : State) : chainRetire cl c ord s = s := by
  simp [chainRetire, h]

/-- A card that retires without acting leaves at most its completion record and its place in its chain. -/
theorem retireUnrun_eq (cl : Nat) (q : QCard) (st : Status) (s : State) :
    ∃ a b, retireUnrun cl q st s = { s with clusters := a, mem := b } := by
  unfold retireUnrun
  obtain ⟨m, h⟩ := complete_eq cl q.card (Report.of st q.card.unit) s
  rw [h]
  obtain ⟨a, e⟩ := chainRetire_eq cl q.card q.ord { s with mem := m }
  exact ⟨a, m, by rw [e]⟩

/-- The write buffer drains into near memory. -/
theorem drainBuffer_eq (cl : Nat) (s : State) : ∃ a b, drainBuffer cl s = { s with clusters := a, mem := b } := ⟨_, _, rfl⟩

/-- An abort of a use of a chain touches the cluster and memory only (R115). -/
theorem dropUse_eq (cl ch use : Nat) (cause : AbortCause) (s : State) :
    ∃ a b, dropUse cl ch use cause s = { s with clusters := a, mem := b } := by
  unfold dropUse
  split
  · exact ⟨s.clusters, s.mem, rfl⟩
  · split
    · exact ⟨s.clusters, s.mem, rfl⟩
    · dsimp only
      have h : ∀ (l : List QCard) (t : State), (∃ a b, t = { s with clusters := a, mem := b }) →
          ∃ a b, forEach l (fun q t => retireUnrun cl q (abortStatus cause q.card.last) t) t
            = { s with clusters := a, mem := b } := by
        intro l
        induction l with
        | nil => exact fun t h => h
        | cons q l ih =>
          intro t h
          refine ih _ ?_
          obtain ⟨a, b, rfl⟩ := h
          obtain ⟨c, d, e⟩ := retireUnrun_eq cl q (abortStatus cause q.card.last) { s with clusters := a, mem := b }
          exact ⟨c, d, e⟩
      have k : ∀ (l : List QCard) (t : State), (∃ a b, t = { s with clusters := a, mem := b }) →
          ∃ a b, closeIfDone cl ch (forEach l (fun q t => retireUnrun cl q (abortStatus cause q.card.last) t) t)
            = { s with clusters := a, mem := b } := by
        intro l t ht
        obtain ⟨a, b, e⟩ := h l t ht
        rw [e]
        obtain ⟨c, e⟩ := closeIfDone_eq cl ch { s with clusters := a, mem := b }
        exact ⟨c, b, e⟩
      refine k _ _ ?_
      split
      · exact ⟨_, _, rfl⟩
      · exact ⟨_, s.mem, rfl⟩

/-- The end of a job that a fault decides stands in the job's entry alone (R396). -/
theorem faultJob_eq (j : Nat) (st : Status) (s : State) : ∃ a, faultJob j st s = { s with jobs := a } := by
  unfold faultJob decideEnd modJob
  split
  · exact ⟨_, rfl⟩
  · exact ⟨s.jobs, rfl⟩

/-- A retirement, apart from collectives that fall with its chain, touches the cluster, memory and the end of the card's job (R115,
R117, R396). -/
theorem settleCard_eq (cl : Nat) (q : QCard) (r : Report) (s : State) :
    ∃ a b c, settleCard cl q r s = { s with clusters := a, mem := b, jobs := c } := by
  unfold settleCard
  dsimp only
  generalize (if (match useChain (getCl s cl) q.card.chain q.ord.use with
    | some h => decide (h.abort = some .arrivalOvf) && q.card.last
    | none => false) = true then { r with status := Status.chainArrivalOvf } else r) = r'
  obtain ⟨m, h1⟩ := complete_eq cl q.card r' s
  rw [h1]
  obtain ⟨a, b, h2⟩ : ∃ a b, (if (benign r.status || q.card.chain == 0) = true then { s with mem := m }
      else dropUse cl q.card.chain q.ord.use .failed { s with mem := m }) = { s with clusters := a, mem := b } := by
    split
    · exact ⟨s.clusters, m, rfl⟩
    · obtain ⟨a, b, e⟩ := dropUse_eq cl q.card.chain q.ord.use .failed { s with mem := m }
      exact ⟨a, b, e⟩
  rw [h2]
  obtain ⟨c, h3⟩ := chainRetire_eq cl q.card q.ord { s with clusters := a, mem := b }
  rw [h3]
  split
  · obtain ⟨d, h4⟩ := faultJob_eq q.card.job r.status { s with clusters := c, mem := b }
    exact ⟨c, b, d, h4⟩
  · exact ⟨c, b, s.jobs, rfl⟩

/-- A retirement whose status aborts no chain is `settleCard` alone. -/
theorem settle_benign {q : QCard} {r : Report} (h : benign r.status = true ∨ q.card.chain = 0) (cl : Nat) (s : State) :
    settle cl q r s = settleCard cl q r s := by
  rcases h with h | h <;> simp [settle, h]

/-- A retirement with a status that aborts no chain touches the cluster, memory and the end of the card's job. -/
theorem settle_eq {q : QCard} {r : Report} (h : benign r.status = true ∨ q.card.chain = 0) (cl : Nat) (s : State) :
    ∃ a b c, settle cl q r s = { s with clusters := a, mem := b, jobs := c } := by
  rw [settle_benign h]
  exact settleCard_eq cl q r s

/-! ## What falls with an aborted chain -/

/-- The fields that no abort of a chain or a collective touches, whatever it brings down (R115, R334, R335). -/
structure AbortFrame (s t : State) : Prop where
  pending : t.pending = s.pending
  fuses : t.fuses = s.fuses
  edge : t.edge = s.edge
  tk : t.tk = s.tk
  units : t.units = s.units
  repairFull : t.repairFull = s.repairFull
  maint : t.maint = s.maint
  refills : t.refills = s.refills
  mt : t.mt = s.mt
  gen : t.gen = s.gen
  lrn : t.lrn = s.lrn
  streams : t.streams = s.streams
  envPorts : t.envPorts = s.envPorts
  pt : t.pt = s.pt
  wn : t.wn = s.wn
  pm : t.pm = s.pm

namespace AbortFrame

theorem refl (s : State) : AbortFrame s s := ⟨rfl, rfl, rfl, rfl, rfl, rfl, rfl, rfl, rfl, rfl, rfl, rfl, rfl, rfl, rfl, rfl⟩

theorem trans {s t u : State} (h : AbortFrame s t) (k : AbortFrame t u) : AbortFrame s u := by
  cases h; cases k
  constructor <;> simp_all

theorem forEach {α : Type} (l : List α) (f : α → State → State) (hf : ∀ a t, AbortFrame t (f a t)) (s : State) :
    AbortFrame s (Machine.forEach l f s) := by
  induction l generalizing s with
  | nil => exact refl s
  | cons a l ih => exact (hf a s).trans (ih (f a s))

end AbortFrame

/-- Closes a frame goal for an update that writes other fields only. -/
theorem AbortFrame.of_fields {s : State} (out free ctrs ovfs clusters mem jobs sq parts sc waiting) :
    AbortFrame s { s with out := out, free := free, ctrs := ctrs, ovfs := ovfs, clusters := clusters, mem := mem, jobs := jobs,
                          sq := sq, parts := parts, sc := sc, waiting := waiting } :=
  ⟨rfl, rfl, rfl, rfl, rfl, rfl, rfl, rfl, rfl, rfl, rfl, rfl, rfl, rfl, rfl, rfl⟩

theorem dropUse_frame (cl ch use : Nat) (cause : AbortCause) (s : State) : AbortFrame s (dropUse cl ch use cause s) := by
  obtain ⟨a, b, e⟩ := dropUse_eq cl ch use cause s
  rw [e]
  exact .of_fields s.out s.free s.ctrs s.ovfs a b s.jobs s.sq s.parts s.sc s.waiting

theorem settleCard_frame (cl : Nat) (q : QCard) (r : Report) (s : State) : AbortFrame s (settleCard cl q r s) := by
  obtain ⟨a, b, c, e⟩ := settleCard_eq cl q r s
  rw [e]
  exact .of_fields s.out s.free s.ctrs s.ovfs a b c s.sq s.parts s.sc s.waiting

theorem modJob_frame (j : Nat) (f : Job → Job) (s : State) : AbortFrame s (modJob j f s) := by
  unfold modJob
  split
  · exact .of_fields s.out s.free s.ctrs s.ovfs s.clusters s.mem _ s.sq s.parts s.sc s.waiting
  · exact .refl s

theorem raise_frame (st : Status) (part detail : Nat) (s : State) : AbortFrame s (raise st part detail s) := by
  obtain ⟨a, b, e⟩ := raise_eq st part detail s
  rw [e]
  exact .of_fields b s.free s.ctrs s.ovfs s.clusters s.mem s.jobs s.sq s.parts a s.waiting

theorem bump_frame (c : Ctr) (i : Nat) (s : State) : AbortFrame s (bump c i s) := by
  obtain ⟨a, b, e⟩ := bumpBy_eq c i 1 s
  unfold bump
  rw [e]
  exact .of_fields s.out s.free a b s.clusters s.mem s.jobs s.sq s.parts s.sc s.waiting

theorem modPart_frame (p : Nat) (f : PartSt → PartSt) (s : State) : AbortFrame s (modPart p f s) :=
  .of_fields s.out s.free s.ctrs s.ovfs s.clusters s.mem s.jobs s.sq _ s.sc s.waiting

theorem pushFrame_frame (n pkg flow v : Nat) (flits : List (List Byte)) (s : State) :
    AbortFrame s (pushFrame n pkg flow v flits s) := by
  exact .of_fields _ s.free s.ctrs s.ovfs s.clusters s.mem s.jobs _ s.parts s.sc s.waiting

theorem pushFrames_frame (k n pkg flow v : Nat) (flits : List (List Byte)) (s : State) :
    AbortFrame s (pushFrames k n pkg flow v flits s) := by
  induction k generalizing flits s with
  | zero => exact .refl s
  | succ k ih =>
    unfold pushFrames
    split
    · exact .refl s
    · exact (pushFrame_frame ..).trans (ih ..)

theorem sendPart_frame (pkg flow v : Nat) (flits : List (List Byte)) (s : State) :
    AbortFrame s (sendPart pkg flow v flits s).2 := by
  unfold sendPart
  split
  · exact .refl s
  · exact pushFrames_frame ..

/-- A message that leaves, or waits, touches ports, what has left and what waits (R320, R324). -/
theorem sendOut_frame (w : Waiting) (s : State) : AbortFrame s (sendOut w s) := by
  unfold sendOut
  dsimp only
  split
  · exact .of_fields s.out s.free s.ctrs s.ovfs s.clusters s.mem s.jobs s.sq s.parts s.sc _
  · split
    · exact (sendPart_frame ..).trans (.of_fields _ _ _ _ _ _ _ _ _ _ _)
    · exact (sendPart_frame ..).trans (.of_fields _ _ _ _ _ _ _ _ _ _ _)

theorem sendRoot_frame (pkg : Nat) (h : Head) (o : Out) (s : State) : AbortFrame s (sendRoot pkg h o s) := by
  unfold sendRoot sendCtrlOut
  exact AbortFrame.trans (.of_fields s.out (s.free + 8) s.ctrs s.ovfs s.clusters s.mem s.jobs s.sq s.parts s.sc s.waiting)
    (sendOut_frame ..)

theorem endColl_frame (cl k : Nat) (s : State) : AbortFrame s (endColl cl k s) := by
  unfold endColl
  split
  · exact .refl s
  · exact AbortFrame.trans (.of_fields s.out s.free s.ctrs s.ovfs _ s.mem s.jobs s.sq s.parts s.sc s.waiting)
      (settleCard_frame ..)

theorem dropNorm_frame (j : Nat) (s : State) : AbortFrame s (dropNorm j s) := by
  unfold dropNorm
  split
  · exact .refl s
  · refine (modJob_frame ..).trans (AbortFrame.forEach _ _ (fun p t => ?_) _)
    split
    · exact .refl t
    · exact dropUse_frame ..

theorem spoilAbort_frame (j : Nat) (s : State) : AbortFrame s (spoilAbort j s) := by
  unfold spoilAbort
  split
  · exact .refl s
  · split
    · exact modJob_frame ..
    · exact (modJob_frame ..).trans (modJob_frame ..)

theorem abortHere_frame (j g q : Nat) (cause : Status) (s : State) : AbortFrame s (abortHere j g q cause s) := by
  unfold abortHere
  split
  · exact .refl s
  · split
    · exact .refl s
    · refine AbortFrame.trans ?_ (spoilAbort_frame ..)
      refine AbortFrame.trans ?_ (raise_frame ..)
      refine AbortFrame.trans ?_ (bump_frame ..)
      refine AbortFrame.trans ?_ (modPart_frame ..)
      refine AbortFrame.trans (t := dropColl j g q (modGroup j g (fun y => { y with aborted := setIns q y.aborted }) s))
        ((modJob_frame ..).trans (.of_fields _ _ _ _ _ _ _ _ _ _ _)) ?_
      split
      · exact dropNorm_frame ..
      · refine AbortFrame.forEach _ _ (fun m t => ?_) _
        split
        · exact endColl_frame ..
        · exact .refl t

theorem abortColl_frame (j g q : Nat) (cause : Status) (s : State) : AbortFrame s (abortColl j g q cause s) :=
  (AbortFrame.forEach _ _ (fun _ _ => sendRoot_frame ..) s).trans (abortHere_frame ..)

theorem fellN_frame (n : Nat) (s : State) : AbortFrame s (fellN n s) := by
  induction n generalizing s with
  | zero => exact .refl s
  | succ n ih =>
    unfold fellN
    split
    · exact .refl s
    · exact (abortColl_frame ..).trans (ih _)

/-- What falls with a chain touches clusters, memory, jobs, collectives, ports and what is sent: nothing else. -/
theorem fellColls_frame (s : State) : AbortFrame s (fellColls s) := fellN_frame ..

/-- With no broken collective nothing falls. -/
theorem fellColls_none {s : State} (h : brokenColls s = []) : fellColls s = s := by
  unfold fellColls
  generalize (s.clusters.map fun e => e.2.colls.length).sum + s.jobs.length = n
  cases n with
  | zero => rfl
  | succ n => simp [fellN, h]

theorem abortUse_frame (cl ch use : Nat) (cause : AbortCause) (s : State) : AbortFrame s (abortUse cl ch use cause s) :=
  (dropUse_frame cl ch use cause s).trans (fellColls_frame _)

theorem abortChain_frame (cl ch : Nat) (cause : AbortCause) (s : State) : AbortFrame s (abortChain cl ch cause s) := by
  unfold abortChain
  split
  · exact .refl s
  · exact abortUse_frame ..

/-- A retirement with any status (R115, R117, R334, R396). -/
theorem settle_frame (cl : Nat) (q : QCard) (r : Report) (s : State) : AbortFrame s (settle cl q r s) := by
  unfold settle
  dsimp only
  split
  · exact settleCard_frame ..
  · exact (settleCard_frame ..).trans (fellColls_frame _)

/-- An arrival, with the abort of its chain at the count's limit (R113). -/
theorem chainArrive_frame (cl ch : Nat) (s : State) : AbortFrame s (chainArrive cl ch s) := by
  unfold chainArrive
  dsimp only
  split
  · exact abortChain_frame ..
  · exact .of_fields s.out s.free s.ctrs s.ovfs _ s.mem s.jobs s.sq s.parts s.sc s.waiting

/-- An arrival below the limit counts one, for its chain alone. -/
theorem arrivals_chainArrive {cl ch : Nat} {s : State} (h : tabGet 0 (getCl s cl).arrivals ch ≠ 65535) :
    tabGet 0 (getCl (chainArrive cl ch s) cl).arrivals ch = tabGet 0 (getCl s cl).arrivals ch + 1 := by
  unfold chainArrive
  rw [if_neg h]
  simp [tabSet]

/-! ## The control core -/

/-- A card that may execute does, with the core free for its list's next. -/
theorem exec9_go {s : State} {cl op : Nat} {q : QCard} (f : QCard → State → State) (h : ready9 s cl op = some q)
    (ha : abortedAs (useChain (getCl s cl) q.card.chain q.ord.use) q.card = none) (he : q.card.epoch = (getCl s cl).epoch) :
    exec9 cl op f s = f q (clear9 cl s) := by simp [exec9, h, ha, he]

/-- With no card of the opcode in its place nothing happens. -/
theorem exec9_idle {s : State} {cl op : Nat} (f : QCard → State → State) (h : ready9 s cl op = none) : exec9 cl op f s = s := by
  simp [exec9, h]

/-! ## Messages of a session -/

/-- A new message of an open session is performed with its counter taken. -/
theorem message_new {s : State} {h : Hdr} {x : Sess} (f : Sess → State → State) (hs : tabFind h.session s.sc.sessions = some x)
    (h8 : compState s 8 ≠ 2) (hm : h.macOk = true) (hc : x.counter < h.counter)
    (ht : x.replies.find? (fun r => decide (r.1 = h.tag)) = none) :
    message h f s = f { x with counter := h.counter }
      { s with sc := { s.sc with sessions := tabIns h.session { x with counter := h.counter } s.sc.sessions } } := by
  simp [message, hs, h8, hm, Nat.not_le.mpr hc, ht]

/-- A wrong MAC or counter closes the session. -/
theorem message_bad {s : State} {h : Hdr} {x : Sess} (f : Sess → State → State) (hs : tabFind h.session s.sc.sessions = some x)
    (h8 : compState s 8 ≠ 2) (hb : h.macOk = false ∨ h.counter ≤ x.counter) :
    message h f s = closeSession h.session (emit (.outcome (.session h.session) .scSessionMac) s) := by
  rcases hb with hb | hb <;> simp [message, hs, h8, hb]

end Sys2Proof.Machine
end

