-- ==== Sys2Proof/Laws/PerInstr.lean ====
section
/-!
SUPPORT. What holds of every command as syntax, constructor by constructor. Family Named: no word of the opcode table spells
a command, because no row of the table gives bits; a command is known by its name and operands alone.
-/

namespace Sys2Proof.Laws.Named

/-- No word of the table spells the command. -/
def Statement (i : Instr) : Prop := ∀ nbits w, decodeTableWord nbits w ≠ some i

theorem spelled (i : Instr) : Statement i := fun _ _ h => nomatch h

theorem intakeEdge : Statement (.intakeEdge) :=
  spelled _
theorem commitPoint : Statement (.commitPoint) :=
  spelled _
theorem workEnd : Statement (.workEnd) :=
  spelled _
theorem maintenanceSlot : Statement (.maintenanceSlot) :=
  spelled _
theorem boundary (r : Readings) : Statement (.boundary r) :=
  spelled _
theorem tkApplyAtArm (who : Who) (tick : W64) : Statement (.tkApplyAtArm who tick) :=
  spelled _
theorem tkApplyAtDisarm (who : Who) : Statement (.tkApplyAtDisarm who) :=
  spelled _
theorem regWrite (who : Who) (off : Nat) (bytes : Nat) (value : W64) : Statement (.regWrite who off bytes value) :=
  spelled _
theorem tksyncEdge (offsetNs : Int) (widthNs : Nat) : Statement (.tksyncEdge offsetNs widthNs) :=
  spelled _
theorem tickSyncLost : Statement (.tickSyncLost) :=
  spelled _
theorem ptpMessage (m : PtpMsg) : Statement (.ptpMessage m) :=
  spelled _
theorem ptpTimeLost : Statement (.ptpTimeLost) :=
  spelled _
theorem runList (cl : Nat) : Statement (.runList cl) :=
  spelled _
theorem cardPost (cl : Nat) : Statement (.cardPost cl) :=
  spelled _
theorem cardRetire (cl : Nat) (slot : Slot) (poolBad : Bool) : Statement (.cardRetire cl slot poolBad) :=
  spelled _
theorem mv (cl u : Nat) (up : Upset) : Statement (.mv cl u up) :=
  spelled _
theorem mmN (cl u : Nat) (up : Upset) : Statement (.mmN cl u up) :=
  spelled _
theorem rv (cl u : Nat) (up : Upset) : Statement (.rv cl u up) :=
  spelled _
theorem op (cl u : Nat) (up : Upset) : Statement (.op cl u up) :=
  spelled _
theorem ckRetry (cl u : Nat) (up : Upset) : Statement (.ckRetry cl u up) :=
  spelled _
theorem ckRelief (cl u : Nat) (up : Upset) : Statement (.ckRelief cl u up) :=
  spelled _
theorem arithTestReq (who : Who) (target : Nat) : Statement (.arithTestReq who target) :=
  spelled _
theorem storeTestReq (who : Who) (target : Nat) : Statement (.storeTestReq who target) :=
  spelled _
theorem retrainReq (who : Who) (target : Nat) : Statement (.retrainReq who target) :=
  spelled _
theorem linkCalReq (who : Who) (target : Nat) : Statement (.linkCalReq who target) :=
  spelled _
theorem arithTestPass (unit : Nat) (f : Finding) : Statement (.arithTestPass unit f) :=
  spelled _
theorem storeTestStep (unit : Nat) (f : Finding) : Statement (.storeTestStep unit f) :=
  spelled _
theorem retrain (ch : Nat) (busy ok : Bool) : Statement (.retrain ch busy ok) :=
  spelled _
theorem linkCal (lane : Nat) : Statement (.linkCal lane) :=
  spelled _
theorem retrainPeriodic : Statement (.retrainPeriodic) :=
  spelled _
theorem testOutcomeApply (unit : Nat) : Statement (.testOutcomeApply unit) :=
  spelled _
theorem unitRenumber (cl : Nat) : Statement (.unitRenumber cl) :=
  spelled _
theorem unitRefill (unit : Nat) : Statement (.unitRefill unit) :=
  spelled _
theorem unitRechecksum (unit : Nat) (diff : Bool) : Statement (.unitRechecksum unit diff) :=
  spelled _
theorem chainOpen (cl : Nat) : Statement (.chainOpen cl) :=
  spelled _
theorem chainAbort (cl : Nat) : Statement (.chainAbort cl) :=
  spelled _
theorem vectorCard (cl : Nat) : Statement (.vectorCard cl) :=
  spelled _
theorem vxSrn (cl vd vs2 rs1 : Nat) : Statement (.vxSrn cl vd vs2 rs1) :=
  spelled _
theorem vxPack (cl vd vs2 rs1 : Nat) : Statement (.vxPack cl vd vs2 rs1) :=
  spelled _
theorem vxUnpk (cl vd vs2 rs1 : Nat) : Statement (.vxUnpk cl vd vs2 rs1) :=
  spelled _
theorem vxNorm (cl vd : Nat) : Statement (.vxNorm cl vd) :=
  spelled _
theorem transpose (cl : Nat) : Statement (.transpose cl) :=
  spelled _
theorem gather (cl : Nat) : Statement (.gather cl) :=
  spelled _
theorem chkrow (cl : Nat) : Statement (.chkrow cl) :=
  spelled _
theorem stat (cl : Nat) : Statement (.stat cl) :=
  spelled _
theorem softmax (cl : Nat) : Statement (.softmax cl) :=
  spelled _
theorem rmsnorm (cl : Nat) : Statement (.rmsnorm cl) :=
  spelled _
theorem layernorm (cl : Nat) : Statement (.layernorm cl) :=
  spelled _
theorem act (cl : Nat) : Statement (.act cl) :=
  spelled _
theorem deriv (cl : Nat) : Statement (.deriv cl) :=
  spelled _
theorem merge (cl : Nat) : Statement (.merge cl) :=
  spelled _
theorem reduce (cl : Nat) : Statement (.reduce cl) :=
  spelled _
theorem check (cl : Nat) : Statement (.check cl) :=
  spelled _
theorem round (cl : Nat) : Statement (.round cl) :=
  spelled _
theorem quant (cl : Nat) : Statement (.quant cl) :=
  spelled _
theorem finishCard (cl : Nat) : Statement (.finishCard cl) :=
  spelled _
theorem tileSender (cl : Nat) (poolBad : Bool) : Statement (.tileSender cl poolBad) :=
  spelled _
theorem tileArrival (h : Head) (data : List Byte) : Statement (.tileArrival h data) :=
  spelled _
theorem append (cl : Nat) : Statement (.append cl) :=
  spelled _
theorem walk (cl : Nat) : Statement (.walk cl) :=
  spelled _
theorem fill (cl : Nat) : Statement (.fill cl) :=
  spelled _
theorem rgMask (cl : Nat) : Statement (.rgMask cl) :=
  spelled _
theorem scan (cl : Nat) : Statement (.scan cl) :=
  spelled _
theorem final (cl : Nat) : Statement (.final cl) :=
  spelled _
theorem gmInit (cl : Nat) : Statement (.gmInit cl) :=
  spelled _
theorem gmMask (cl : Nat) : Statement (.gmMask cl) :=
  spelled _
theorem advance (cl : Nat) : Statement (.advance cl) :=
  spelled _
theorem stepDone (cl : Nat) (poolBad : Bool) : Statement (.stepDone cl poolBad) :=
  spelled _
theorem move (cl : Nat) (up : MemUpset) : Statement (.move cl up) :=
  spelled _
theorem accum (cl : Nat) (up : MemUpset) : Statement (.accum cl up) :=
  spelled _
theorem mtRemoteTimeout (cl k : Nat) : Statement (.mtRemoteTimeout cl k) :=
  spelled _
theorem prefetchLand (cl i : Nat) (up : MemUpset) (data : List Byte) (refused : Option Status) : Statement (.prefetchLand cl i up data refused) :=
  spelled _
theorem refreshSlot (ch : Nat) (corrected poisoned : List Nat) : Statement (.refreshSlot ch corrected poisoned) :=
  spelled _
theorem regionZero (ch : Nat) : Statement (.regionZero ch) :=
  spelled _
theorem reqArrive (p : Nat) (rec : Card) (ns : Nat) : Statement (.reqArrive p rec ns) :=
  spelled _
theorem cancel (p : Nat) (rec : Card) (atPoint : Bool) : Statement (.cancel p rec atPoint) :=
  spelled _
theorem reqAdmitTimeout (p : Nat) (id : Nat) : Statement (.reqAdmitTimeout p id) :=
  spelled _
theorem kvPageWaitLimit (slot : Nat) : Statement (.kvPageWaitLimit slot) :=
  spelled _
theorem ringReadIndex (job : Nat) (index : W64) : Statement (.ringReadIndex job index) :=
  spelled _
theorem smTenantWrite (who : Who) (t : Nat) (value : BitVec 128) : Statement (.smTenantWrite who t value) :=
  spelled _
theorem smLatWindowWrite (who : Who) (value : W64) : Statement (.smLatWindowWrite who value) :=
  spelled _
theorem smLatWindowEnd : Statement (.smLatWindowEnd) :=
  spelled _
theorem publish (cl : Nat) : Statement (.publish cl) :=
  spelled _
theorem ctPublishStart (ctx : Nat) : Statement (.ctPublishStart ctx) :=
  spelled _
theorem ctCapture (ctx i : Nat) : Statement (.ctCapture ctx i) :=
  spelled _
theorem ctEntryReceive (ctx i : Nat) (crcOk : Bool) : Statement (.ctEntryReceive ctx i crcOk) :=
  spelled _
theorem ctSwitchArm (ctx : Nat) : Statement (.ctSwitchArm ctx) :=
  spelled _
theorem ctSwitchBroadcast (ctx : Nat) (tick : Nat) : Statement (.ctSwitchBroadcast ctx tick) :=
  spelled _
theorem ctPublishTimeout (ctx : Nat) : Statement (.ctPublishTimeout ctx) :=
  spelled _
theorem ctLoadReq (who : Who) (value : W64) : Statement (.ctLoadReq who value) :=
  spelled _
theorem ctLoadComplete (p : Nat) (sigOk : Bool) : Statement (.ctLoadComplete p sigOk) :=
  spelled _
theorem stPush (cl : Nat) (up : MemUpset) : Statement (.stPush cl up) :=
  spelled _
theorem stPop (a : StackCard) : Statement (.stPop a) :=
  spelled _
theorem stRead (a : StackCard) : Statement (.stRead a) :=
  spelled _
theorem teachDone (cl : Nat) (poolBad : Bool) : Statement (.teachDone cl poolBad) :=
  spelled _
theorem expTake (cl : Nat) : Statement (.expTake cl) :=
  spelled _
theorem expAnnotate (p : Nat) (w0 w1 w2 w3 : W64) : Statement (.expAnnotate p w0 w1 w2 w3) :=
  spelled _
theorem teachTimeout (ring : Nat) (index : Nat) : Statement (.teachTimeout ring index) :=
  spelled _
theorem rewardTimeout (ring : Nat) (index : Nat) : Statement (.rewardTimeout ring index) :=
  spelled _
theorem lsGet (cl u : Nat) (up : Upset) : Statement (.lsGet cl u up) :=
  spelled _
theorem lsPut (cl u : Nat) : Statement (.lsPut cl u) :=
  spelled _
theorem updDone (cl : Nat) : Statement (.updDone cl) :=
  spelled _
theorem updStepAdvance (job : Nat) : Statement (.updStepAdvance job) :=
  spelled _
theorem normPost (cl : Nat) (poolBad : Bool) : Statement (.normPost cl poolBad) :=
  spelled _
theorem normResult (job : Nat) (remote : NormParts) : Statement (.normResult job remote) :=
  spelled _
theorem coll (cl : Nat) : Statement (.coll cl) :=
  spelled _
theorem collSetup (job group : Nat) (reports : List CollReport) (grants : Bool) : Statement (.collSetup job group reports grants) :=
  spelled _
theorem chunkIn (h : Head) (data : List Byte) : Statement (.chunkIn h data) :=
  spelled _
theorem chunkOut (rank : Nat) (h : Head) (data : List Byte) : Statement (.chunkOut rank h data) :=
  spelled _
theorem memReq (pkg : Nat) (h : Head) (cls : Nat) (addr : W64) : Statement (.memReq pkg h cls addr) :=
  spelled _
theorem memData (cl k : Nat) (first : Nat) (data : List Byte) (refused : Option Status) : Statement (.memData cl k first data refused) :=
  spelled _
theorem sqTimeout (cl : Nat) (group : Nat) : Statement (.sqTimeout cl group) :=
  spelled _
theorem abort (job group seq : Nat) : Statement (.abort job group seq) :=
  spelled _
theorem poison (job group seq chunk step : Nat) : Statement (.poison job group seq chunk step) :=
  spelled _
theorem jobRollback (job : Nat) : Statement (.jobRollback job) :=
  spelled _
theorem sqFrameRx (port : Nat) (f : Frame) : Statement (.sqFrameRx port f) :=
  spelled _
theorem sqAck (port : Nat) (f : Frame) : Statement (.sqAck port f) :=
  spelled _
theorem sqNak (port : Nat) (f : Frame) : Statement (.sqNak port f) :=
  spelled _
theorem sqRetransTimeout (port : Nat) (dead : Bool) : Statement (.sqRetransTimeout port dead) :=
  spelled _
theorem sqPortUp (port : Nat) : Statement (.sqPortUp port) :=
  spelled _
theorem sqCtrlMsg (m : CtrlMsg) : Statement (.sqCtrlMsg m) :=
  spelled _
theorem contrailMsg (job i : Nat) (data : List Byte) (crc : W32) : Statement (.contrailMsg job i data crc) :=
  spelled _
theorem afterglowMsg (job pkg die cut : Nat) (offset : Nat) (data : List Byte) (last crcOk : Bool) : Statement (.afterglowMsg job pkg die cut offset data last crcOk) :=
  spelled _
theorem horizonMsg (stream : Nat) (toPort : Bool) (tick : Nat) (epochTag : Nat) (payload : List Byte) : Statement (.horizonMsg stream toPort tick epochTag payload) :=
  spelled _
theorem agCopyOpen (job : Nat) : Statement (.agCopyOpen job) :=
  spelled _
theorem agCopyClose (job die : Nat) : Statement (.agCopyClose job die) :=
  spelled _
theorem agCopyTimeout (job : Nat) : Statement (.agCopyTimeout job) :=
  spelled _
theorem agSeal (job : Nat) : Statement (.agSeal job) :=
  spelled _
theorem agDrainStart (job : Nat) : Statement (.agDrainStart job) :=
  spelled _
theorem agNarrowDone (job die : Nat) : Statement (.agNarrowDone job die) :=
  spelled _
theorem agDrainTimeout (job : Nat) (failed : Bool) : Statement (.agDrainTimeout job failed) :=
  spelled _
theorem preempt (who : Who) (job : Nat) : Statement (.preempt who job) :=
  spelled _
theorem agPreemptApply (job : Nat) : Statement (.agPreemptApply job) :=
  spelled _
theorem resume (who : Who) (job : Nat) : Statement (.resume who job) :=
  spelled _
theorem recover (who : Who) (job pkg : Nat) : Statement (.recover who job pkg) :=
  spelled _
theorem shrink (who : Who) (job pkg : Nat) : Statement (.shrink who job pkg) :=
  spelled _
theorem exportImage (who : Who) (job rd region : Nat) : Statement (.exportImage who job rd region) :=
  spelled _
theorem hzObsRx (port : Nat) (d : Datagram) : Statement (.hzObsRx port d) :=
  spelled _
theorem hzPost (cl : Nat) (poolBad : Bool) : Statement (.hzPost cl poolBad) :=
  spelled _
theorem hzHoldLimit (stream : Nat) : Statement (.hzHoldLimit stream) :=
  spelled _
theorem hzOpen (who : Who) (stream : Nat) : Statement (.hzOpen who stream) :=
  spelled _
theorem hzClose (who : Who) (stream : Nat) : Statement (.hzClose who stream) :=
  spelled _
theorem hzActstoreWrite (who : Who) (stream : Nat) (park : Bool) (w : Nat) (value : W64) : Statement (.hzActstoreWrite who stream park w value) :=
  spelled _
theorem hzStreamWrite (who : Who) (stream : Nat) (peer : Bool) (w : Nat) (value : W64) : Statement (.hzStreamWrite who stream peer w value) :=
  spelled _
theorem hzNeighborReq (port : Nat) (v6 : Bool) (ip : BitVec 128) : Statement (.hzNeighborReq port v6 ip) :=
  spelled _
theorem hzPortDown (port : Nat) : Statement (.hzPortDown port) :=
  spelled _
theorem create (who : Who) (p : Nat) : Statement (.create who p) :=
  spelled _
theorem teardown (who : Who) (p : Nat) : Statement (.teardown who p) :=
  spelled _
theorem jobEnd (who : Who) (job : Nat) : Statement (.jobEnd who job) :=
  spelled _
theorem kill (who : Who) (job : Nat) : Statement (.kill who job) :=
  spelled _
theorem grant (who : Who) (rd region p : Nat) : Statement (.grant who rd region p) :=
  spelled _
theorem accept (who : Who) (rd region p : Nat) : Statement (.accept who rd region p) :=
  spelled _
theorem revoke (who : Who) (rd region p : Nat) : Statement (.revoke who rd region p) :=
  spelled _
theorem ptGrantExpire (rd region p : Nat) : Statement (.ptGrantExpire rd region p) :=
  spelled _
theorem ptViewWrite (who : Who) (value : W64) : Statement (.ptViewWrite who value) :=
  spelled _
theorem wnJobSubmit (who : Who) (value : W64) : Statement (.wnJobSubmit who value) :=
  spelled _
theorem jobAdmit (view : Nat) : Statement (.jobAdmit view) :=
  spelled _
theorem dieFault (die : Nat) : Statement (.dieFault die) :=
  spelled _
theorem scAttestReq (who : Who) (value : W64) (nonce : List Byte) : Statement (.scAttestReq who value nonce) :=
  spelled _
theorem attestReport : Statement (.attestReport) :=
  spelled _
theorem hello (keyIndex : Nat) (qc : Nat) : Statement (.hello keyIndex qc) :=
  spelled _
theorem prove (keyIndex : Nat) (sigOk : Bool) : Statement (.prove keyIndex sigOk) :=
  spelled _
theorem scSessionIdle (n : Nat) : Statement (.scSessionIdle n) :=
  spelled _
theorem scAuthLockEnd : Statement (.scAuthLockEnd) :=
  spelled _
theorem read (h : Hdr) (off words : Nat) : Statement (.read h off words) :=
  spelled _
theorem write (h : Hdr) (off : Nat) (values : List W64) : Statement (.write h off values) :=
  spelled _
theorem bulkWrite (h : Hdr) (t : BulkTarget) (off : Nat) (data : List Byte) : Statement (.bulkWrite h t off data) :=
  spelled _
theorem bulkRead (h : Hdr) (t : BulkTarget) (off len : Nat) : Statement (.bulkRead h t off len) :=
  spelled _
theorem eventAck (h : Hdr) (seq : Nat) : Statement (.eventAck h seq) :=
  spelled _
theorem logRead (h : Hdr) (ring first count : Nat) : Statement (.logRead h ring first count) :=
  spelled _
theorem traceRead (h : Hdr) (first count : Nat) : Statement (.traceRead h first count) :=
  spelled _
theorem flashWrite (h : Hdr) (device : Nat) (image : BootImage) (readBackOk : Bool) : Statement (.flashWrite h device image readBackOk) :=
  spelled _
theorem reset (h : Hdr) : Statement (.reset h) :=
  spelled _
theorem close (h : Hdr) : Statement (.close h) :=
  spelled _
theorem wnPkgWrite (who : Who) (value : W64) : Statement (.wnPkgWrite who value) :=
  spelled _
theorem wnHotReq (who : Who) (value : W64) (sigValid : Bool) : Statement (.wnHotReq who value sigValid) :=
  spelled _
theorem hotSwitch : Statement (.hotSwitch) :=
  spelled _
theorem componentFault (c inst : Nat) : Statement (.componentFault c inst) :=
  spelled _
theorem componentRestart (c inst : Nat) : Statement (.componentRestart c inst) :=
  spelled _
theorem startUp (env : StartEnv) : Statement (.startUp env) :=
  spelled _
theorem bootService (keyHash : Nat) (m : BootMsg) : Statement (.bootService keyHash m) :=
  spelled _
theorem hazeEnter (cl u : Nat) : Statement (.hazeEnter cl u) :=
  spelled _
theorem hazeExit : Statement (.hazeExit) :=
  spelled _
theorem mistEnter (cl : Nat) : Statement (.mistEnter cl) :=
  spelled _
theorem mistExit : Statement (.mistExit) :=
  spelled _
theorem pmSleep (cl : Nat) : Statement (.pmSleep cl) :=
  spelled _
theorem pmSleepApply (cl : Nat) : Statement (.pmSleepApply cl) :=
  spelled _
theorem pmWake (cl : Nat) : Statement (.pmWake cl) :=
  spelled _
theorem thermalTrip (die temp : Nat) : Statement (.thermalTrip die temp) :=
  spelled _
theorem powerOnReset (flash0 flash1 : Option BootImage) : Statement (.powerOnReset flash0 flash1) :=
  spelled _
theorem rstNRelease : Statement (.rstNRelease) :=
  spelled _
theorem packageReset (ns : Nat) : Statement (.packageReset ns) :=
  spelled _
theorem brownout (high rstLow : Bool) : Statement (.brownout high rstLow) :=
  spelled _
theorem refclkLoss : Statement (.refclkLoss) :=
  spelled _
theorem bypass : Statement (.bypass) :=
  spelled _
theorem samplePreload (cells : BitVec 64) : Statement (.samplePreload cells) :=
  spelled _
theorem extest : Statement (.extest) :=
  spelled _
theorem clamp : Statement (.clamp) :=
  spelled _
theorem highz : Statement (.highz) :=
  spelled _
theorem envPortLinkUp (port : Nat) : Statement (.envPortLinkUp port) :=
  spelled _
theorem regRead (who : Who) (off bytes : Nat) : Statement (.regRead who off bytes) :=
  spelled _
theorem malformedMessage (session : Nat) : Statement (.malformedMessage session) :=
  spelled _
theorem agRestoreDone (job : Nat) : Statement (.agRestoreDone job) :=
  spelled _
theorem agContextSaveDone (job : Nat) : Statement (.agContextSaveDone job) :=
  spelled _

end Sys2Proof.Laws.Named
end

