-- ==== Sys2Proof/WellFormed.lean ====
section
/-!
DEFINITION. Which commands name things that exist: every physical index inside the range the structure of the package
gives it (R1, R5, R8, R46, R105, R161, R322, R367, R388). What software writes into a register or a card is checked by
the command's own rules, not here.
-/

namespace Sys2Proof

/-- A requester: partitions are 0 to 15 (R386), sessions 1 to 64 (R399, log 10). -/
def Who.ok : Who → Bool
  | .cores p => decide (p < 16)
  | .session n => decide (1 ≤ n) && decide (n ≤ 64)

/-- A slot of R105: units 0 to 7, engines 1 to 8, 32 tier operations (R105), 4 collectives (R328). -/
def Slot.ok : Slot → Bool
  | .lane u => decide (u < 8)
  | .eng e => decide (1 ≤ e) && decide (e ≤ 8)
  | .tier k => decide (k < 32)
  | .coll k => decide (k < 4)

/-- A bulk target: rim dies 0 to 7, 256 regions each (R162). -/
def BulkTarget.ok : BulkTarget → Bool
  | .region rd r => decide (rd < 8) && decide (r < 256)
  | .staging => true

/-- Every index of the command exists. -/
def Instr.wellFormed : Instr → Bool
  | .intakeEdge => true
  | .commitPoint => true
  | .workEnd => true
  | .maintenanceSlot => true
  | .boundary _ => true
  | .tkApplyAtArm who _ => who.ok
  | .tkApplyAtDisarm who => who.ok
  | .regWrite who _ _ _ => who.ok
  | .tksyncEdge _ _ => true
  | .tickSyncLost => true
  | .ptpMessage _ => true
  | .ptpTimeLost => true
  | .runList cl => decide (cl < 1792)
  | .cardPost cl => decide (cl < 1792)
  | .cardRetire cl slot _ => decide (cl < 1792) && slot.ok
  | .mv cl u _ => decide (cl < 1792) && decide (u < 8)
  | .mmN cl u _ => decide (cl < 1792) && decide (u < 8)
  | .rv cl u _ => decide (cl < 1792) && decide (u < 8)
  | .op cl u _ => decide (cl < 1792) && decide (u < 8)
  | .ckRetry cl u _ => decide (cl < 1792) && decide (u < 8)
  | .ckRelief cl u _ => decide (cl < 1792) && decide (u < 8)
  | .arithTestReq who _ => who.ok
  | .storeTestReq who _ => who.ok
  | .retrainReq who _ => who.ok
  | .linkCalReq who _ => who.ok
  | .arithTestPass unit _ => decide (unit < 14336)
  | .storeTestStep unit _ => decide (unit < 14336)
  | .retrain ch _ _ => decide (ch < 128)
  | .linkCal lane => decide (lane < 256)
  | .retrainPeriodic => true
  | .testOutcomeApply unit => decide (unit < 14336)
  | .unitRenumber cl => decide (cl < 1792)
  | .unitRefill unit => decide (unit < 14336)
  | .unitRechecksum unit _ => decide (unit < 14336)
  | .chainOpen cl => decide (cl < 1792)
  | .chainAbort cl => decide (cl < 1792)
  | .vectorCard cl => decide (cl < 1792)
  | .vxSrn cl vd vs2 rs1 => decide (cl < 1792) && decide (vd < 32) && decide (vs2 < 32) && decide (rs1 < 32)
  | .vxPack cl vd vs2 rs1 => decide (cl < 1792) && decide (vd < 32) && decide (vs2 < 32) && decide (rs1 < 32)
  | .vxUnpk cl vd vs2 rs1 => decide (cl < 1792) && decide (vd < 32) && decide (vs2 < 32) && decide (rs1 < 32)
  | .vxNorm cl vd => decide (cl < 1792) && decide (vd < 32)
  | .transpose cl => decide (cl < 1792)
  | .gather cl => decide (cl < 1792)
  | .chkrow cl => decide (cl < 1792)
  | .stat cl => decide (cl < 1792)
  | .softmax cl => decide (cl < 1792)
  | .rmsnorm cl => decide (cl < 1792)
  | .layernorm cl => decide (cl < 1792)
  | .act cl => decide (cl < 1792)
  | .deriv cl => decide (cl < 1792)
  | .merge cl => decide (cl < 1792)
  | .reduce cl => decide (cl < 1792)
  | .check cl => decide (cl < 1792)
  | .round cl => decide (cl < 1792)
  | .quant cl => decide (cl < 1792)
  | .finishCard cl => decide (cl < 1792)
  | .tileSender cl _ => decide (cl < 1792)
  | .tileArrival _ _ => true
  | .append cl => decide (cl < 1792)
  | .walk cl => decide (cl < 1792)
  | .fill cl => decide (cl < 1792)
  | .rgMask cl => decide (cl < 1792)
  | .scan cl => decide (cl < 1792)
  | .final cl => decide (cl < 1792)
  | .gmInit cl => decide (cl < 1792)
  | .gmMask cl => decide (cl < 1792)
  | .advance cl => decide (cl < 1792)
  | .stepDone cl _ => decide (cl < 1792)
  | .move cl _ => decide (cl < 1792)
  | .accum cl _ => decide (cl < 1792)
  | .mtRemoteTimeout cl _ => decide (cl < 1792)
  | .prefetchLand cl _ _ _ _ => decide (cl < 1792)
  | .refreshSlot ch _ _ => decide (ch < 128)
  | .regionZero ch => decide (ch < 128)
  | .reqArrive p _ _ => decide (p < 16)
  | .cancel p _ _ => decide (p < 16)
  | .reqAdmitTimeout p _ => decide (p < 16)
  | .kvPageWaitLimit slot => decide (slot < 65536)
  | .ringReadIndex _ _ => true
  | .smTenantWrite who _ _ => who.ok
  | .smLatWindowWrite who _ => who.ok
  | .smLatWindowEnd => true
  | .publish cl => decide (cl < 1792)
  | .ctPublishStart ctx => decide (ctx < 256)
  | .ctCapture ctx _ => decide (ctx < 256)
  | .ctEntryReceive ctx _ _ => decide (ctx < 256)
  | .ctSwitchArm ctx => decide (ctx < 256)
  | .ctSwitchBroadcast ctx _ => decide (ctx < 256)
  | .ctPublishTimeout ctx => decide (ctx < 256)
  | .ctLoadReq who _ => who.ok
  | .ctLoadComplete p _ => decide (p < 16)
  | .stPush cl _ => decide (cl < 1792)
  | .stPop a => decide (a.cl < 1792)
  | .stRead a => decide (a.cl < 1792)
  | .teachDone cl _ => decide (cl < 1792)
  | .expTake cl => decide (cl < 1792)
  | .expAnnotate p _ _ _ _ => decide (p < 16)
  | .teachTimeout ring _ => decide (ring < 256)
  | .rewardTimeout ring _ => decide (ring < 256)
  | .lsGet cl u _ => decide (cl < 1792) && decide (u < 8)
  | .lsPut cl u => decide (cl < 1792) && decide (u < 8)
  | .updDone cl => decide (cl < 1792)
  | .updStepAdvance _ => true
  | .normPost cl _ => decide (cl < 1792)
  | .normResult _ _ => true
  | .coll cl => decide (cl < 1792)
  | .collSetup _ _ _ _ => true
  | .chunkIn _ _ => true
  | .chunkOut _ _ _ => true
  | .memReq pkg _ cls _ => decide (pkg < 1024) && decide (cls < 8)
  | .memData cl _ _ _ _ => decide (cl < 1792)
  | .sqTimeout cl _ => decide (cl < 1792)
  | .abort _ _ _ => true
  | .poison _ _ _ _ _ => true
  | .jobRollback _ => true
  | .sqFrameRx port _ => decide (port < 256)
  | .sqAck port _ => decide (port < 256)
  | .sqNak port _ => decide (port < 256)
  | .sqRetransTimeout port _ => decide (port < 256)
  | .sqPortUp port => decide (port < 256)
  | .sqCtrlMsg _ => true
  | .contrailMsg _ _ _ _ => true
  | .afterglowMsg _ pkg die _ _ _ _ _ => decide (pkg < 1024) && decide (die < 64)
  | .horizonMsg stream _ _ _ _ => decide (stream < 4096)
  | .agCopyOpen _ => true
  | .agCopyClose _ die => decide (die < 64)
  | .agCopyTimeout _ => true
  | .agSeal _ => true
  | .agDrainStart _ => true
  | .agNarrowDone _ die => decide (die < 64)
  | .agDrainTimeout _ _ => true
  | .preempt who _ => who.ok
  | .agPreemptApply _ => true
  | .resume who _ => who.ok
  | .recover who _ _ => who.ok
  | .shrink who _ _ => who.ok
  | .exportImage who _ _ _ => who.ok
  | .hzObsRx port _ => decide (port < 16)
  | .hzPost cl _ => decide (cl < 1792)
  | .hzHoldLimit stream => decide (stream < 4096)
  | .hzOpen who _ => who.ok
  | .hzClose who _ => who.ok
  | .hzActstoreWrite who stream _ _ _ => who.ok && decide (stream < 4096)
  | .hzStreamWrite who stream _ _ _ => who.ok && decide (stream < 4096)
  | .hzNeighborReq port _ _ => decide (port < 16)
  | .hzPortDown port => decide (port < 16)
  | .create who _ => who.ok
  | .teardown who _ => who.ok
  | .jobEnd who _ => who.ok
  | .kill who _ => who.ok
  | .grant who _ _ _ => who.ok
  | .accept who _ _ _ => who.ok
  | .revoke who _ _ _ => who.ok
  | .ptGrantExpire rd region p => decide (rd < 8) && decide (region < 256) && decide (p < 16)
  | .ptViewWrite who _ => who.ok
  | .wnJobSubmit who _ => who.ok
  | .jobAdmit view => decide (view < 17)
  | .dieFault die => decide (die < 64)
  | .scAttestReq who _ _ => who.ok
  | .attestReport => true
  | .hello _ _ => true
  | .prove _ _ => true
  | .scSessionIdle n => decide (1 ≤ n) && decide (n ≤ 64)
  | .scAuthLockEnd => true
  | .read _ _ _ => true
  | .write _ _ _ => true
  | .bulkWrite _ t _ _ => t.ok
  | .bulkRead _ t _ _ => t.ok
  | .eventAck _ _ => true
  | .logRead _ ring _ _ => decide (ring < 256)
  | .traceRead _ _ _ => true
  | .flashWrite _ device _ _ => decide (device < 2)
  | .reset _ => true
  | .close _ => true
  | .wnPkgWrite who _ => who.ok
  | .wnHotReq who _ _ => who.ok
  | .hotSwitch => true
  | .componentFault c _ => (decide (1 ≤ c) && decide (c ≤ 9))
  | .componentRestart c _ => (decide (1 ≤ c) && decide (c ≤ 9))
  | .startUp _ => true
  | .bootService _ _ => true
  | .hazeEnter cl u => decide (cl < 1792) && decide (u < 8)
  | .hazeExit => true
  | .mistEnter cl => decide (cl < 1792)
  | .mistExit => true
  | .pmSleep cl => decide (cl < 1792)
  | .pmSleepApply cl => decide (cl < 1792)
  | .pmWake cl => decide (cl < 1792)
  | .thermalTrip die _ => decide (die < 64)
  | .powerOnReset _ _ => true
  | .rstNRelease => true
  | .packageReset _ => true
  | .brownout _ _ => true
  | .refclkLoss => true
  | .bypass => true
  | .samplePreload _ => true
  | .extest => true
  | .clamp => true
  | .highz => true
  | .envPortLinkUp port => decide (port < 16)
  | .regRead who _ _ => who.ok
  | .malformedMessage _ => true
  | .agRestoreDone _ => true
  | .agContextSaveDone _ => true

end Sys2Proof
end

