-- ==== Sys2Proof/Tests/Slice0.lean ====
section
/-!
SUPPORT. Tests on small states. Each theorem named hyp_ shows a state and operands that meet the hypotheses of one clause of a
statement, and what the command leaves there; each named ill_ a command that WellFormed refuses.
-/

namespace Sys2Proof.Tests

open Sys2Proof Sys2Proof.Machine

set_option Elab.async false

/-! ## Small states -/

/-- What a command leaves, as a check. -/
def after (c : Instr) (s : State) (f : State → Bool) : Bool := match exec c s with
  | .next t => f t
  | _ => false

/-- The command leaves exactly this state. -/
def gives (c : Instr) (s t : State) : Bool := match exec c s with
  | .next u => decide (u = t)
  | _ => false

/-- Ticks run: tick 10 of 2,000 µs, in the interval `p`. -/
def onAt (p : Phase) : State :=
  { State.reset with
    edge := { State.reset.edge with power := .running, pwrGood := true, rstN := true }
    tk := { State.reset.tk with cfg := ⟨2000, 1500, 100⟩, next := ⟨2000, 1500, 100⟩, tick := 10, started := true, phase := p,
                                lenNs := 2000000, startNs := 20000000 } }

/-- The entry of partition 0: VALID, 100 W, region 0 of die 0. -/
def entry0 : BitVec 1024 := BitVec.ofNat 1024 (16 + 100 * 2 ^ 16 + 2 ^ 64)

/-- A job of partition 0 with cluster 0, handle 1. -/
def job1 : Job :=
  { part := 0, name := 0, packages := [0], rank := 0, clusters := [(0, 0)], members := [(0, 0, 0)], poolPages := [], regions := [], prefetch := [],
    vectorCode := none, runTable := [], seed := 0#64, firstTick := 1, admitTick := 0, j := 4, gen := none, learn := none, upd := none,
    ctx := none, ag := none, groups := [], streams := [], libs := [], ending := none, held := false, agreed := [], spoiled := [],
    abortedStep := none, placement := 0#64, dropped := [] }

/-- Cluster 0 in Clear, held by job 1 with class `cls`. -/
def clOf (cls : Nat) : Cluster := { clReset with owner := some (cls, 0, 1), pm := .clear }

/-- Ticks run and job 1 holds cluster 0 with class `cls`. -/
def jobAt (cls : Nat) (p : Phase) : State :=
  { onAt p with clusters := [(0, clOf cls)], jobs := [(1, job1)], pt := { (onAt p).pt with table := [(0, entry0)] } }

/-- A session with package rights, and one with rights over partition 1. -/
def sessP : Sess :=
  { keyIndex := 0, package := true, mask := 0xFFFF#16, view := 0, counter := 0, replies := [], events := [], eventSeq := 1, lost := 0 }

def withSess (s : State) : State :=
  { s with sc := { s.sc with sessions := [(1, sessP), (2, { sessP with package := false, mask := 2#16, view := 1 })] } }

/-- A card of no chain in a queue. -/
def qc (c : Card) : QCard := ⟨c, ⟨0, 0⟩⟩

/-- A card with the words given. -/
def card (w0 w1 w2 w3 : Nat) : Card :=
  ⟨BitVec.ofNat 64 w0, BitVec.ofNat 64 w1, BitVec.ofNat 64 w2, BitVec.ofNat 64 w3, 0#64, 0#64, 0#64, 0#64⟩

/-! ## The machine as a whole, and the tick -/

theorem hyp_StepRunsFront_idle : ((onAt .step).pending = [] ∧ core.reset.pending = []) := by decide +kernel

theorem test_step_front :
    (match step { onAt .step with pending := [.commitPoint, .workEnd] } with
      | .next t => decide (t.tk.phase = .late ∧ t.pending = [.workEnd])
      | _ => false) = true := by decide +kernel

theorem hyp_StepKeepsMemoryCanonical :
    Memory.wf { onAt .step with mem := [(3, 7#8)], pending := [.commitPoint] }.mem = true := by decide +kernel

theorem test_memory_default_removed : memPut [(3, 7#8)] 3 0#8 = [] ∧ memPut [(3, 7#8)] 1 2#8 = [(1, 2#8), (3, 7#8)] := by
  decide +kernel

/-- The package shut off by its thermal trip. -/
def tripped : State :=
  { State.reset with edge := { State.reset.edge with power := .tripped, thermTrip := true }, pending := [.commitPoint, .hello 0 0] }

theorem hyp_TripHolds : Tripped tripped := by
  refine ⟨rfl, rfl, ?_⟩
  intro c h
  have e : c = .commitPoint ∨ c = .hello 0 0 := by
    have h' : c ∈ [Instr.commitPoint, .hello 0 0] := h
    simpa using h'
  rcases e with rfl | rfl
  · exact ⟨fun _ _ => Instr.noConfusion, fun _ _ => Instr.noConfusion⟩
  · exact ⟨fun _ _ => Instr.noConfusion, fun _ _ => Instr.noConfusion⟩

theorem test_trip_holds : (match step tripped with
    | .next t => decide (t = { tripped with pending := [.hello 0 0] })
    | _ => false) = true := by decide +kernel

theorem hyp_TickPoints_intake : ((onAt .boundary).edge.power = .running ∧ (onAt .boundary).tk.phase = .boundary ∧
    takesNumber (onAt .boundary) = false) ∧
    after .intakeEdge (onAt .boundary) (fun t => decide (t.tk.phase = .step ∧ t.tk.tick = 11 ∧ t.tk.startNs = 22000000)) = true := by
  decide +kernel

/-- A SOURCE whose IEEE 1588 time has just become valid. -/
def timed : State :=
  { onAt .boundary with tk := { (onAt .boundary).tk with role := 1, ptpValid := true, startNs := 80000100 } }

theorem hyp_TickPoints_number : takesNumber timed = true ∧ numberAt timed (startOfNext timed) = 41 ∧
    after .intakeEdge timed (fun t => decide (t.tk.tick = 41 ∧ t.tk.numbered = true)) = true := by decide +kernel

theorem test_tick_sticks : after .intakeEdge { onAt .boundary with tk := { (onAt .boundary).tk with tick := 2 ^ 64 - 1 } }
    (fun t => decide (t.tk.tick = 2 ^ 64 - 1)) = true := by decide +kernel

theorem hyp_TickPoints_commit : (onAt .step).tk.phase = .step ∧
    after .commitPoint (onAt .step) (fun t => decide (t.tk = { (onAt .step).tk with phase := .late })) = true := by decide +kernel

theorem hyp_TickPoints_work : (onAt .late).tk.phase = .late ∧
    after .workEnd (onAt .late) (fun t => decide (t.tk = { (onAt .late).tk with phase := .drain })) = true := by decide +kernel

theorem hyp_TickPoints_slot : (onAt .drain).tk.phase = .drain ∧ 0 < (onAt .drain).tk.cfg.maintUs ∧
    after .maintenanceSlot (onAt .drain) (fun t => decide (t.tk = { (onAt .drain).tk with phase := .slot })) = true := by
  decide +kernel

/-- No reading. -/
def quiet : Readings := ⟨[], [], [], 54000, 100, 1000⟩

theorem hyp_TickPoints_boundary : (onAt .slot).tk.phase = .slot ∧
    after (.boundary quiet) (onAt .slot) (fun t => decide (t.tk.phase = .boundary ∧ t.tk.tick = 10)) = true := by decide +kernel

/-- A setting is pending for tick `n`. -/
def armed (n : Nat) : State :=
  { onAt .drain with tk := { (onAt .drain).tk with pending := some (⟨3000, 2000, 200⟩, n), applyAt := n } }

theorem hyp_BoundarySetting_now : (armed 11).tk.pending = some (⟨3000, 2000, 200⟩, (armed 11).tk.tick + 1) ∧
    after (.boundary quiet) (armed 11) (fun t => decide (t.tk.cfg = ⟨3000, 2000, 200⟩ ∧ t.tk.pending = none ∧ t.tk.applyAt = 0))
      = true := by decide +kernel

theorem hyp_BoundarySetting_later : (armed 12).tk.tick + 1 < 12 ∧
    after (.boundary quiet) (armed 12) (fun t => decide (t.tk.cfg = ⟨2000, 1500, 100⟩ ∧ t.tk.applyAt = 12)) = true := by
  decide +kernel

theorem hyp_BoundarySetting_none : (onAt .drain).tk.pending = none ∧
    after (.boundary quiet) (onAt .drain) (fun t => decide (t.tk.cfg = ⟨2000, 1500, 100⟩)) = true := by decide +kernel

theorem hyp_BoundarySetting_stretch : { onAt .drain with pm := { (onAt .drain).pm with level := 3 } }.tk.role ≠ 2 ∧
    after (.boundary quiet) { onAt .drain with pm := { (onAt .drain).pm with level := 3 } }
      (fun t => decide (t.tk.lenNs = 2750000)) = true := by decide +kernel

/-- A follower with a missed edge or two. -/
def follower (m : Nat) : State :=
  { onAt .step with
    tk := { (onAt .step).tk with role := 2, cableDelayNs := 40, lockLimitNs := 100, missedEdges := m, locked := true, ptpValid := true } }

theorem hyp_TickSources_edge : (follower 0).tk.role = 2 ∧
    after (.tksyncEdge (-100) 3100) (follower 0) (fun t => decide (t.tk.offsetNs = -60 ∧ t.tk.locked = true ∧ t.pm.sourceLevel = 2))
      = true := by decide +kernel

theorem hyp_TickSources_timeLost :
    after (.tksyncEdge (-100) 3100) { follower 0 with tk := { (follower 0).tk with timeLost := true } }
      (fun t => decide (t.tk.offsetNs = -60 ∧ t.tk.carryNs = 0 ∧ t.tk.locked = false)) = true := by decide +kernel

theorem hyp_TickSources_lost : (follower 1).tk.missedEdges + 1 ≠ 3 ∧ (follower 2).tk.missedEdges + 1 = 3 ∧
    after .tickSyncLost (follower 2) (fun t => decide (t.tk.syncLost = true ∧ t.tk.locked = false)) = true ∧
    after .tickSyncLost (follower 1) (fun t => decide (t.tk.missedEdges = 2 ∧ t.tk.locked = true)) = true := by decide +kernel

theorem hyp_TickSources_ptpLost : (follower 0).tk.ptpValid = true ∧
    after .ptpTimeLost (follower 0) (fun t => decide (t.tk.ptpValid = false ∧ t.tk.locked = false)) = true := by decide +kernel

/-- A Delay_Req sent at 500 ns waits for its answer. -/
def asked : State := { follower 0 with tk := { (follower 0).tk with ptpOffset := 30, ptpReq := some 500 } }

theorem hyp_TickSources_ptp : (onAt .step).tk.role = 0 ∧ asked.tk.role ≠ 0 ∧ asked.tk.ptpReq = some 500 ∧
    after (.ptpMessage ⟨.sync, true, 0, 77⟩) asked (fun t => decide (t.tk.ptpSync = some 77)) = true ∧
    after (.ptpMessage ⟨.sync, false, 10, 77⟩) asked (fun t => decide (t.tk.ptpOffset = 67)) = true ∧
    after (.ptpMessage ⟨.delayResp, false, 540, 0⟩) asked (fun t => decide (t.tk.ptpDelay = 35 ∧ t.tk.ptpOffset = -5)) = true := by
  decide +kernel

/-! ## Power, resets and board test -/

theorem hyp_PowerAndResets_on : State.reset.edge.power = .off ∧
    after (.powerOnReset none none) State.reset (fun t => decide (t.edge.power = .inReset ∧ t.edge.pwrGood = true)) = true := by
  decide +kernel

/-- Powered, RST_N low. -/
def inReset : State := { State.reset with edge := { State.reset.edge with power := .inReset, pwrGood := true } }

theorem hyp_PowerAndResets_release : inReset.edge.power = .inReset ∧
    after .rstNRelease inReset (fun t => decide (t.edge.power = .released ∧ t.edge.rstN = true)) = true := by decide +kernel

theorem hyp_PowerAndResets_pulse : (onAt .step).edge.power ≠ .off ∧ (onAt .step).edge.power ≠ .tripped ∧
    after (.packageReset 10000) { onAt .step with repairFull := true, ctrs := [(3, 4)], ovfs := [3] }
      (fun t => decide (t.edge.power = .inReset ∧ t.tk.tick = 0 ∧ t.repairFull = true ∧ t.ctrs = [] ∧ t.ovfs = [3])) = true ∧
    gives (.packageReset 9999) (onAt .step) (onAt .step) = true := by decide +kernel

theorem hyp_PowerAndResets_loss : (onAt .step).edge.power ≠ .off ∧
    after (.brownout true false) (onAt .step) (fun t => decide (t.edge.power = .off ∧ t.edge.brownCell = true)) = true ∧
    after .refclkLoss (onAt .step) (fun t => decide (t.edge.power = .clockLost ∧ t.edge.pwrGood = false)) = true ∧
    after (.thermalTrip 3 110) (onAt .step) (fun t => decide (t.edge.power = .tripped ∧ t.edge.thermTrip = true)) = true ∧
    gives (.thermalTrip 3 109) (onAt .step) (onAt .step) = true := by decide +kernel

theorem hyp_BoardTest : inReset.edge.rstN = false ∧ (onAt .step).edge.rstN = true ∧
    after (.samplePreload 5#64) inReset (fun t => decide (t.edge.scan = 5#64 ∧ t.edge.jtag = .sample)) = true ∧
    after .extest inReset (fun t => decide (t.out = [.pins (some 0#64)])) = true ∧
    after .clamp inReset (fun t => decide (t.out = [.pins (some 0#64)] ∧ t.edge.jtag = .clamp)) = true ∧
    after .highz inReset (fun t => decide (t.out = [.pins none])) = true ∧
    gives .bypass (onAt .step) (onAt .step) = true ∧ gives .highz (onAt .step) (onAt .step) = true := by decide +kernel

/-! ## Cards and engines -/

/-- A card of job 1 at epoch 1: engine, class, opcode, and the body words 2 and 3. -/
def ec (e cls op w2 w3 : Nat) : Card := card (e + 16 * cls + 65536 * op) 65537 w2 w3

/-- Job 1's cluster of class `cls` with a card at the head of a queue. -/
def headAt (cls key : Nat) (c : Card) : State :=
  { jobAt cls .step with clusters := [(0, setQ key ⟨queueDepth key, queueDepth key - 1, [qc c]⟩ (clOf cls))] }

/-- The card of `headAt` runs on its engine and has left its queue. -/
def issuedOn (key : Nat) (c : Card) (s t : State) : Bool :=
  decide ((tabFind key (getCl t 0).runs).map (fun r => (r.card, r.ord)) = some (c, ⟨0, 0⟩) ∧ (getQ (getCl t 0) key).cards = [] ∧
    (getQ (getCl t 0) key).credits = (getQ (getCl s 0) key).credits ∧ t.mem = s.mem ∧ t.units = s.units ∧ t.jobs = s.jobs ∧ t.tk = s.tk)

/-- The hypotheses HeadReady of a card in `headAt`, and what its command leaves. -/
def readyRuns (cls key charge : Nat) (c : Card) (i : Instr) : Prop :=
  (headAt cls key c).edge.power = .running ∧ (getQ (getCl (headAt cls key c) 0) key).cards = [qc c] ∧
    engineIdle (headAt cls key c) 0 key = true ∧ waitsMet (getCl (headAt cls key c) 0) (qc c) = true ∧
    c.epoch = (getCl (headAt cls key c) 0).epoch ∧
    canPay (headAt cls key c) (clOwnerPart (headAt cls key c) 0) charge = true ∧
    after i (headAt cls key c) (issuedOn key c (headAt cls key c)) = true

theorem hyp_EngineCardsIssue_transpose : readyRuns 0 10
    (600 * (transposeWork 0 (headAt 0 10 (ec 2 0 0 0 0)) (qc (ec 2 0 0 0 0))).cycles) (ec 2 0 0 0 0) (.transpose 0) := by
  unfold readyRuns
  decide +kernel

theorem hyp_EngineCardsIssue_gather : readyRuns 0 10
    (600 * (gatherWork 0 (headAt 0 10 (ec 2 0 1 0 0)) (qc (ec 2 0 1 0 0))).cycles) (ec 2 0 1 0 0) (.gather 0) := by
  unfold readyRuns
  decide +kernel

theorem hyp_EngineCardsIssue_chkrow : readyRuns 0 10
    (600 * (chkrowWork 0 (headAt 0 10 (ec 2 0 2 0 0)) (qc (ec 2 0 2 0 0))).cycles) (ec 2 0 2 0 0) (.chkrow 0) := by
  unfold readyRuns
  decide +kernel

theorem hyp_EngineCardsIssue_fill : readyRuns 0 14 (300 * rgLength (ec 6 0 0 0 0)) (ec 6 0 0 0 0) (.fill 0) := by
  unfold readyRuns
  decide +kernel

theorem hyp_EngineCardsIssue_rgMask : readyRuns 0 14 (300 * rgLength (ec 6 0 1 0 0)) (ec 6 0 1 0 0) (.rgMask 0) := by
  unfold readyRuns
  decide +kernel

theorem hyp_EngineCardsIssue_scan : readyRuns 0 12 (1000 * scanLength (headAt 0 12 (ec 4 0 0 0 0)) (ec 4 0 0 0 0)) (ec 4 0 0 0 0)
    (.scan 0) := by
  unfold readyRuns
  decide +kernel

theorem hyp_EngineCardsIssue_final : readyRuns 0 12 (1000 * finalLength (headAt 0 12 (ec 4 0 1 0 0)) 0 (ec 4 0 1 0 0)) (ec 4 0 1 0 0)
    (.final 0) := by
  unfold readyRuns
  decide +kernel

theorem hyp_EngineCardsIssue_gmInit : readyRuns 0 13
    (400 * (gmStep 0 (initWork 0) (headAt 0 13 (ec 5 0 0 0 0)) (qc (ec 5 0 0 0 0))).cycles) (ec 5 0 0 0 0) (.gmInit 0) := by
  unfold readyRuns
  decide +kernel

theorem hyp_EngineCardsIssue_gmMask : readyRuns 0 13
    (400 * (gmStep 0 (maskWork 0) (headAt 0 13 (ec 5 0 1 0 0)) (qc (ec 5 0 1 0 0))).cycles) (ec 5 0 1 0 0) (.gmMask 0) := by
  unfold readyRuns
  decide +kernel

theorem hyp_EngineCardsIssue_advance : readyRuns 0 13
    (400 * (gmStep 0 (advanceWork 0) (headAt 0 13 (ec 5 0 2 0 0)) (qc (ec 5 0 2 0 0))).cycles) (ec 5 0 2 0 0) (.advance 0) := by
  unfold readyRuns
  decide +kernel

theorem hyp_EngineCardsIssue_append : readyRuns 0 16
    (400 * (appendWork 0 (headAt 0 16 (ec 8 0 0 0 0)) (qc (ec 8 0 0 0 0))).cycles) (ec 8 0 0 0 0) (.append 0) := by
  unfold readyRuns
  decide +kernel

theorem hyp_EngineCardsIssue_walk : readyRuns 0 16
    (400 * (walkWork 0 (headAt 0 16 (ec 8 0 1 0 0)) (qc (ec 8 0 1 0 0))).cycles) (ec 8 0 1 0 0) (.walk 0) := by
  unfold readyRuns
  decide +kernel

/-- An epilogue card of opcode `op` with zero body. -/
def epi (op : Nat) : Card := ec 3 0 op 0 0

/-- An epilogue command meets its hypotheses. -/
def epiRuns (op : Nat) (i : Instr) : Prop :=
  (finishing (headAt 0 11 (epi op)) 0).isNone = true ∧ bufferFull (headAt 0 11 (epi op)) 0 = false ∧
    readyRuns 0 11 (epiCharge 0 op (headAt 0 11 (epi op)) (qc (epi op))) (epi op) i

theorem hyp_FinishCards_stat : epiRuns 0 (.stat 0) := by
  unfold epiRuns readyRuns
  decide +kernel
theorem hyp_FinishCards_softmax : epiRuns 1 (.softmax 0) := by
  unfold epiRuns readyRuns
  decide +kernel
theorem hyp_FinishCards_rmsnorm : epiRuns 2 (.rmsnorm 0) := by
  unfold epiRuns readyRuns
  decide +kernel
theorem hyp_FinishCards_layernorm : epiRuns 3 (.layernorm 0) := by
  unfold epiRuns readyRuns
  decide +kernel
theorem hyp_FinishCards_act : epiRuns 4 (.act 0) := by
  unfold epiRuns readyRuns
  decide +kernel
theorem hyp_FinishCards_deriv : epiRuns 5 (.deriv 0) := by
  unfold epiRuns readyRuns
  decide +kernel
theorem hyp_FinishCards_merge : epiRuns 6 (.merge 0) := by
  unfold epiRuns readyRuns
  decide +kernel
theorem hyp_FinishCards_reduce : epiRuns 7 (.reduce 0) := by
  unfold epiRuns readyRuns
  decide +kernel
theorem hyp_FinishCards_check : epiRuns 8 (.check 0) := by
  unfold epiRuns readyRuns
  decide +kernel
theorem hyp_FinishCards_round : epiRuns 9 (.round 0) := by
  unfold epiRuns readyRuns
  decide +kernel
theorem hyp_FinishCards_quant : epiRuns 10 (.quant 0) := by
  unfold epiRuns readyRuns
  decide +kernel

/-- The write buffer holds a byte, and an RMSNORM card of 256 rows in a two-pass chain is at the head. -/
def fullBuffer : State :=
  modCl 0 (fun x => { x with
    chains := [(3, ⟨1, 1, 0, [], false, none, false, card 9 65537 0 0, 2, [], none, []⟩)]
    queues := [(11, ⟨8, 7, [⟨ec (3 + 3 * 2 ^ 24) 0 2 (2 ^ 24) 0, ⟨1, 1⟩⟩]⟩)]
    writeBuf := [(chanKey 0 5, 7#8)] }) (jobAt 0 .step)

theorem hyp_FinishCards_full : (finishing fullBuffer 0).isNone = true ∧ bufferFull fullBuffer 0 = true ∧
    after (.rmsnorm 0) fullBuffer (fun t => decide ((getCl t 0).writeBuf = [] ∧ t.mem = [(chanKey 0 5, 7#8)] ∧
      (getQ (getCl t 0) 11).cards.length = 1)) = true := by decide +kernel

/-- A lane-row card of a shape on unit 0. -/
def lc (shape : Nat) : Card := ec 0 0 0 shape 0

/-- No upset. -/
def calm : Upset := ⟨false, 0, []⟩

/-- The lane-row card of `headAt` runs on physical unit 0. -/
def laneOn (c : Card) (main : Bool) (s t : State) : Bool :=
  decide ((tabFind 0 (getCl t 0).runs).map (fun r => (r.card, r.host, r.onMain, r.cycles)) = some (c, 0, main, lrLength c main) ∧
    (getQ (getCl t 0) 0).cards = [] ∧ t.mem = s.mem ∧ t.jobs = s.jobs)

/-- UnitReady of a card on unit 0 in state `s`. -/
def laneReady (c : Card) (s : State) : Bool :=
  decide (s.edge.power = .running ∧ (getQ (getCl s 0) 0).cards = [qc c] ∧ c.opcode = 0 ∧ physOf s 0 0 = some 0 ∧
    engineIdle s 0 0 = true ∧ waitsMet (getCl s 0) (qc c) = true ∧ (getCl s 0).deferred.contains 0 = false ∧ c.epoch = (getCl s 0).epoch ∧
    (getUnit s 0).state = .available ∧ reliefWaits s 0 0 = false ∧ hostIdle s 0 0 = true ∧ accCheck c (getUnit s 0).acc = none)

theorem hyp_LaneCardsIssue_mmN : laneReady (lc 1) (headAt 0 0 (lc 1)) = true ∧ 1 ≤ lrShape (lc 1) ∧ lrShape (lc 5) = 5 ∧
    canPay (headAt 0 0 (lc 1)) 0 (3072 * lrLength (lc 1) false) = true ∧
    after (.mmN 0 0 calm) (headAt 0 0 (lc 1)) (laneOn (lc 1) false (headAt 0 0 (lc 1))) = true ∧
    after (.mmN 0 0 calm) (headAt 0 0 (lc 5)) (laneOn (lc 5) false (headAt 0 0 (lc 5))) = true := by decide +kernel

theorem hyp_LaneCardsIssue_rv : laneReady (lc 6) (headAt 0 0 (lc 6)) = true ∧ lrShape (lc 6) = 6 ∧
    canPay (headAt 0 0 (lc 6)) 0 (3072 * lrLength (lc 6) false) = true ∧
    after (.rv 0 0 calm) (headAt 0 0 (lc 6)) (laneOn (lc 6) false (headAt 0 0 (lc 6))) = true := by decide +kernel

theorem hyp_LaneCardsIssue_op : laneReady (lc 7) (headAt 0 0 (lc 7)) = true ∧ lrShape (lc 7) = 7 ∧
    canPay (headAt 0 0 (lc 7)) 0 (3072 * lrLength (lc 7) false) = true ∧
    after (.op 0 0 calm) (headAt 0 0 (lc 7)) (laneOn (lc 7) false (headAt 0 0 (lc 7))) = true := by decide +kernel

/-- An MV card at the head, and its cluster's permits: assigned and used. -/
def mvAt (c : Card) (n used : Nat) : State := modCl 0 (fun x => { x with permits := n, permitsUsed := used }) (headAt 0 0 c)

theorem hyp_MvPermits_cirrus : laneReady (lc 0) (mvAt (lc 0) 2 1) = true ∧ (getUnit (mvAt (lc 0) 2 1) 0).permit = false ∧
    canPay (mvAt (lc 0) 2 1) 0 (9216 * lrLength (lc 0) false) = true ∧
    after (.mv 0 0 calm) (mvAt (lc 0) 2 1) (laneOn (lc 0) false (mvAt (lc 0) 2 1)) = true ∧
    after (.mv 0 0 calm) (mvAt (lc 0) 2 1) (fun t => decide ((getCl t 0).permitsUsed = 2 ∧ (getUnit t 0).permit = true)) = true := by
  decide +kernel

theorem hyp_MvPermits_main : laneReady (lc (2 ^ 20)) (mvAt (lc (2 ^ 20)) 2 2) = true ∧ lrShape (lc (2 ^ 20)) = 0 ∧
    lrNoPermit (lc (2 ^ 20)) = true ∧ canPay (mvAt (lc (2 ^ 20)) 2 2) 0 (3072 * lrLength (lc (2 ^ 20)) true) = true ∧
    after (.mv 0 0 calm) (mvAt (lc (2 ^ 20)) 2 2) (laneOn (lc (2 ^ 20)) true (mvAt (lc (2 ^ 20)) 2 2)) = true ∧
    after (.mv 0 0 calm) (mvAt (lc (2 ^ 20)) 2 2) (fun t => decide (ctrVal t .lwCirrusMain 0 = 1)) = true := by decide +kernel

theorem hyp_MvPermits_rejected : laneReady (lc 0) (mvAt (lc 0) 0 0) = true ∧ lrNoPermit (lc 0) = false ∧
    after (.mv 0 0 calm) (mvAt (lc 0) 0 0) (fun t => decide ((getQ (getCl t 0) 0).credits = 16 ∧ (getCl t 0).runs = [])) = true := by
  decide +kernel

/-- A run of a checked card whose attempts have come to `a`. -/
def failed (a : Attempt) : State :=
  modCl 0 (fun x => { x with runs := [(0, { runOf (qc (lc 1)) with attempt := a, host := 0 })] }) (jobAt 0 .step)

theorem hyp_RetryAndRelief_retry : (tabFind 0 (getCl (failed .retryDue) 0).runs).map (·.attempt) = some .retryDue ∧
    (getCl (failed .retryDue) 0).owner = some (0, 0, 1) ∧ cardWindow (failed .retryDue) 0 (lc 1) = true ∧ physOf (failed .retryDue) 0 0 = some 0 ∧
    (getUnit (failed .retryDue) 0).state = .available ∧ hostIdle (failed .retryDue) 0 0 = true ∧
    jobIssues (failed .retryDue) 1 = true ∧ awake (getCl (failed .retryDue) 0) = true ∧
    canPay (failed .retryDue) 0 (laneCharge (lc 1) false) = true ∧
    after (.ckRetry 0 0 calm) (failed .retryDue) (fun t => decide
      ((tabFind 0 (getCl t 0).runs).map (fun r => (r.card, r.attempt, r.host)) = some (lc 1, .second, 0))) = true := by decide +kernel

theorem hyp_RetryAndRelief_relief : lrShape (lc 1) ≠ 0 ∧ neighbour (failed .reliefDue) 0 0 = some 1 ∧
    hostIdle (failed .reliefDue) 0 1 = true ∧
    after (.ckRelief 0 0 calm) (failed .reliefDue) (fun t => decide
      ((tabFind 0 (getCl t 0).runs).map (fun r => (r.card, r.attempt, r.host)) = some (lc 1, .relief 1, 1))) = true := by decide +kernel

/-- The same with every other unit of the cluster fused off. -/
def alone : State := { failed .reliefDue with fuses := { (failed .reliefDue).fuses with fused := [1, 2, 3, 4, 5, 6, 7] } }

theorem hyp_RetryAndRelief_none : neighbour alone 0 0 = none ∧ physOf alone 0 0 = some 0 ∧
    (getUnit alone 0).state = .available ∧ (lc 1).chain = 0 ∧
    after (.ckRelief 0 0 calm) alone (fun t => decide ((getUnit t 0).state = .suspect ∧ (getUnit t 0).marked = true ∧
      tabFind 0 (getCl t 0).runs = none ∧ (getJob t 1).map (·.ending) = some (some (.faulted, .ckNoRelief)))) = true := by decide +kernel

/-- A chain whose row statistic has closed over two tiles of two rows. -/
def closing : State :=
  modCl 0 (fun x => { x with chains := [(3, ⟨1, 4, 3, [], false, none, false, card 9 65537 (2 * 2 ^ 32 + 2 * 2 ^ 48) 0, 1, [],
    some (4, 0), []⟩)] }) (jobAt 0 .step)

theorem hyp_FinishCards_finish : (finishing closing 0).map (fun f => (f.1, f.2.2)) = some (3, 4, 0) ∧ engineFree closing 0 11 = true ∧
    cardWindow closing 0 (card 9 65537 (2 * 2 ^ 32 + 2 * 2 ^ 48) 0) = true ∧
    canPay closing (clOwnerPart closing 0) (1500 * 12) = true ∧
    after (.finishCard 0) closing (fun t => decide ((tabFind 11 (getCl t 0).runs).map (fun r => (r.mode, r.finish, r.cycles))
      = some (3, some 2, 12))) = true := by decide +kernel

/-- An engine's run that has written a byte of the pool. -/
def ran (e : Nat) (always : Bool) : State :=
  modCl 0 (fun x => { x with runs := [(8 + e, { runOf (qc (card e (65537 + if always then 2 ^ 44 else 0) 0 0)) with
    writes := [(poolKey 0 4096, 9#8)], cycles := 20 })] }) (jobAt 0 .step)

theorem hyp_EngineCardRetires : ((tabFind 10 (getCl (ran 2 false) 0).runs).map (fun r => (r.finish, r.status, r.card.chain))
      = some (none, .ok, 0) ∧ ((useChain (getCl (ran 2 false) 0) 0 0).bind (·.abort)).isNone = true) ∧
    after (.cardRetire 0 (.eng 2) false) (ran 2 false) (fun t => decide (t.mem = [(poolKey 0 4096, 9#8)] ∧ (getCl t 0).runs = [] ∧
      (getQ (getCl t 0) 10).credits = queueDepth 10 + 1)) = true ∧
    after (.cardRetire 0 (.eng 2) false) (ran 2 true) (fun t => decide (memW64 t.mem (poolKey 0 8) = BitVec.ofNat 64 (20 + 10 * 2 ^ 32))) = true ∧
    (tabFind 10 (getCl (ran 2 false) 0).runs).map (·.card.engine) = some 2 ∧
    after (.cardRetire 0 (.eng 2) true) (ran 2 false) (fun t => decide (memByte t.mem (poolKey 0 4096) = 0#8 ∧
      memW64 t.mem (poolKey 0 0) % 65536#64 = 0x0413#64)) = true := by
  decide +kernel

/-- Unit 0 holds a permit. -/
def mvHeld : State := setUnit 0 { getUnit (mvAt (lc 0) 2 1) 0 with permit := true } (mvAt (lc 0) 2 1)

theorem hyp_MvPermits_held : laneReady (lc 0) mvHeld = true ∧ (getUnit mvHeld 0).permit = true ∧
    canPay mvHeld 0 (9216 * lrLength (lc 0) false) = true ∧
    after (.mv 0 0 calm) mvHeld (laneOn (lc 0) false mvHeld) = true ∧
    after (.mv 0 0 calm) mvHeld (fun t => decide ((getCl t 0).permitsUsed = 1)) = true := by decide +kernel

theorem hyp_MvPermits_deferred : laneReady (lc 0) (mvAt (lc 0) 2 2) = true ∧ lrNoPermit (lc 0) = false ∧
    after (.mv 0 0 calm) (mvAt (lc 0) 2 2) (fun t => decide ((getCl t 0).deferred = [0] ∧ (getCl t 0).runs = [] ∧
      ctrVal t .lwCirrusDefer 0 = 1)) = true := by decide +kernel

/-- Unit 0 is in relief; its card runs on unit 1. -/
def relieved : State := setUnit 0 { getUnit (headAt 0 0 (lc 1)) 0 with state := .suspect } (headAt 0 0 (lc 1))

theorem hyp_RetryAndRelief_standIn : inRelief (getUnit relieved 0) = true ∧ neighbour relieved 0 0 = some 1 ∧
    hostIdle relieved 0 1 = true ∧ (accCheck (lc 1) (getUnit relieved 0).acc).isNone = true ∧ engineIdle relieved 0 0 = true ∧
    canPay relieved 0 (laneCharge (lc 1) (reliefMain relieved 1 (lc 1))) = true ∧
    after (laneCommand 0 0 calm 1) relieved (fun t => decide
      ((tabFind 0 (getCl t 0).runs).map (fun r => (r.card, r.attempt, r.host)) = some (lc 1, .standIn 1, 1))) = true := by decide +kernel

/-- An engine's run in a chain whose retired prefix stands at 1. -/
def ranInChain : State :=
  modCl 0 (fun x => { x with
    chains := [(4, ⟨1, 3, 1, [], false, none, false, card 9 65537 0 0, 0, [], none, []⟩)]
    runs := [(10, { runOf ⟨card (2 + 4 * 2 ^ 24) 65537 0 0, ⟨1, 2⟩⟩ with cycles := 20 })] }) (jobAt 0 .step)

theorem hyp_EngineCardRetires_chain : (card (2 + 4 * 2 ^ 24) 65537 0 0).chain = 4 ∧ (card (2 + 4 * 2 ^ 24) 65537 0 0).last = false ∧
    after (.cardRetire 0 (.eng 2) false) ranInChain (fun t => decide ((tabFind 4 (getCl t 0).chains).map (·.done) = some 2)) = true := by
  decide +kernel

/-! ## The vector engine and the control core -/

/-- The answer is this value. -/
def okIs {α : Type} [DecidableEq α] (e : Except Status α) (a : α) : Bool := match e with
  | .ok b => decide (b = a)
  | .error _ => false

theorem  okIs_eq {α : Type} [DecidableEq α] {e : Except Status α} {a : α} (h : okIs e a = true) : e = .ok a := by
  cases e with
  | ok b => exact congrArg _ (of_decide_eq_true h)
  | error _ => cases h

theorem hyp_VectorCardIssues : readyRuns 0 9 (2500 * vxBudget (ec 1 0 0 (100 * 65536) 0)) (ec 1 0 0 (100 * 65536) 0) (.vectorCard 0) := by
  unfold readyRuns
  decide +kernel

/-- An awake cluster with format code `f` in x5 and 1.0, −3.5 in v2. -/
def vxAt (f : Nat) : State :=
  modCl 0 (fun c => { c with vx := { c.vx with x := [(5, BitVec.ofNat 32 f)], v := [(128, 0x3F800000#32), (129, 0xC0600000#32)] } })
    (jobAt 0 .step)

theorem hyp_VectorOwnInstructions_run : awake (getCl (vxAt 5) 0) = true ∧
    vxFormat (((getCl (vxAt 5) 0).vx.xr 5).toNat % 16) = true ∧
    after (.vxPack 0 3 2 5) (vxAt 5) (fun t => decide ((getCl t 0).vx.pc = 4 ∧ vget (getCl t 0).vx 3 2 0 = 0x3F80 ∧
      vget (getCl t 0).vx 3 2 1 = 0xC060)) = true ∧
    after (.vxUnpk 0 3 2 5) (vxAt 3) (fun t => decide (vget (getCl t 0).vx 3 4 2 = 0x37800000 * 0 + (widen 3 0x80).toNat)) = true ∧
    after (.vxSrn 0 3 2 5) (vxAt 5) (fun t => decide (vget (getCl t 0).vx 3 4 0 = 0x3F800000 ∧
      vget (getCl t 0).vx 3 4 1 = 0xC0600000)) = true := by decide +kernel

/-- The same with a vector card in execution and a reserved format code. -/
def vxBad : State := modCl 0 (fun c => { c with runs := [(9, runOf (qc (ec 1 0 0 100 0)))] }) (vxAt 4)

theorem hyp_VectorOwnInstructions_illegal : (tabFind 9 (getCl vxBad 0).runs).isSome = true ∧
    vxFormat (((getCl vxBad 0).vx.xr 5).toNat % 16) = false ∧ awake (getCl vxBad 0) = true ∧
    after (.vxSrn 0 3 2 5) vxBad (fun t => decide ((tabFind 9 (getCl t 0).runs).map (·.status) = some .vxFault ∧
      (getCl t 0).vx.xr 17 = 2#32)) = true := by decide +kernel

/-- An engine-9 card of job 1, in chain `ch`. -/
def cc (cls op ch w2 w3 : Nat) : Card := ec (9 + ch * 2 ^ 24) cls op w2 w3

/-- The engine-9 card waits to execute on job 1's cluster. -/
def coreAt (cls : Nat) (c : Card) : State := modCl 0 (fun x => { x with exec9 := some (qc c) }) (jobAt cls .step)

/-- CoreReady of the card of a state. -/
def coreReady (op : Nat) (c : Card) (s : State) : Bool :=
  decide (s.edge.power = .running ∧ ready9 s 0 op = some (qc c) ∧ abortedAs (useChain (getCl s 0) c.chain 0) c = none ∧ c.epoch = (getCl s 0).epoch)

theorem hyp_ChainsOpenAndAbort_open : coreReady 0 (cc 0 0 3 0 0) (coreAt 0 (cc 0 0 3 0 0)) = true ∧
    chainMode (cc 0 0 3 0 0) = some 0 ∧ (cc 0 0 3 0 0).chain = 3 ∧ (cc 0 0 3 0 0).last = false ∧
    after (.chainOpen 0) (coreAt 0 (cc 0 0 3 0 0)) (fun t => decide ((tabFind 3 (getCl t 0).chains).map
      (fun h => (h.openCard, h.mode, h.done, h.posted, h.abort)) = some (cc 0 0 3 0 0, 0, 0, 0, none))) = true ∧
    chainMode (cc 0 0 3 (40 * 65536 + 2 * 2 ^ 32 + 2 ^ 48) 0) = some 1 := by decide +kernel

/-- CHAIN_ABORT of chain 5, which is open with a card of it in a queue. -/
def abortAt : State :=
  modCl 0 (fun x => { x with
    chains := [(5, ⟨1, 1, 0, [], false, none, false, cc 0 0 5 0 0, 0, [], none, []⟩)]
    queues := [(10, ⟨8, 7, [⟨ec (2 + 5 * 2 ^ 24) 0 0 0 0, ⟨1, 1⟩⟩]⟩)] }) (coreAt 0 (cc 0 2 0 5 0))

theorem hyp_ChainsOpenAndAbort_abort : coreReady 2 (cc 0 2 0 5 0) abortAt = true ∧ (cc 0 2 0 5 0).chain = 0 ∧
    (tabFind 5 (getCl abortAt 0).chains).map (·.abort) = some none ∧
    after (.chainAbort 0) abortAt (fun t => decide ((getCl t 0).exec9 = none ∧ (getQ (getCl t 0) 10).cards = [])) = true := by
  decide +kernel

/-- Region 0 of rim die `rd`, 16 MB on 16 channels, owned by die 0 for job 1. -/
def region1 (cls : Nat) : Region := ⟨0xFFFF, 0, cls, 0, false, 0, 0#16, 0, 2 ^ 24, 1⟩

/-- Job 1 holds region 0 on die 0's home rim die, with the bytes `bs` from `off` on. -/
def withRegion (cls off : Nat) (bs : List Byte) (s : State) : State :=
  writePlace (homeRd 0) 0 off bs { s with mt := { s.mt with regions := [(256 * homeRd 0, region1 cls)] } }

/-- The bytes of a card. -/
def cardBytes (c : Card) : List Byte := w64Bytes [c.w0, c.w1, c.w2, c.w3, c.w4, c.w5, c.w6, c.w7]

/-- A RUN_LIST card of 2 cards at address 64 at the head of the core's queue. -/
def listCard : Card := cc 0 1 0 (2 * 2 ^ 48 + 64) 0

theorem hyp_ListsRun_runList : (getQ (getCl (withRegion 0 0 [] (headAt 0 17 listCard)) 0) 17).cards = [qc listCard] ∧
    (getCl (withRegion 0 0 [] (headAt 0 17 listCard)) 0).owner = some (0, 0, 1) ∧
    awake (getCl (withRegion 0 0 [] (headAt 0 17 listCard)) 0) = true ∧
    listWindow (withRegion 0 0 [] (headAt 0 17 listCard)) 0 = true ∧ jobIssues (withRegion 0 0 [] (headAt 0 17 listCard)) 1 = true ∧
    rlAddr listCard = 64 ∧
    runListStatus (withRegion 0 0 [] (headAt 0 17 listCard)) 0 0 0 1 listCard = .ok ∧
    after (.runList 0) (withRegion 0 0 [] (headAt 0 17 listCard)) (fun t => decide ((getCl t 0).list = some ⟨64, 2⟩ ∧
      (getQ (getCl t 0) 17).cards = [])) = true := by decide +kernel

/-- The list's next card is `c`. -/
def listAt (c : Card) : State :=
  modCl 0 (fun x => { x with list := some ⟨0, 1⟩ }) (withRegion 0 0 (cardBytes c) (jobAt 0 .step))

/-- A legal FILL card of one tile in free mode. -/
def fillCard : Card := ec 6 0 0 (65536 + 4096) 0

theorem hyp_ListsRun_post : okIs ((readNear (listAt fillCard) 0 1 0 0 0 64).map cardOf) (fillCard) = true ∧
    firstBad [firstChecks (listAt fillCard) 0 fillCard, chainChecks (listAt fillCard) 0 fillCard] = none ∧
    abortedAs (cardChain (listAt fillCard) 0 fillCard) fillCard = none ∧ bodyChecks (listAt fillCard) 0 fillCard = none ∧ postKey fillCard = some 14 ∧
    after (.cardPost 0) (listAt fillCard) (fun t => decide ((getQ (getCl t 0) 14).cards = [qc fillCard] ∧ (getCl t 0).list = none))
      = true := by decide +kernel

theorem hyp_ListsRun_engine9 : okIs ((readNear (listAt (cc 0 2 0 5 0)) 0 1 0 0 0 64).map cardOf) (cc 0 2 0 5 0) = true ∧
    firstBad [firstChecks (listAt (cc 0 2 0 5 0)) 0 (cc 0 2 0 5 0), chainChecks (listAt (cc 0 2 0 5 0)) 0 (cc 0 2 0 5 0)] = none ∧
    bodyChecks (listAt (cc 0 2 0 5 0)) 0 (cc 0 2 0 5 0) = none ∧ postKey (cc 0 2 0 5 0) = none ∧
    after (.cardPost 0) (listAt (cc 0 2 0 5 0)) (fun t => decide ((getCl t 0).exec9 = some (qc (cc 0 2 0 5 0)))) = true := by
  decide +kernel

theorem hyp_ListsRun_rejected : okIs ((readNear (listAt (ec 10 0 0 0 0)) 0 1 0 0 0 64).map cardOf) (ec 10 0 0 0 0) = true ∧
    (firstBad [firstChecks (listAt (ec 10 0 0 0 0)) 0 (ec 10 0 0 0 0), chainChecks (listAt (ec 10 0 0 0 0)) 0 (ec 10 0 0 0 0)]).isSome
      = true ∧
    after (.cardPost 0) (listAt (ec 10 0 0 0 0)) (fun t => decide ((getCl t 0).exec9 = none ∧ (getCl t 0).list = none ∧
      memW64 t.mem (poolKey 0 8) ≠ 99#64)) = true := by decide +kernel

theorem hyp_ListsRun_rejectedList : runListStatus (headAt 0 17 fillCard) 0 0 0 1 fillCard = .cardOpcodeInvalid ∧
    after (.runList 0) (headAt 0 17 fillCard) (fun t => decide ((getCl t 0).list = none ∧ (getQ (getCl t 0) 17).cards = [])) = true := by
  decide +kernel

/-- The card's queue has no credit. -/
def noCredit : State := modCl 0 (fun x => setQ 14 ⟨8, 0, []⟩ x) (listAt fillCard)

theorem hyp_ListsRun_waits : bodyChecks noCredit 0 fillCard = none ∧ (getQ (getCl noCredit 0) 14).credits = 0 ∧
    gives (.cardPost 0) noCredit noCredit = true := by decide +kernel

/-- A FILL card of chain 5, which has aborted. -/
def chainFill : Card := ec (6 + 5 * 2 ^ 24) 0 0 (65536 + 4096) 0
def listAborted : State :=
  modCl 0 (fun x => { x with chains := [(5, ⟨1, 1, 0, [], false, some .failed, false, cc 0 0 5 0 0, 0, [], none, []⟩)] }) (listAt chainFill)

theorem hyp_ListsRun_aborted : firstBad [firstChecks listAborted 0 chainFill, chainChecks listAborted 0 chainFill] = none ∧
    (abortedAs (cardChain listAborted 0 chainFill) chainFill).isSome = true ∧
    after (.cardPost 0) listAborted (fun t => decide ((getCl t 0).list = none ∧ (getQ (getCl t 0) 14).cards = [] ∧
      memW64 t.mem (poolKey 0 0) % 65536#64 ≠ 0#64)) = true := by decide +kernel

theorem hyp_ChainsOpenAndAbort_none : coreReady 2 (cc 0 2 0 5 0) (coreAt 0 (cc 0 2 0 5 0)) = true ∧
    (tabFind 5 (getCl (coreAt 0 (cc 0 2 0 5 0)) 0).chains).isNone = true ∧
    after (.chainAbort 0) (coreAt 0 (cc 0 2 0 5 0)) (fun t => decide ((getCl t 0).exec9 = none ∧ t.mem ≠ [])) = true := by decide +kernel

/-! ## Power states -/

theorem hyp_PowerLadder_haze : physOf (jobAt 0 .step) 0 0 = some 0 ∧ (getCl (jobAt 0 .step) 0).pm = .clear ∧
    after (.hazeEnter 0 0) (jobAt 0 .step) (fun t => decide ((getUnit t 0).haze = true)) = true ∧
    after .hazeExit { jobAt 0 .boundary with units := [(3, { getUnit State.reset 3 with haze := true })] }
      (fun t => decide ((getUnit t 3).haze = false)) = true := by decide +kernel

theorem hyp_PowerLadder_mist : clIdle (getCl (jobAt 0 .drain) 0) = true ∧ classClosed (jobAt 0 .drain) 0 = true ∧
    after (.mistEnter 0) (jobAt 0 .drain) (fun t => decide ((getCl t 0).pm = .mist)) = true ∧
    heldAtMist (jobAt 0 .boundary) = false ∧
    after .mistExit (modCl 0 (fun x => { x with pm := .mist }) (jobAt 0 .boundary)) (fun t => decide ((getCl t 0).pm = .clear)) = true := by
  decide +kernel

/-- A cluster that is to sleep until tick 12, woken 2 ticks ahead. -/
def sleepy (p : Phase) (pm : PmState) : State := modCl 0 (fun x => { x with pm := pm, sleep := some (2, .fog), wakeAt := 12 }) (jobAt 0 p)

theorem hyp_PowerLadder_sleep : (getCl (sleepy .drain .clear) 0).sleep = some (2, .fog) ∧ clIdle (getCl (sleepy .drain .clear) 0) = true ∧
    noOpenAcc (sleepy .drain .clear) 0 = true ∧ hasSource (sleepy .drain .clear) 0 = true ∧ afterWork (sleepy .drain .clear) = true ∧
    after (.pmSleepApply 0) (sleepy .drain .clear) (fun t => decide ((getCl t 0).pm = .fog)) = true ∧
    heldAtMist (sleepy .step .fog) = false ∧
    after (.pmWake 0) (sleepy .step .fog) (fun t => decide ((getCl t 0).pm = .clear ∧ (getCl t 0).sleep = none)) = true := by decide +kernel

/-- PM_SLEEP: Fog until tick 20, with a lead of 2. -/
def sleepCard : Card := cc 0 18 0 (3 + 8 * 2 + 2048 * 20) 0

theorem hyp_PowerLadder_card : coreReady 18 sleepCard (coreAt 0 sleepCard) = true ∧
    after (.pmSleep 0) (coreAt 0 sleepCard) (fun t => decide ((getCl t 0).wakeAt = 20 ∧ (getCl t 0).sleep = some (2, .fog))) = true := by
  decide +kernel

/-! ## Memory tiers -/

/-- No upset of an access. -/
def clean : MemUpset := ⟨none, false, [], [], [], none⟩

/-- A remote READ of 3 lines issued in tick `n`, on the tier port. -/
def remoteRun (n : Nat) : State :=
  modCl 0 (fun x => { x with tier := [{ runOf (qc (cc 0 3 0 0 (3 * 65536))) with host := 1, issueTick := n }] }) (jobAt 0 .step)

theorem hyp_MemoryArrivals_remote : (getCl (remoteRun 6) 0).tier[0]?.map (fun r => (r.host, r.status, mvLines r.card, r.landed.length))
      = some (1, .ok, 3, 0) ∧ 6 + 4 ≤ (remoteRun 6).tk.tick ∧
    after (.mtRemoteTimeout 0 0) (remoteRun 6) (fun t => decide ((getCl t 0).tier[0]?.map (·.status) = some .mtRemoteTimeout)) = true ∧
    after (.memData 0 0 1 (List.replicate 128 7#8) none) (remoteRun 6) (fun t => decide ((getCl t 0).tier[0]?.map
      (fun r => (r.landed.contains 1, r.landed.contains 2, r.landed.contains 0)) = some (true, true, false))) = true := by decide +kernel

/-- A prefetch entry: one line from offset 64 of region 0 to pool line 5. -/
def fetching : State :=
  modCl 0 (fun x => { x with prefetch := [⟨2 * 2 ^ 61 + 64, 5, 1, 11, 0⟩] }) (withRegion 0 64 [1#8, 2#8] (jobAt 0 .step))

theorem hyp_MemoryArrivals_prefetch : tierAddr fetching 0 (BitVec.ofNat 64 (2 * 2 ^ 61 + 64)) = some (.here (homeRd 0) 0 64) ∧
    okIs (access fetching 0 1 0 0 (homeRd 0) 0 64 64 .rd) ⟨homeRd 0, 0, 64⟩ = true ∧ listWindow fetching 0 = true ∧
    regionOf fetching (homeRd 0) 0 = some (region1 0) ∧ anyFailed fetching (regionChans (homeRd 0) (region1 0) 64 1) = false ∧
    badIndex fetching (regionLines (homeRd 0) (region1 0) 64 1) true clean = none ∧
    after (.prefetchLand 0 0 clean [] none) fetching (fun t => decide ((getCl t 0).prefetch = [] ∧
      memBytes t.mem (poolKey 0 320) 3 = [1#8, 2#8, 0#8])) = true := by decide +kernel

/-- A prefetch entry of one line of package 5, to pool line 5. -/
def fetchingRemote : State :=
  modCl 0 (fun x => { x with prefetch := [⟨4 * 2 ^ 61 + 5 * 2 ^ 51 + 64, 5, 1, 11, 0⟩] }) (jobAt 0 .step)

theorem hyp_MemoryArrivals_remotePrefetch :
    tierAddr fetchingRemote 0 (BitVec.ofNat 64 (4 * 2 ^ 61 + 5 * 2 ^ 51 + 64)) = some (.remote 5 0 0 64) ∧
    listWindow fetchingRemote 0 = true ∧ (getCl fetchingRemote 0).owner.isSome = true ∧
    after (.prefetchLand 0 0 clean (List.replicate 64 7#8) none) fetchingRemote (fun t =>
      decide ((getCl t 0).prefetch = [] ∧ memBytes t.mem (poolKey 0 320) 2 = [7#8, 7#8])) = true ∧
    after (.prefetchLand 0 0 clean [] (some .mtReadOnly)) fetchingRemote (fun t =>
      decide ((getCl t 0).prefetch = [] ∧ memBytes t.mem (poolKey 0 320) 2 = [0#8, 0#8])) = true := by decide +kernel

/-- A MOVE or ACCUM of one line from region 0 on. -/
def moveAt (op : Nat) : State := withRegion 0 64 [1#8, 2#8] (coreAt 0 (cc 0 op 0 (2 * 2 ^ 61 + 64) (65536 + 5)))

theorem hyp_TierOperations_move : tierFree (moveAt 3) 0 = true ∧ canPay (moveAt 3) 0 (1200 * tierLength (moveAt 3) 0) = true ∧
    tierAddr (moveAt 3) 0 (BitVec.ofNat 64 (2 * 2 ^ 61 + 64)) = some (.here (homeRd 0) 0 64) ∧
    coreReady 3 (cc 0 3 0 (2 * 2 ^ 61 + 64) (65536 + 5)) (moveAt 3) = true ∧ mvBit (cc 0 3 0 (2 * 2 ^ 61 + 64) (65536 + 5)) = false ∧
    after (.move 0 clean) (moveAt 3) (fun t => decide ((getCl t 0).exec9 = none ∧ (getCl t 0).tier.length = 1)) = true := by
  decide +kernel

theorem hyp_TierOperations_accum : tierFree (moveAt 4) 0 = true ∧ canPay (moveAt 4) 0 (1200 * tierLength (moveAt 4) 0) = true ∧
    coreReady 4 (cc 0 4 0 (2 * 2 ^ 61 + 64) (65536 + 5)) (moveAt 4) = true ∧
    stallOn 1 0 (touches (homeRd 0) 0 64 64) (moveAt 4) = none ∧
    after (.accum 0 clean) (moveAt 4) (fun t => decide ((getCl t 0).exec9 = none ∧ (getCl t 0).tier.length = 1)) = true := by
  decide +kernel

/-- Channel 3 is owned, has a line to rewrite and 4 freed bytes at 16, of which one still holds 9. -/
def chanAt : State :=
  { jobAt 0 .step with
    pt := { (jobAt 0 .step).pt with chans := BitVec.ofNat 1024 (128 * 2 ^ 24) }
    mt := { (jobAt 0 .step).mt with chans := [(3, { getChan State.reset 3 with rewrite := [4], zeroing := [(16, 4)] })] }
    mem := [(chanKey 3 15, 8#8), (chanKey 3 17, 9#8)] }

theorem hyp_TierOperations_channel : (chanOwner chanAt.pt.chans 3).isSome = true ∧ (getChan chanAt 3).state ≠ .failed ∧
    after (.refreshSlot 3 [] []) chanAt (fun t => decide ((getChan t 3).rewrite = [] ∧ (getChan t 3).scrub = 64)) = true ∧
    after (.regionZero 3) chanAt (fun t => decide ((getChan t 3).zeroing = [] ∧ t.mem = [(chanKey 3 15, 8#8)])) = true := by decide +kernel

/-- A MOVE of one line of package 5: a read, and a write. -/
def moveRemote (w : Nat) : Card := cc 0 3 0 (4 * 2 ^ 61 + 5 * 2 ^ 51 + 64) (w * 2 ^ 32 + 65536 + 5)

theorem hyp_TierOperations_remote : tierAddr (coreAt 0 (moveRemote 0)) 0 (mvMem (moveRemote 0)) = some (.remote 5 0 0 64) ∧
    coreReady 3 (moveRemote 0) (coreAt 0 (moveRemote 0)) = true ∧ mvBit (moveRemote 0) = false ∧ mvBit (moveRemote 1) = true ∧
    after (.move 0 clean) (coreAt 0 (moveRemote 0)) (fun t => decide ((getCl t 0).tier.map (fun r => (r.host, r.status)) = [(1, .ok)])) = true ∧
    after (.move 0 clean) (coreAt 0 (moveRemote 1)) (fun t => decide ((getCl t 0).tier.map (·.status) = [.mtReadOnly])) = true := by
  decide +kernel

theorem hyp_MemoryArrivals_refused : (getCl (remoteRun 6) 0).tier[0]?.isSome = true ∧
    after (.memData 0 0 0 [] (some .mtReadOnly)) (remoteRun 6) (fun t => decide ((getCl t 0).tier[0]?.map (·.status) = some .mtReadOnly))
      = true := by decide +kernel

/-- The line that the prefetch reads is bad. -/
def spoiltLine : MemUpset := { clean with badLine := some 0 }

theorem hyp_MemoryArrivals_bad : (badIndex fetching (regionLines (homeRd 0) (region1 0) 64 1) true spoiltLine).isSome = true ∧
    after (.prefetchLand 0 0 spoiltLine [] none) fetching (fun t => decide ((getCl t 0).prefetch = [] ∧ t.mem = fetching.mem ∧
      (getJob t 1).any (·.ending.isSome) = true)) = true := by decide +kernel

/-! ## Maintenance -/

/-- A maintenance slot with a granted request. -/
def slotAt (m : MaintReq) : State := { onAt .slot with maint := [m] }

/-- Unit 9 in a test of a kind that has come to step `n`. -/
def testing (kind n : Nat) (bad : List Nat) (fin : Bool) : State :=
  setUnit 9 { getUnit State.reset 9 with state := .inTest, test := some ⟨kind, n, bad, false, fin⟩, logical := 1 }
    (slotAt ⟨kind, 9, 16, true, 7520⟩)

theorem hyp_UnitTests_arith : (stepReady (testing 0 0 [] false) 0 9).isSome = true ∧ (stepReady (testing 0 2 [] false) 0 9).isSome = true ∧
    after (.arithTestPass 9 ⟨[65, 3, 66], true⟩) (testing 0 0 [5] false) (fun t => decide ((getUnit t 9).test.map
      (fun p => (p.done, p.finished, p.bad.contains 65, p.bad.contains 66, p.bad.contains 5, p.reverseBad))
        = some (1, false, true, false, true, false))) = true ∧
    after (.arithTestPass 9 ⟨[4], true⟩) (testing 0 2 [] false) (fun t => decide ((getUnit t 9).test.map
      (fun p => (p.done, p.finished, p.bad, p.reverseBad)) = some (3, true, [], true))) = true := by decide +kernel

theorem hyp_UnitTests_store : (stepReady (testing 1 3 [] false) 1 9).isSome = true ∧
    after (.storeTestStep 9 ⟨[], false⟩) { testing 1 3 [] false with mem := [(laneKey 9 0 16383, 1#8), (laneKey 9 0 49152, 2#8)] }
      (fun t => decide (t.mem = [(laneKey 9 0 16383, 1#8)] ∧ (getUnit t 9).source = .nothing ∧
        (getUnit t 9).test.map (·.finished) = some true)) = true := by decide +kernel

theorem hyp_UnitTests_outcome : verdict (getUnit (testing 0 3 [] true) 9) [] false = .clean ∧
    verdict (getUnit (testing 0 3 [7] true) 9) [7] false = .remap 7 ∧ verdict (getUnit (testing 0 3 [7, 8] true) 9) [7, 8] false = .retire ∧
    after (.testOutcomeApply 9) (testing 0 3 [] true) (fun t => decide ((getUnit t 9).state = .stale ∧ (getUnit t 9).test = none)) = true ∧
    after (.testOutcomeApply 9) (testing 1 4 [] true) (fun t => decide ((getUnit t 9).state = .available)) = true ∧
    after (.testOutcomeApply 9) (testing 0 3 [7] true) (fun t => decide ((getUnit t 9).spareInUse = true ∧ (getUnit t 9).spareFor = 7 ∧
      t.fuses.repair = [(9, 7)])) = true ∧
    after (.testOutcomeApply 9) (testing 0 3 [7, 8] true) (fun t => decide ((getUnit t 9).state = .retired ∧ t.fuses.repair = [(9, 64)]))
      = true := by decide +kernel

theorem test_repair_full : after (.testOutcomeApply 9) { testing 0 3 [7, 8] true with
      fuses := { State.reset.fuses with repair := List.replicate 2048 (1, 1) } }
    (fun t => decide (t.repairFull = true ∧ t.fuses.repair.length = 2048)) = true := by decide +kernel

theorem hyp_UnitTests_renumber : (getCl (setUnit 9 { getUnit State.reset 9 with state := .retired, logical := 15 } (onAt .boundary)) 1).owner = none ∧
    after (.unitRenumber 1) (setUnit 9 { getUnit State.reset 9 with state := .retired, logical := 15 } (onAt .boundary))
      (fun t => decide ((getUnit t 8).logical = 0 ∧ (getUnit t 9).logical = 15 ∧ (getUnit t 10).logical = 1)) = true := by decide +kernel

/-- A session's requests: the first is queued, and one for a target that does not exist is not. -/
theorem hyp_Maintenance_requests : windowUp (withSess (onAt .step)) (.session 1) = true ∧
    maintStatus (.session 1) 0 9 (if packageRights (withSess (onAt .step)) (.session 1) then 16 else 0) (withSess (onAt .step)) = .ok ∧
    after (.arithTestReq (.session 1) 9) (withSess (onAt .step)) (fun t => decide (t.maint = [⟨0, 9, 16, false, 0⟩])) = true ∧
    after (.storeTestReq (.session 1) 9) (withSess (onAt .step)) (fun t => decide (t.maint = [⟨1, 9, 16, false, 0⟩])) = true ∧
    after (.retrainReq (.session 1) 127) (withSess (onAt .step)) (fun t => decide (t.maint = [⟨2, 127, 16, false, 0⟩])) = true ∧
    after (.linkCalReq (.session 1) 255) (withSess (onAt .step)) (fun t => decide (t.maint = [⟨3, 255, 16, false, 0⟩])) = true ∧
    after (.linkCalReq (.session 1) 256) (withSess (onAt .step)) (fun t => decide (t.maint = [] ∧
      t.out = [.outcome (.session 1) .ckReqInvalid])) = true ∧
    after (.storeTestReq (.session 2) 9) (withSess (onAt .step)) (fun t => decide (t.out = [.outcome (.session 2) .ckReqDenied])) = true := by
  decide +kernel

theorem hyp_Maintenance_training : (stepReady (slotAt ⟨2, 5, 16, true, 18800⟩) 2 5).isSome = true ∧
    after (.retrain 5 true true) (slotAt ⟨2, 5, 16, true, 18800⟩) (fun t => decide ((getChan t 5).state = .active ∧ t.maint.length = 1 ∧
      (t.maint.all fun x => !x.granted) = true)) = true ∧
    after (.retrain 5 false true) (slotAt ⟨2, 5, 16, true, 18800⟩) (fun t => decide ((getChan t 5).state = .active ∧ t.maint = [])) = true ∧
    after (.retrain 5 false false) (slotAt ⟨2, 5, 16, true, 18800⟩) (fun t => decide ((getChan t 5).state = .failed ∧ t.maint = [])) = true := by
  decide +kernel

/-- A port of four lanes from lane 8 on, up. -/
def portAt : State :=
  { slotAt ⟨3, 9, 16, true, 9400⟩ with
    sq := { State.reset.sq with ports := [(8, { getPort State.reset 8 with width := 4, state := .up })] } }

theorem hyp_Maintenance_linkCal : (stepReady portAt 3 9).isSome = true ∧ lanePort portAt 9 = some 8 ∧
    after (.linkCal 9) portAt (fun t => decide ((getPort t 8).state = .cal ∧ t.maint = [])) = true := by decide +kernel

/-- Channel 3 is owned and its training period has come. -/
def trainAt : State := { chanAt with tk := { chanAt.tk with tick := 20 }, mt := { chanAt.mt with retrainPeriod := 20 } }

theorem hyp_Maintenance_period : trainAt.mt.retrainPeriod ≠ 0 ∧ trainAt.tk.tick % 20 = 0 ∧ trainAt.tk.cfg.maintUs ≠ 0 ∧
    shareUsed trainAt 16 + 128 ≤ 64 + ((List.range 128).filter fun ch => (chanOwner trainAt.pt.chans ch).isNone).length ∧
    after .retrainPeriodic trainAt (fun t => decide (t.maint = [⟨2, 3, 16, false, 0⟩])) = true := by decide +kernel

/-- Unit 1 of job 1 has a refill at `r` from a slot of region 0. -/
def refilling (r : Refill) : State :=
  setUnit 1 { getUnit State.reset 1 with state := .stale, source := .slot (homeRd 0) 0 0, refill := some r, logical := 1 }
    (withRegion 3 0 [] (jobAt 0 .step))

theorem hyp_RefillAndRechecksum_fill : (∃ bytes, readPlace (refilling (.running true false)) ⟨homeRd 0, 0, 0⟩ 4718592 = .ok bytes) ∧
    (getUnit (refilling (.running true false)) 1).refill = some (.running true false) ∧
    (getUnit (refilling (.running true false)) 1).source = .slot (homeRd 0) 0 0 ∧ windowOpen (refilling (.running true false)) 3 = true ∧
    refillTurn (refilling (.running true false)) 1 = true := by
  have hc : ∀ l, anyFailed (refilling (.running true false)) l = false := by
    intro l
    have h : ∀ c, (getChan (refilling (.running true false)) c).state = .active := by
      intro c
      rfl
    simp [anyFailed, h]
  have hp : (refilling (.running true false)).mt.poison = [] := by decide +kernel
  refine ⟨?_, by decide +kernel, by decide +kernel, by decide +kernel, by decide +kernel⟩
  refine ⟨regionBytes (refilling (.running true false)) (homeRd 0) (region1 3) 0 4718592, ?_⟩
  have hr : regionOf (refilling (.running true false)) (homeRd 0) 0 = some (region1 3) := by decide +kernel
  unfold readPlace
  simp [hr, hc, hp]

/-- A context of job 1 with no map entries, in phase `p`. -/
def ctxAt (p : CtPhase) (es : List MapEntry) : Ctx :=
  { job := 1, part := 0, activeBank := 0, inactiveInvalid := false, phase := p, epochActive := 1, epochPending := 1,
    lastStatus := .ok, switchTick := 0, lastEpoch := 1, exhausted := false, ticks := 0, pubFrom := [], sealFrom := [],
    startTick := 0, pubTick := 0, capTick := 0, activeCap := 0, bankBytes := 2, switchLead := 2, timeout := 8, stage := [],
    copy := [], entries := es }

/-- Job 1 has context 0. -/
def withCtx (c : Ctx) (s : State) : State :=
  { s with lrn := { s.lrn with ctxs := [(0, c)] }, jobs := [(1, { job1 with ctx := some 0 })] }

theorem hyp_RefillAndRechecksum_check : (sumBanks (withCtx (ctxAt .idle []) (refilling (.filled false))) 1).any
      (bankDiffers (withCtx (ctxAt .idle []) (refilling (.filled false))) 1) = false ∧
    after (.unitRechecksum 1 false) (withCtx (ctxAt .idle []) (refilling (.filled false)))
      (fun t => decide ((getUnit t 1).state = .available ∧ (getUnit t 1).epoch = 1 ∧ (getUnit t 1).refill = none)) = true ∧
    (getUnit (refilling (.filled false)) 1).source ≠ .nothing ∧
    after (.unitRechecksum 1 true) (withCtx (ctxAt .idle []) (refilling (.filled false)))
      (fun t => decide ((getUnit t 1).refill = some (.running true true))) = true ∧
    after (.unitRechecksum 1 true) (withCtx (ctxAt .idle []) (refilling (.filled true)))
      (fun t => decide ((getUnit t 1).refill = none ∧ (getUnit t 1).state = .suspect)) = true := by decide +kernel

theorem hyp_UnitTests_spare : (testing 1 4 [65] true).tk.phase = .slot ∧ (getUnit (testing 1 4 [65] true) 9).spareInUse = false ∧
    after (.testOutcomeApply 9) (testing 1 4 [65] true) (fun t => decide ((getUnit t 9).spareBad = true ∧
      (getUnit t 9).state = .available ∧ t.fuses.repair = [])) = true := by decide +kernel

/-- GEN unit 1 of job 1, whose bank copies lie in region 0 where `copied` says so; its contents come from `src`. -/
def banked (copied : Bool) (src : Source) (r : Refill) : State :=
  let s := withCtx { ctxAt .idle [] with copy := if copied then [(0, homeRd 0, 0)] else [] }
    (withRegion 3 80 [7#8] (jobAt 0 .step))
  setUnit 1 { getUnit State.reset 1 with state := .stale, source := src, refill := some r, logical := 1 }
    { s with lrn := { s.lrn with libs := [(0, ⟨9, 0, 2 ^ 20, 2, 0, 1, 1, 10, homeRd 0, 0, 0, 0#64⟩)] } }

theorem hyp_RefillAndRechecksum_banks :
    bankOf (banked true (.library 0 0 0) (.running true false)) 0 = some (2, 0) ∧
    (copyPlace (banked false (.library 0 0 0) (.running true false)) 0 1).isNone = true ∧
    copyPlace (banked true (.library 0 0 0) (.running true false)) 0 1 = some (homeRd 0, 0, 160) ∧
    after (.unitRefill 1) (banked false (.library 0 0 80) (.running true false)) (fun t => decide (memByte t.mem (laneKey 1 0 0) = 7#8 ∧
      (getUnit t 1).refill = some (.filled false) ∧ (getUnit t 1).source = .library 0 0 80)) = true ∧
    after (.unitRefill 1) (banked true (.library 0 0 80) (.running true false)) (fun t => decide (memByte t.mem (laneKey 1 0 0) = 7#8 ∧
      (getUnit t 1).source = .bankCopy (homeRd 0) 0 160)) = true ∧
    after (.unitRefill 1) (banked true (.bankCopy (homeRd 0) 0 80) (.running true false)) (fun t => decide
      (memByte t.mem (laneKey 1 0 0) = 7#8 ∧ (getUnit t 1).refill = some (.filled false))) = true := by decide +kernel

theorem hyp_RefillAndRechecksum_none :
    after (.unitRefill 1) (banked true .nothing (.running true false)) (fun t => decide ((getUnit t 1).refill = none ∧
      (getJob t 1).map (·.ending) = some (some (.faulted, .ckRefillNoSource)))) = true ∧
    after (.unitRechecksum 1 true) (banked true .nothing (.filled false)) (fun t => decide ((getUnit t 1).refill = none ∧
      (getJob t 1).map (·.ending) = some (some (.faulted, .ckRefillNoSource)))) = true := by decide +kernel

/-- A unit of a cluster without banks, whose contents come from the library. -/
def unbanked : State :=
  let s := withRegion 3 0 [] (jobAt 2 .step)
  setUnit 1 { getUnit State.reset 1 with state := .stale, source := .library 0 0 0, refill := some (.running true false), logical := 1 }
    { s with lrn := { s.lrn with libs := [(0, ⟨9, 0, 2 ^ 20, 2, 0, 1, 1, 10, homeRd 0, 0, 0, 0#64⟩)] } }

theorem hyp_RefillAndRechecksum_library : (bankOf unbanked 0).isNone = true ∧ tabFind 0 unbanked.lrn.libs ≠ none ∧
    ∃ bytes, readPlace unbanked ⟨homeRd 0, 0, 0⟩ 5242880 = .ok bytes := by
  have hc : ∀ l, anyFailed unbanked l = false := by
    intro l
    have h : ∀ c, (getChan unbanked c).state = .active := by
      intro c
      rfl
    simp [anyFailed, h]
  have hp : unbanked.mt.poison = [] := by decide +kernel
  have hr : regionOf unbanked (homeRd 0) 0 = some (region1 3) := by decide +kernel
  refine ⟨by decide +kernel, by decide +kernel, regionBytes unbanked (homeRd 0) (region1 3) 0 5242880, ?_⟩
  unfold readPlace
  simp [hr, hc, hp]

/-! ## The register window -/

theorem hyp_RegisterAccess_stores : packageRights (withSess (onAt .step)) (.session 1) = true ∧
    after (.regWrite (.session 1) 4 8 9#64) (withSess (onAt .step)) (fun t => decide (t.wn.discard = (4, 3, 10))) = true ∧
    after (.regWrite (.session 1) 0 4 9#64) (withSess (onAt .step)) (fun t => decide (t.wn.discard = (0, 3, 10))) = true ∧
    after (.regWrite (.session 1) (regOff .tkConfigNext 0 0) 8 (BitVec.ofNat 64 (3000 + 2000 * 65536 + 200 * 2 ^ 32)))
      (withSess (onAt .step)) (fun t => decide (t.tk.next = ⟨3000, 2000, 200⟩ ∧ t.tk.cfg = ⟨2000, 1500, 100⟩)) = true ∧
    after (.wnPkgWrite (.session 1) 1023#64) (withSess (onAt .step)) (fun t => decide (t.wn.pkgNext = some 1023 ∧ t.wn.pkg = 0)) = true ∧
    after (.smLatWindowWrite (.session 1) 65535#64) (withSess (onAt .step)) (fun t => decide (t.gen.latWindow = 65535)) = true ∧
    after (.smTenantWrite (.session 1) 4095 7#128) (withSess (onAt .step)) (fun t => decide (t.gen.tenantDue = [(4095, 7#128)])) = true := by
  decide +kernel

theorem hyp_RegisterAccess_arming : cfgLegal (withSess (onAt .step)).tk.next = true ∧
    after (.tkApplyAtArm (.session 1) 12#64) (withSess (onAt .step)) (fun t => decide (t.tk.pending = some (⟨2000, 1500, 100⟩, 12) ∧
      t.tk.applyAt = 12 ∧ t.out = [.outcome (.session 1) .ok])) = true ∧
    after (.tkApplyAtArm (.session 1) 11#64) (withSess (onAt .step)) (fun t => decide (t.tk.pending = none ∧ t.tk.applyRejected = true ∧
      t.tk.applyStatus = .tkApplyTooSoon)) = true ∧
    after (.tkApplyAtDisarm (.session 1)) (withSess (armed 12)) (fun t => decide (t.tk.pending = none ∧ t.tk.applyAt = 0)) = true := by
  decide +kernel

theorem hyp_RegisterAccess_loads : windowUp (onAt .step) (.cores 15) = true ∧
    after (.regRead (.cores 15) (regOff .tkTick 0 0) 8) (onAt .step) (fun t => decide (t.out = [.load 15 10#64])) = true ∧
    after (.regRead (.cores 15) 8 4) (onAt .step) (fun t => decide (t.out = [.load 15 0#64] ∧ (getPart t 15).discard = (8, 3, 10))) = true := by
  decide +kernel

/-- Stream 3 of partition 1 with 16 action bytes. -/
def stream3 (st : HzState) : State :=
  withSess { jobAt 6 .step with
    streams := [(3, { getStream State.reset 3 with part := 1, state := st, actionBytes := 16, safe := List.replicate 16 0#8 })] }

theorem hyp_ViewAndStreamWrites : tabFind 2 (stream3 .closed).sc.sessions = some { sessP with package := false, mask := 2#16, view := 1 } ∧
    seesStream (stream3 .closed) (.session 2) (getStream (stream3 .closed) 3) = true ∧
    after (.ptViewWrite (.session 1) 15#64) (stream3 .closed) (fun t => decide ((tabFind 1 t.sc.sessions).map (·.view) = some 15)) = true ∧
    after (.hzActstoreWrite (.session 2) 3 false 1 258#64) (stream3 .closed) (fun t => decide ((getStream t 3).safe.take 16
      = List.replicate 8 0#8 ++ [2#8, 1#8] ++ List.replicate 6 0#8)) = true ∧
    after (.hzStreamWrite (.session 2) 3 false 1 (BitVec.ofNat 64 (5 + 6 * 65536 + 7 * 2 ^ 32))) (stream3 .closed)
      (fun t => decide ((getStream t 3).decayN = 5 ∧ (getStream t 3).holdLimit = 6 ∧ (getStream t 3).windK = 7)) = true ∧
    after (.hzStreamWrite (.session 2) 3 false 1 5#64) (stream3 .live) (fun t => decide (t.streams = (stream3 .live).streams ∧
      t.out = [.outcome (.session 2) .hzStreamBusy])) = true := by decide +kernel

theorem hyp_ViewAndStreamWrites_words :
    after (.ptViewWrite (.session 2) 3#64) (stream3 .closed) (fun t => decide (t.sc = (stream3 .closed).sc ∧
      t.out = [.outcome (.session 2) .ptDenied])) = true ∧
    after (.hzStreamWrite (.session 2) 3 false 0 (BitVec.ofNat 64 (5 + 2 * 16 + 2 ^ 10 + 2 ^ 12 + 16 * 2 ^ 16 + 64 * 2 ^ 32)))
      (stream3 .closed) (fun t => decide ((getStream t 3).part = 1 ∧ (getStream t 3).port = 2 ∧ (getStream t 3).holdMode = 1 ∧
        (getStream t 3).actionKind = 1 ∧ (getStream t 3).actionBytes = 16 ∧ (getStream t 3).obsBytes = 64)) = true ∧
    after (.hzStreamWrite (.session 2) 3 true 3 9#64) (stream3 .closed) (fun t => decide
      ((getStream t 3).peer = BitVec.ofNat 256 (9 * 2 ^ 192))) = true := by decide +kernel

/-! ## Generation -/

/-- A generator side with one slot, an ADMIT_TIMEOUT of 3 ticks and a PAGE_WAIT_LIMIT of 2. -/
def gen0 : GenSt :=
  { slots := [0], pages := 4, pageBase := 0, maxLen := 4096, vocab := 32000, eos := 2, prefillChunk := 64, splitLen := 4096, kvFmt := 5,
    posLines := 8, admitTimeout := 3, pageWaitLimit := 2, ringRd := 0, ringRegion := 0, ringRecords := 64, write := 9, read := 4,
    wait := [], acks := [], ends := [] }

/-- A live request of job 1 with identifier 7. -/
def req0 (st : ReqState) : Req :=
  { id := 7, card := card 0 0 0 0, part := 0, job := 1, state := st, arrivalNs := 0, latchTick := 7, slot := some 0, pages := [], reused := 0,
    pos := 0, step := some (0, 1), lateStep := false, stepEpoch := 0, lastToken := 0, stepDone := false, ready := none, tokens := 0,
    lastTick := 0, lastNs := 0, ttftUs := 0, tbtMaxUs := 0, tbtMiss := 0, tbtMissOvf := false, ended := none, endWritten := false,
    pageWait := 3, waiting := true, toIndex := false, ring := none }

/-- Job 1 generates and has the request in a state. -/
def genAt (st : ReqState) (p : Phase) : State :=
  { jobAt 0 p with
    jobs := [(1, { job1 with gen := some gen0 })]
    gen := { State.reset.gen with reqs := [req0 st] } }

/-- A CANCEL of request 7. -/
def cancelRec : Card := ⟨1#64, 0#64, 0#64, 0#64, 0#64, 0#64, 0#64, 7#64⟩

theorem hyp_RequestLife_arrive : rqKind (card 0 5 0 0) ≠ 1 ∧ (getPart (genAt .queued .step) 0).intakeCredits = 1024 ∧
    after (.reqArrive 0 (card 0 5 0 0) 42) (genAt .queued .step)
      (fun t => decide ((getPart t 0).intake = [(card 0 5 0 0, 20000042, false)])) = true ∧
    rqKind cancelRec = 1 ∧ rqCancelReserved cancelRec = false ∧ rqId cancelRec = 7 ∧
    findReq (genAt .queued .step) 0 7 = some (req0 .queued) ∧ (genAdmitted (genAt .queued .step) 0 1).isSome = true ∧
    after (.cancel 0 cancelRec false) (genAt .queued .step) (fun t => decide ((findReq t 0 7).map (fun r => (r.ended, r.state))
      = some (some (.cancelled, 0, .cancelled), .ending))) = true := by decide +kernel

/-- Partition 0's intake FIFO and partition 3's annotation FIFO are full. -/
def fifosFull : State :=
  modPart 3 (fun x => { x with annotCredits := 0 }) (modPart 0 (fun x => { x with intakeCredits := 0 }) (genAt .queued .step))

theorem hyp_RequestLife_full : (getPart fifosFull 0).intakeCredits = 0 ∧ (getPart fifosFull 3).annotCredits = 0 ∧
    gives (.reqArrive 0 (card 0 5 0 0) 42) fifosFull { fifosFull with out := [.postRefused .noCredit 1 0] } = true ∧
    gives (.expAnnotate 3 1#64 2#64 3#64 4#64) fifosFull { fifosFull with out := [.postRefused .noCredit 2 3] } = true := by
  decide +kernel

theorem hyp_RequestLife_limits : genOf (genAt .queued .step) 1 = some gen0 ∧ (req0 .queued).latchTick + gen0.admitTimeout = 10 ∧
    after (.reqAdmitTimeout 0 7) (genAt .queued .step) (fun t => decide ((findReq t 0 7).map (·.ended)
      = some (some (.refused, 0, .reqAdmitTimeout)))) = true ∧
    (genAt .decode .step).gen.reqs.find? (fun x => decide (x.slot = some 0)) = some (req0 .decode) ∧
    after (.kvPageWaitLimit 0) (genAt .decode .step) (fun t => decide ((findReq t 0 7).map (fun r => (r.ended, r.waiting))
      = some (some (.failed, 0, .kvNoPage), false))) = true := by decide +kernel

theorem hyp_RingWindowAndStep_index : getJob (genAt .decode .step) 1 = some { job1 with gen := some gen0 } ∧
    after (.ringReadIndex 1 9#64) (genAt .decode .step) (fun t => decide ((genOf t 1).map (·.read) = some 9)) = true ∧
    gives (.ringReadIndex 1 3#64) (genAt .decode .step) (genAt .decode .step) = true ∧
    gives (.ringReadIndex 1 10#64) (genAt .decode .step) (genAt .decode .step) = true := by decide +kernel

/-- The latency window of 11 ticks ends, with values of tenant 5. -/
def latAt : State :=
  { onAt .boundary with
    gen := { State.reset.gen with latWindow := 11, tenants := [(5, ⟨0, true, 1, 1, 0, 0, (1, 2, 3, 4), (0, 0, 0, 0)⟩)] } }

theorem hyp_RingWindowAndStep_window : latAt.gen.latDone = false ∧ (latAt.tk.tick + 1) % 11 = 0 ∧
    after .smLatWindowEnd latAt (fun t => decide ((tabFind 5 t.gen.tenants).map (fun y => (y.lat, y.win))
      = some ((1, 2, 3, 4), (0, 0, 0, 0)))) = true := by decide +kernel

/-- STEP_DONE of slot 0 with the token in pool line `l`. -/
def doneCard (l : Nat) : Card := cc 0 5 0 (65536 * l) 0

/-- A decoding step is done; its line holds token 77, greedy. -/
def doneAt (l : Nat) : State :=
  { modCl 0 (fun x => { x with exec9 := some (qc (doneCard l)) }) (genAt .decode .step) with
    mem := bytesAt (poolKey 0 (64 * l)) [77#8] ++ [(poolKey 0 (64 * l + 2), 8#8)] }

theorem hyp_RingWindowAndStep_done : coreReady 5 (doneCard 4096) (doneAt 4096) = true ∧
    (stepping (doneAt 4096) 1 0).map (·.id) = some 7 ∧
    flag (doneCard 4096).w2 32 = false ∧ after (.stepDone 0 true) (doneAt 4096) (fun t => decide ((getCl t 0).exec9 = none ∧
      (findReq t 0 7).map (·.stepDone) = some false)) = true ∧
    after (.stepDone 0 false) (doneAt 4096) (fun t => decide ((findReq t 0 7).map (fun r => (r.stepDone, r.ready))
      = some (true, some ⟨77, false, true, 0#32, 0#32⟩))) = true := by decide +kernel

/-! ## Contrail -/

/-- A map entry: KLEN 2 weights of cluster 0, unit 0, to cluster 32, unit 0, of package `dst`; source package `src`. -/
def entryAt (src dst : Nat) (cap : Bool) : MapEntry :=
  ⟨BitVec.ofNat 64 (2 * 65536), BitVec.ofNat 64 (2 * 2 ^ 32), BitVec.ofNat 64 src, BitVec.ofNat 64 (dst + 1024), cap, false, false, 0, 0#32⟩

/-- A PUBLISH of context 0 is to execute. -/
def publishAt : State := withCtx (ctxAt .idle [entryAt 0 0 false]) (coreAt 4 (cc 4 6 0 0 0))

theorem hyp_Publishing_publish : coreReady 6 (cc 4 6 0 0 0) publishAt = true ∧ getCtx publishAt 0 = some (ctxAt .idle [entryAt 0 0 false]) ∧
    (getCl publishAt 0).published = false ∧
    after (.publish 0) publishAt (fun t => decide ((getCl t 0).published = true ∧ (getCtx t 0).map (fun c => (c.phase, c.pubTick))
      = some (.collect, 10))) = true := by decide +kernel

theorem hyp_Publishing_busy : (getCtx (withCtx (ctxAt .send []) publishAt) 0).map (·.phase) = some .send ∧
    after (.publish 0) (withCtx (ctxAt .send []) publishAt) (fun t => decide ((getCl t 0).exec9 = none ∧
      (getCtx t 0).map (·.phase) = some .send ∧ t.mem ≠ [])) = true := by decide +kernel

/-- Every source has published, in tick 9. -/
def startAt (age : Nat) : State :=
  modCl 0 (fun x => { x with published := true })
    { withCtx { ctxAt .collect [entryAt 0 0 false] with pubTick := 9, lastEpoch := age } (jobAt 4 .step) with
      lrn := { ctxs := [(0, { ctxAt .collect [entryAt 0 0 false] with pubTick := 9, lastEpoch := age })], libs := [], libOvf := [],
               stratus := [], stratusPeak := [], ags := [],
               rings := [(0, ⟨1, 0, 4, .ok, 1, 0, [(0, 7, 1, 5, false, false)], 0, 0, 0, none, false⟩)] } }

theorem hyp_Publishing_start : allPublished (startAt 1) { ctxAt .collect [entryAt 0 0 false] with pubTick := 9 } = true ∧
    jobIssues (startAt 1) 1 = true ∧ leadPkg (startAt 1) 1 = 0 ∧ mustHold (startAt 1) 1 2 = false ∧ mustHold (startAt 65536) 1 65537 = true ∧
    after (.ctPublishStart 0) (startAt 1) (fun t => decide ((getCtx t 0).map (fun c => (c.phase, c.epochPending, c.inactiveInvalid))
      = some (.capture, 2, true))) = true ∧
    after (.ctPublishStart 0) (startAt 65536) (fun t => decide ((getCtx t 0).map (fun c => (c.phase, c.epochPending))
      = some (.held, 65537))) = true := by decide +kernel

/-- The context with a STAGE region: region 0. -/
def staged (c : Ctx) : Ctx := { c with stage := [(0, homeRd 0, 0)] }

/-- Entries of a context in capture; the weight at the source's lane 0 has the low byte `b`. -/
def captureAt (es : List MapEntry) (b : Byte) : State :=
  { withCtx (staged (ctxAt .capture es)) (withRegion 4 0 [] (jobAt 4 .step)) with
    mem := memPuts [] [(laneKey 0 0 0, b), (laneKey 0 0 1, 0x7F#8)] }

/-- One entry of this package. -/
def one : List MapEntry := [entryAt 0 0 false]

theorem hyp_Publishing_capture : copyOpen (captureAt one 0#8) 1 = false ∧
    (stageRegion (captureAt one 0#8) (staged (ctxAt .capture one)) 0).isSome = true ∧
    stageOffset (captureAt one 0#8) (staged (ctxAt .capture one)) 0 (entryAt 0 0 false) + (entryAt 0 0 false).bytes ≤ 2 ^ 24 ∧
    ((sourceLanes (captureAt one 0#8) (entryAt 0 0 false)).all fun l => l.all fFin) = true ∧
    ((sourceLanes (captureAt one 0x80#8) (entryAt 0 0 false)).any fun l => l.any fun w => !fFin w) = true ∧
    after (.ctCapture 0 0) (captureAt one 0x80#8) (fun t => decide ((getCtx t 0).map (fun c => (c.phase, c.lastStatus))
      = some (.idle, .ctNonfinite))) = true := by decide +kernel

theorem test_capture : after (.ctCapture 0 0) (captureAt one 0#8) (fun t => decide
    ((((getCtx t 0).bind fun c => c.entries[0]?).map (·.captured)) = some true)) = true := by decide +kernel

theorem hyp_Publishing_waits : after (.ctCapture 0 0) (captureAt (one ++ one) 0#8) (fun t => decide
    ((getCtx t 0).map (·.phase) = some .capture ∧ t.out = [])) = true := by decide +kernel

/-- The same entry captured, from the package and to this one, in a phase. -/
def sentAt (p : CtPhase) (src : Nat) (again : Bool) : State :=
  withCtx { staged (ctxAt p [{ entryAt src 0 (src == 0) with resent := again }]) with ticks := 8 } (withRegion 4 0 [] (jobAt 4 .step))

theorem hyp_Publishing_receive :
    (stagedBytes (staged (ctxAt .send [entryAt 0 0 true])) (entryAt 0 0 true) (sentAt .send 0 false)).1.isSome = true ∧
    after (.ctEntryReceive 0 0 true) (sentAt .send 0 false) (fun t => decide ((((getCtx t 0).bind fun c => c.entries[0]?).map (·.sealedOk)) = some true))
      = true ∧
    after (.ctEntryReceive 0 0 false) (sentAt .send 0 false) (fun t => decide ((((getCtx t 0).bind fun c => c.entries[0]?).map
      (fun e => (e.resent, e.sealedOk))) = some (true, false))) = true ∧
    after (.ctEntryReceive 0 0 false) (sentAt .send 0 true) (fun t => decide ((getCtx t 0).map (fun c => (c.phase, c.lastStatus))
      = some (.idle, .ctSealFailed))) = true ∧
    allSealed (sentAt .send 0 false) { staged (ctxAt .send [entryAt 0 0 true]) with ticks := 8 } = false ∧
    after (.ctPublishTimeout 0) (sentAt .send 0 false) (fun t => decide ((getCtx t 0).map (fun c => (c.phase, c.lastStatus))
      = some (.idle, .ctPublishTimeout))) = true := by decide +kernel

/-- The bytes of a range of 2 weights in 64 lanes with their sums. -/
def rangeBytes : List Byte := List.replicate (entryAt 3 0 false).bytes 0#8

set_option maxRecDepth 50000 in
theorem hyp_Publishing_message : (getJob (sentAt .send 3 false) 1).bind (·.ctx) = some 0 ∧ (entryAt 3 0 false).srcPkg = 3 ∧
    rangeBytes.length = (entryAt 3 0 false).bytes ∧
    after (.contrailMsg 1 0 rangeBytes (crc32c rangeBytes)) (sentAt .send 3 false) (fun t => decide
      ((((getCtx t 0).bind fun c => c.entries[0]?).map (·.sealedOk)) = some true)) = true ∧
    after (.contrailMsg 1 0 [] 1#32) (sentAt .send 3 false) (fun t => decide
      ((((getCtx t 0).bind fun c => c.entries[0]?).map (fun e => (e.resent, e.sealedOk))) = some (true, false))) = true ∧
    after (.contrailMsg 1 0 [] 1#32) (sentAt .send 3 true) (fun t => decide ((getCtx t 0).map (·.lastStatus)
      = some .ctSealFailed)) = true := by decide +kernel

/-- Every entry has come with its CRC. -/
def sealedAt (p : Phase) : State := withCtx (ctxAt .send [{ entryAt 0 0 true with sealedOk := true }]) (jobAt 4 p)

theorem hyp_SwitchAndLoad_arm : allSealed (sealedAt .drain) (ctxAt .send [{ entryAt 0 0 true with sealedOk := true }]) = true ∧
    compUp (sealedAt .drain) 7 = true ∧ leadPkg (sealedAt .drain) 1 = 0 ∧
    after (.ctSwitchArm 0) (sealedAt .drain) (fun t => decide ((getCtx t 0).map (fun c => (c.phase, c.switchTick)) = some (.armed, 13)))
      = true ∧
    after (.ctSwitchBroadcast 0 12) (sealedAt .boundary) (fun t => decide ((getCtx t 0).map (fun c => (c.phase, c.switchTick))
      = some (.armed, 12))) = true ∧
    after (.ctSwitchBroadcast 0 11) (sealedAt .slot) (fun t => decide ((getCtx t 0).map (·.switchTick) = some 11)) = true ∧
    after (.ctSwitchBroadcast 0 11) (sealedAt .boundary) (fun t => decide ((getJob t 1).map (·.ending)
      = some (some (.faulted, .ctSwitchLate)))) = true ∧
    after (.ctSwitchBroadcast 0 10) (sealedAt .step) (fun t => decide ((getJob t 1).map (·.ending)
      = some (some (.faulted, .ctSwitchLate)))) = true := by decide +kernel

/-- The SHA-384 of the bytes 3 and 4 (FIPS 180-4). -/
def shardDigest : List Byte :=
  w64Bytes [0xc8281d689615ce2c#64, 0xedb576dc3454b670#64, 0xf965003962e32310#64,
    0x5b2a7082368a8011#64, 0xe8f241d612e8e44f#64, 0xb94b9b88bb3c9da8#64]

/-- A staged image: its words as R251 lays them out; one layer, one shard of 2 bytes for rank 0. -/
def imageBytes : List Byte :=
  w64Bytes [BitVec.ofNat 64 (0x4B504C43 + 2 ^ 32), BitVec.ofNat 64 (1 + 65536), 5#64, 9#64, 0#64, BitVec.ofNat 64 192, 0#64, 0#64,
      0#64, 0#64, 0#64, 0#64, BitVec.ofNat 64 4096, 2#64] ++ shardDigest ++ List.replicate (320 - 160) 0#8 ++ [3#8, 4#8]

/-- The image in a staging region of partition 0 on rim die 0, and a boot image with one publisher key. -/
def loading : State :=
  writePlace 0 0 0 imageBytes { modPart 0 (fun p => { p with load := some ⟨0, 0, 0⟩ }) (onAt .step) with
    pt := { State.reset.pt with chans := BitVec.ofNat 1024 (0xB0 * (2 ^ 128 - 1) / 255), table := [(0, entry0 ||| BitVec.ofNat 1024 (2 ^ 320 + 2 ^ 530 + 2 ^ 615))] }
    wn := { State.reset.wn with bootImage := some ⟨0, 0, [], 0, 0, 0, 0#32, true, 0, true, true, 0, [], 0#1024, 0#64, 0#64, [], [], 0#64, 0, 0, 0#48, 0#32, 0#128, [1], [], [], 0, [], []⟩ }
    mt := { State.reset.mt with regions := [(0, ⟨0xFFFF, 0, 3, 56, false, 0, 0#16, 0, 65536, 0⟩)] } }

theorem hyp_SwitchAndLoad_request : windowUp loading (.cores 0) = true ∧ (getPart (onAt .step) 0).load = none ∧
    stagingOk loading 0 0 0 = none ∧ stagingOk loading 0 0 1 = some .mtAddrInvalid ∧
    after (.ctLoadReq (.cores 0) 0#64) (modPart 0 (fun p => { p with load := none }) loading)
      (fun t => decide ((getPart t 0).load = some ⟨loadRd 0#64, loadRegion 0#64, loadRank 0#64⟩)) = true := by decide +kernel

/-- The part of the image up to its shards. -/
def imageHead : List Byte := imageBytes.take 320

theorem hyp_SwitchAndLoad_load : ImageRead (loadBase loading) ⟨0, 0, 0⟩ ⟨0xFFFF, 0, 3, 56, false, 0, 0#16, 0, 65536, 0⟩ imageHead 192 := by
  refine ⟨by decide +kernel, by decide +kernel, by decide +kernel, okIs_eq (by decide +kernel), okIs_eq (by decide +kernel)⟩

theorem hyp_SwitchAndLoad_fits : imageOk (imageHead.take 192) = true ∧ publisherKeys (loadBase loading) = 1 ∧
    fld (imgWord imageHead 16) 55 48 = 0 ∧ (shardsOf imageHead 0).map (·.1) = [2] ∧ shardsOf imageHead 1 = [] ∧
    okIs (readPlace (loadBase loading) ⟨0, 0, 0⟩ 322) imageBytes = true ∧
    ((cutShards (shardsOf imageHead 0) (imageBytes.drop 320)).all fun y => decide (sha384 y.2 = y.1.2.2)) = true ∧
    (libsOf (loadBase loading) 0).length = 0 ∧ (fitLib 64 0 0 322 (loadBase loading)).isSome = true := by decide +kernel

theorem hyp_SwitchAndLoad_ends :
    after (.ctLoadComplete 0 false) loading (fun t => decide ((getPart t 0).load = none ∧ (getPart t 0).loadStatus = .ctSignatureInvalid))
      = true ∧
    after (.ctLoadComplete 0 true) (modPart 0 (fun p => { p with load := some ⟨0, 0, 1⟩ }) loading) (fun t => decide
      ((getPart t 0).loadStatus = .ctShardMissing)) = true ∧
    after (.ctLoadComplete 0 true) { loading with wn := { loading.wn with bootImage := none } } (fun t => decide
      ((getPart t 0).loadStatus = .ctKeyUnknown)) = true ∧
    after (.ctLoadComplete 0 true) { loading with mem := memPut loading.mem (chanKey 0 0) 0#8 } (fun t => decide
      ((getPart t 0).loadStatus = .ctImageInvalid)) = true := by decide +kernel

theorem test_load : after (.ctLoadComplete 0 true) loading (fun t => decide ((getPart t 0).loadStatus = .ok ∧
    t.lrn.libs.map (fun x => (x.2.bytes, x.2.rank)) = [(2, 0)])) = true := by decide +kernel

/-! ## Learning and update -/

/-- A learning side with two micro-batches in flight and a stack region on die 0. -/
def learn0 : LearnSt :=
  { stages := 1, replicas := 1, stage := [(0, 1, 0, 1)], microBatches := 2, mbInflight := 2, stratus := [(0, 0, 65536, 16)], ties := [], grad := [],
    needTeach := true, topk := 1, teachTimeout := 3, needReward := true, rewardTimeout := 4, rings := [0], consumers := [(0, 0)], expEnds := [] }

/-- Job 1 learns, with the card `c` to execute on cluster 0. -/
def learnAt (cls : Nat) (c : Card) : State :=
  modCl 0 (fun x => { x with exec9 := some (qc c) })
    { withRegion cls 0 [] (jobAt cls .step) with jobs := [(1, { job1 with learn := some learn0 })] }

/-- A Stratus card of 2 lines from pool line 4096 on, micro-batch slot 1, NEW, LAST or RELEASE set, layer 3, tag 4. -/
def stCard (op : Nat) : Card := cc 1 op 0 (4096 + 2 * 65536 + 2 ^ 32 + 2 ^ 38) (3 + 4 * 65536)

/-- The stack of the slot holds the frame already. -/
def stacked (op : Nat) (pin : Bool) : State :=
  { learnAt 1 (stCard op) with lrn := { State.reset.lrn with stratus := [(1, [⟨3, 4, 0, false, pin, 0, 2⟩])] } }

/-- StratusReady of the card that waits, on die 0 with stackIs of 65,536 bytes. -/
def stReady (op : Nat) (c : Card) (s : State) : Bool :=
  coreReady op c s && tierFree s 0 && canPay s 0 (1200 * stLength s 0) && decide (learnOf s 1 = some learn0) && !stFields c 2
    && decide (regionOf s (homeRd 0) 0 = some (region1 1)) && (stallOn 1 0 (fun _ => true) s).isNone

/-- What the card makes of its slot's stack is `fs`, from line 0 on. -/
def stackIs (c : Card) (s : State) (fs : List FrameEnt) : Bool :=
  match stackStep s 0 65536 16 (qc c) learn0 (region1 1) with
  | .done out line => decide (out = fs ∧ line = 0)
  | .fail _ => false

theorem hyp_StratusCards_push : stReady 7 (stCard 7) (learnAt 1 (stCard 7)) = true ∧
    stackIs (stCard 7) (learnAt 1 (stCard 7)) [⟨3, 4, 0, false, false, 0, 2⟩] = true ∧ stFlag (stCard 7) = true ∧
    stLines (stCard 7) ≠ 0 ∧ (poolStop { clean with pool := some 0 } 2).isSome = true ∧
    after (.stPush 0 { clean with pool := some 0 }) (learnAt 1 (stCard 7)) (fun t => decide (stackOf t 0 1 = [] ∧
      (getCl t 0).tier.map (·.status) = [.poolUncorrectable])) = true ∧
    anyFailed (learnAt 1 (stCard 7)) (regionChans (homeRd 0) (region1 1) (stackBase 0 65536 (stCard 7) learn0) 2) = false ∧
    after (.stPush 0 clean) (learnAt 1 (stCard 7)) (fun t => decide (stackOf t 0 1 = [⟨3, 4, 0, false, false, 0, 2⟩] ∧
      (getCl t 0).tier.length = 1)) = true := by decide +kernel

theorem hyp_StratusCards_pop : stReady 8 (stCard 8) (stacked 8 false) = true ∧ stackIs (stCard 8) (stacked 8 false) [] = true ∧
    after (.stPop ⟨0, clean⟩) (stacked 8 false) (fun t => decide (stackOf t 0 1 = [] ∧ (getCl t 0).tier.length = 1)) = true := by
  decide +kernel

theorem hyp_StratusCards_read : stReady 9 (stCard 9) (stacked 9 true) = true ∧
    stackIs (stCard 9) (stacked 9 true) [⟨3, 4, 0, false, false, 0, 2⟩] = true ∧
    after (.stRead ⟨0, clean⟩) (stacked 9 true) (fun t => decide (stackOf t 0 1 = [⟨3, 4, 0, false, false, 0, 2⟩])) = true := by
  decide +kernel

theorem hyp_StratusCards_fail : stReady 8 (stCard 8) (learnAt 1 (stCard 8)) = true ∧
    (match stackStep (learnAt 1 (stCard 8)) 0 65536 16 (qc (stCard 8)) learn0 (region1 1) with
      | .done _ _ => none
      | .fail st => some st) = some .stratusUnderflow ∧
    after (.stPop ⟨0, clean⟩) (learnAt 1 (stCard 8)) (fun t => decide ((getCl t 0).tier.map (·.status) = [.stratusUnderflow] ∧
      (getJob t 1).any (·.ending.isSome) = true)) = true := by decide +kernel

/-- Channel 0 of the region has FAILED. -/
def chanFailed (s : State) : State :=
  (regionChans (homeRd 0) (region1 1) (2 * 65536) 2).foldl (fun t ch => modChan ch (fun x => { x with state := .failed }) t) s

theorem hyp_StratusCards_channel : stReady 9 (stCard 9) (chanFailed (stacked 9 true)) = true ∧
    anyFailed (chanFailed (stacked 9 true)) (regionChans (homeRd 0) (region1 1) (stackBase 0 65536 (stCard 9) learn0) 2) = true ∧
    after (.stRead ⟨0, clean⟩) (chanFailed (stacked 9 true)) (fun t => decide ((getCl t 0).tier.map (·.status) = [.mtChannelFailed])) = true := by
  decide +kernel

/-- A pop of no line: it releases the frame on top. -/
def dropCard : Card := cc 1 8 0 (4096 + 2 ^ 32 + 2 ^ 38) (3 + 4 * 65536)

theorem hyp_StratusCards_lines : stLines dropCard = 0 ∧ stReady 8 dropCard { stacked 8 false with clusters := (learnAt 1 dropCard).clusters } = true ∧
    stackIs dropCard { stacked 8 false with clusters := (learnAt 1 dropCard).clusters } [] = true ∧
    after (.stPop ⟨0, clean⟩) { stacked 8 false with clusters := (learnAt 1 dropCard).clusters } (fun t => decide (stackOf t 0 1 = [] ∧
      (getCl t 0).tier.map (·.status) = [.ok])) = true := by decide +kernel

/-- A ring of job 1 with one record of a kind, written in tick 6, neither taught nor rewarded. -/
def ringOf (kind : Nat) : ExpRing := ⟨1, 0, 4, .ok, 1, 0, [(kind, 7, 1, 6, false, false)], 0, homeRd 0, 0, none, false⟩

/-- Job 1 has the ring as ring 0. -/
def ringAt (kind : Nat) (p : Phase) (c : Card) : State :=
  { learnAt 2 c with tk := (onAt p).tk, lrn := { State.reset.lrn with rings := [(0, ringOf kind)] } }

/-- TEACH_DONE of one entry in pool line 4096. -/
def teachCard : Card := cc 2 10 0 (256 + 4096 * 2 ^ 32) 0
/-- EXP_TAKE of at most 2 records into that line. -/
def takeCard : Card := cc 2 11 0 (512 + 4096 * 2 ^ 32) 0

theorem hyp_ExperienceRings_teach : coreReady 10 teachCard (ringAt 1 .step teachCard) = true ∧
    getRing (ringAt 1 .step teachCard) 0 = some (ringOf 1) ∧
    (teachEntries 0 (jobTopk (ringAt 1 .step teachCard) 1) (teachCount teachCard) (poolKey 0 (64 * expLine teachCard))
      (clear9 0 (ringAt 1 .step teachCard))).1 = .ok ∧
    after (.teachDone 0 true) (ringAt 1 .step teachCard) (fun t => decide ((getCl t 0).exec9 = none ∧
      getRing t 0 = some (ringOf 1))) = true ∧
    after (.teachDone 0 false) (ringAt 1 .step teachCard) (fun t => decide ((getCl t 0).exec9 = none ∧
      (getRing t 0).map (fun r => r.recs.map (·.2.2.2.2)) = some [(false, true)])) = true := by decide +kernel

theorem hyp_ExperienceRings_take : coreReady 11 takeCard (ringAt 0 .step takeCard) = true ∧ (ringOf 0).consumer = 0 ∧
    after (.expTake 0) (ringAt 0 .step takeCard) (fun t => decide ((getCl t 0).exec9 = none ∧ (getRing t 0).map (·.consume)
      = some (takeCount (ringAt 0 .step takeCard) takeCard))) = true ∧
    takeCount (ringAt 0 .step takeCard) takeCard = 1 := by decide +kernel

theorem hyp_ExperienceRings_waits :
    after (.expAnnotate 3 1#64 2#64 3#64 4#64) (ringAt 1 .step takeCard) (fun t => decide ((getPart t 3).annots = [(1#64, 2#64, 3#64, 4#64)]))
      = true ∧
    learnOf (ringAt 1 .boundary takeCard) 1 = some learn0 ∧ 6 + learn0.teachTimeout ≤ (ringAt 1 .boundary takeCard).tk.tick ∧
    after (.teachTimeout 0 0) (ringAt 1 .boundary takeCard) (fun t => decide (ctrVal t .ctExpNoteach 0 = 1 ∧
      (getRing t 0).map (fun r => r.recs.map (·.2.2.2.2.1)) = some [true])) = true ∧
    6 + learn0.rewardTimeout = (ringAt 3 .boundary takeCard).tk.tick ∧
    after (.rewardTimeout 0 0) (ringAt 3 .boundary takeCard) (fun t => decide (ctrVal t .ctExpNoreward 0 = 1 ∧
      (getRing t 0).map (fun r => r.recs.map (·.2.2.2.2.1)) = some [true])) = true := by decide +kernel

/-- LS_GET or LS_PUT of two lines of unit 0 at the head of its queue. -/
def lsCard (op : Nat) : Card := cc 2 op 0 (4096 + 2 * 65536) 0

/-- The unit is ready for the card. -/
def lsReady (op : Nat) (s : State) : Bool :=
  decide (s.edge.power = .running ∧ (getQ (getCl s 0) 0).cards = [qc (lsCard op)] ∧ isLs (lsCard op) = true ∧ physOf s 0 0 = some 0 ∧
    engineIdle s 0 0 = true ∧ waitsMet (getCl s 0) (qc (lsCard op)) = true ∧ hostIdle s 0 0 = true ∧
    (lsCard op).epoch = (getCl s 0).epoch ∧ (getUnit s 0).refill = none ∧ (getUnit s 0).state = .available ∧
    canPay s (lsCard op).part (3072 * lsLength (lsCard op)) = true)

theorem hyp_StoreCardsIssue : lsReady 12 (headAt 2 0 (lsCard 12)) = true ∧ lsReady 13 (headAt 2 0 (lsCard 13)) = true ∧
    stallOn 1 0 (lsBlocks 0 (lsCard 13)) (headAt 2 0 (lsCard 13)) = none ∧ (getUnit (headAt 2 0 (lsCard 13)) 0).fenced = false ∧
    after (.lsGet 0 0 calm) (headAt 2 0 (lsCard 12)) (fun t => decide ((tabFind 0 (getCl t 0).runs).map (·.card) = some (lsCard 12))) = true ∧
    after (.lsPut 0 0) (headAt 2 0 (lsCard 13)) (fun t => decide ((tabFind 0 (getCl t 0).runs).map (·.card) = some (lsCard 13))) = true := by
  decide +kernel

/-- An update side: group 0 at step 1, one tensor of one chunk with its tile on cluster 0. -/
def upd0 : UpdSt :=
  { groups := [⟨[(1, 0#32, 0#32)], false, 1, false, 0#32, 0#32⟩], clip := 0x3F800000#32, tensors := [(0, 32, 64, true)],
    owners := [(0, 0, 0)], sched := [], moment := [], normGroup := 0, partials := [], posters := [], normSent := false, doneFrom := [], notice := none }

/-- Job 1 updates, with the card `c` to execute. -/
def updAt (u : UpdSt) (c : Card) (p : Phase) : State :=
  { coreAt 2 c with tk := (onAt p).tk, jobs := [(1, { job1 with upd := some u })] }

theorem hyp_UpdateStep_done : coreReady 15 (cc 2 15 0 0 0) (updAt upd0 (cc 2 15 0 0 0) .step) = true ∧
    after (.updDone 0) (updAt { upd0 with owners := [(0, 0, 0), (0, 1, 1)] } (cc 2 15 0 0 0) .step)
      (fun t => decide ((getCl t 0).updDone = true ∧ (getCl t 0).exec9 = none)) = true ∧
    localDone (modCl 0 (fun c => { c with updDone := true }) (updAt { upd0 with owners := [(0, 0, 0), (0, 1, 1)] } (cc 2 15 0 0 0) .step)) 1
      = false := by decide +kernel

/-- NORM_POST of one partial in line 4096, result to line 4097. -/
def normCard : Card := cc 2 14 0 (4096 + 65536 + 4097 * 2 ^ 32) 0

theorem hyp_UpdateStep_post : coreReady 14 normCard (updAt upd0 normCard .step) = true ∧
    leavesOk (updAt upd0 normCard .step) 1 0 [] (npPartials (updAt upd0 normCard .step) 0 normCard) = true ∧
    after (.normPost 0 true) (updAt upd0 normCard .step) (fun t => decide ((updOf t 1).map (·.posters) = some [])) = true ∧
    after (.normPost 0 false) (updAt upd0 normCard .step) (fun t => decide ((updOf t 1).map (fun u => (u.partials, u.posters))
      = some ([(0, 0, 0#32)], [⟨0, 0, 0, 4097, 10⟩]))) = true := by decide +kernel

/-- The one partial, 4.0, has been posted by cluster 0 with line 4097. -/
def normAt : State := updAt { upd0 with partials := [(0, 0, 0x40800000#32)], posters := [⟨0, 0, 0, 4097, 10⟩] } normCard .step

theorem hyp_UpdateStep_result : globalNorm upd0.tensors [(0, 0, 0x40800000#32)] = some 0x40800000#32 ∧
    after (.normResult 1 ⟨[], 0⟩) normAt (fun t => decide ((updOf t 1).map (·.posters) = some [] ∧
      memNat t.mem (poolKey 0 (64 * 4097)) 8 = 0x40800000 + (clipFactor 0x3F800000#32 0x40800000#32).1.toNat * 2 ^ 32)) = true ∧
    (clipFactor 0x3F800000#32 0x40800000#32).1 = 0x3F000000#32 := by decide +kernel

/-- Cluster 0 has reported. -/
def stepAt : State := modCl 0 (fun c => { c with updDone := true }) (updAt upd0 normCard .boundary)

theorem hyp_UpdateStep_advance : compUp stepAt 7 = true ∧ advanceDue stepAt 1 = true ∧
    after (.updStepAdvance 1) stepAt (fun t => decide ((getJob t 1).map (·.j) = some 5 ∧ (getCl t 0).updDone = false ∧
      (updOf t 1).map (fun u => u.groups.map (·.t)) = some [2])) = true := by decide +kernel

theorem hyp_UpdateStep_busy : (getCl (modCl 0 (fun c => { c with updDone := true }) (updAt upd0 (cc 2 15 0 0 0) .step)) 0).updDone = true ∧
    coreReady 15 (cc 2 15 0 0 0) (modCl 0 (fun c => { c with updDone := true }) (updAt upd0 (cc 2 15 0 0 0) .step)) = true ∧
    after (.updDone 0) (modCl 0 (fun c => { c with updDone := true }) (updAt upd0 (cc 2 15 0 0 0) .step))
      (fun t => decide ((getCl t 0).updDone = true ∧ t.mem ≠ [])) = true := by decide +kernel

theorem hyp_UpdateStep_leaf :
    leavesOk (updAt { upd0 with owners := [] } normCard .step) 1 0 [] (npPartials (updAt { upd0 with owners := [] } normCard .step) 0 normCard)
      = false ∧
    after (.normPost 0 false) (updAt { upd0 with owners := [] } normCard .step) (fun t => decide ((updOf t 1).map (·.posters) = some [] ∧
      t.mem ≠ [])) = true := by decide +kernel

theorem hyp_UpdateStep_send : ((updOf normAt 1).map (·.normSent) = some false ∧ normRootHere normAt 1 = true) ∧
    after (.normResult 1 ⟨[], 0⟩) normAt (fun t => decide ((updOf t 1).map (·.normSent) = some true)) = true := by decide +kernel

theorem hyp_ExperienceRings_readable :
    keptRecs (ringAt 0 .step takeCard) (ringOf 0) 1 = [0] ∧ ∃ b, readPlace (ringAt 0 .step takeCard) (recPlace (ringOf 0) 0) 64 = .ok b := by
  refine ⟨by decide +kernel, List.replicate 64 0#8, okIs_eq (by decide +kernel)⟩

/-- Unit 0 is SUSPECT, so that its LS cards run on unit 1. -/
def lsAway : State := setUnit 0 { getUnit (headAt 2 0 (lsCard 12)) 0 with state := .suspect } (headAt 2 0 (lsCard 12))

theorem hyp_StoreCardsIssue_neighbour : (getUnit lsAway 0).state = .suspect ∧ (getUnit lsAway 0).marked = false ∧
    neighbour lsAway 0 0 = some 1 ∧ hostIdle lsAway 0 1 = true ∧
    after (.lsGet 0 0 ⟨true, 0, []⟩) lsAway (fun t => decide ((tabFind 0 (getCl t 0).runs).map (fun r => (r.host, r.status))
      = some (1, .ckStoreUncorrectable))) = true := by decide +kernel

/-! ## Squall -/

/-- A group of cluster 0 here and cluster 0 of package 1, with the collectives `ab` aborted. -/
def group0 (ab : List Nat) : SqGroup :=
  { members := [(0, 0), (1, 0)], maxBytes := 65536, window := 4, scratch := [], seqs := [], tileSeqs := [], aborted := ab }

/-- A BROADCAST of 2 bytes from the root of rank `root`, TIMEOUT 3, between pool lines 4096 and 4097. -/
def collCard (root : Nat) : Card :=
  ⟨(cc 4 16 0 0 0).w0, (cc 4 16 0 0 0).w1, BitVec.ofNat 64 (2 * 4096 + 15 * 65536 + root * 2 ^ 24 + 3 * 2 ^ 40),
   BitVec.ofNat 64 (2 ^ 61 + 64 * 4096), BitVec.ofNat 64 (2 ^ 61 + 64 * 4097), 2#64, 0#64, 0#64⟩

/-- Job 1 spans packages 0 and 1 and has the group as group 0. -/
def squallAt (ab : List Nat) (p : Phase) (c : Card) : State :=
  { coreAt 4 c with tk := (onAt p).tk, jobs := [(1, { job1 with packages := [0, 1], groups := [(0, group0 ab)] })] }

theorem hyp_Collectives_card : coreReady 16 (collCard 1) (squallAt [] .step (collCard 1)) = true ∧
    rankOf (squallAt [] .step (collCard 1)) 1 (group0 []) 0 = some 0 ∧ clGroup (collCard 1) = 0 ∧ clSeq (collCard 1) = 0 ∧
    after (.coll 0) (squallAt [] .step (collCard 1)) (fun t => decide ((getCl t 0).colls.length = 1 ∧ (getCl t 0).exec9 = none ∧
      (findColl t 1 0 0).map (·.posted) = some [0])) = true := by decide +kernel

/-- The collective is under way, set up or not, with its card on the engine since tick 7. -/
def collAt (root : Nat) (up : Bool) (p : Phase) : State :=
  modCl 0 (fun c => { c with exec9 := none, colls := [{ runOf (qc (collCard root)) with issueTick := 7 }] })
    { squallAt [] p (collCard root) with
      sq := { State.reset.sq with colls := [{ newColl (collCard root) with setUp := up, posted := [0] }] }
      mem := bytesAt (poolKey 0 (64 * 4096)) [5#8, 6#8] }

/-- The report of rank 1, which may name another root. -/
def report1 (root : Nat) : CollReport := { collReport State.reset 0 1 2 (collCard root) with rank := 1 }

theorem hyp_Collectives_setup :
    (((List.range 2).map fun r => (localReports (collAt 1 false .step) 1 (group0 []) 0 0 ++ [report1 1]).find?
      fun b => decide (b.rank = r)).any Option.isNone) = false ∧
    reportsAgree (collReport State.reset 0 0 2 (collCard 1)) (report1 1) = true ∧
    reportsAgree (collReport State.reset 0 0 2 (collCard 1)) (report1 0) = false ∧
    after (.collSetup 1 0 [report1 1] false) (collAt 1 false .step) (fun t => decide ((findColl t 1 0 0).map (·.setUp) = some true)) = true ∧
    after (.collSetup 1 0 [report1 0] false) (collAt 1 false .step) (fun t => decide ((groupOf t 1 0).map (·.aborted) = some [0] ∧
      (getPart t 0).abortLast.status = .sqCollAborted ∧ (getPart t 0).abortLast.cause = .sqMismatch)) = true := by decide +kernel

/-- The head of chunk 0 of rank `r`. -/
def chunk0 (r : Nat) : Head := ⟨1, 0, r, 0, 0, 0, 0, 0, 1, 0, 4, true⟩

theorem hyp_Collectives_in : (localRanks (collAt 0 true .step) 1 (group0 [])).find? (fun m => decide (m.1 = 0)) = some (0, 0) ∧
    (collPieces { newColl (collCard 0) with setUp := true } 2 0)[0]? = some ⟨0, 2, 0, none⟩ ∧
    windowOpen (collAt 0 true .step) 4 = true ∧ okIs (srcBytes (collAt 0 true .step) 0 (collCard 0) 0 2) [5#8, 6#8] = true ∧
    after (.chunkIn (chunk0 0) []) (collAt 0 true .step) (fun t => decide ((findColl t 1 0 0).map (fun y => (y.sent, y.inputs))
      = some ([(0, 0)], [(0, 0, [5#8, 6#8])]))) = true := by decide +kernel

theorem hyp_Collectives_out : (collPieces { newColl (collCard 1) with setUp := true } 2 1)[0]? = some ⟨0, 2, 0, none⟩ ∧
    ((group0 []).members[1]?).any (fun m => hereRank (collAt 1 true .step) 1 m.1) = false ∧
    after (.chunkOut 0 (chunk0 1) [7#8, 8#8]) (collAt 1 true .step) (fun t => decide
      ((findColl t 1 0 0).map (·.landed) = some [(2 ^ 32, 0)] ∧ memBytes t.mem (poolKey 0 (64 * 4097)) 2 = [7#8, 8#8])) = true := by
  decide +kernel

theorem hyp_AbortAndPoison : groupOf (collAt 1 true .step) 1 0 = some (group0 []) ∧
    after (.abort 1 0 0) (collAt 1 true .step) (fun t => decide ((groupOf t 1 0).map (·.aborted) = some [0] ∧ findColl t 1 0 0 = none ∧
      (getPart t 0).abortLast = ⟨1, 0, 0, .sqCollAborted, .ok, 10⟩)) = true ∧
    groupOf (squallAt [0] .step (collCard 1)) 1 0 = some (group0 [0]) ∧
    gives (.abort 1 0 0) (squallAt [0] .step (collCard 1)) (squallAt [0] .step (collCard 1)) = true ∧
    after (.poison 1 0 0 0 4) (collAt 1 true .step) (fun t => decide ((getPart t 0).abortLast = ⟨1, 0, 0, .sqPoison, .ok, 10⟩)) = true ∧
    (getCl (collAt 1 true .boundary) 0).colls.find? (fun r => decide (clGroup r.card = 0) && decide (r.issueTick + clTimeout r.card ≤ 10))
      = some { runOf (qc (collCard 1)) with issueTick := 7 } ∧
    after (.sqTimeout 0 0) (collAt 1 true .boundary) (fun t => decide ((groupOf t 1 0).map (·.aborted) = some [0] ∧
      (getPart t 0).abortLast.cause = .sqTimeout)) = true := by decide +kernel

/-- TILE_SENDER of line 4096 to line 4098 of cluster 0, chain 2. -/
def tileCard : Card := ec 7 0 0 (4096 + 65536 + 2 * 2 ^ 53) 4098

/-- The head of its transfer. -/
def tileHead : Head := ⟨1, 0, 0, 0, 0, 2, 0, 0, 1, 4098, 4, true⟩

theorem hyp_TilesAndReads : (getQ (getCl (headAt 0 15 tileCard) 0) 15).cards = [qc tileCard] ∧ engineIdle (headAt 0 15 tileCard) 0 15 = true ∧
    canPay (headAt 0 15 tileCard) 0 (600 * (8 + tsLines tileCard)) = true ∧ tsPkg tileCard = (headAt 0 15 tileCard).wn.pkg ∧
    after (.tileSender 0 true) (headAt 0 15 tileCard) (fun t => decide (t.sq.tiles = [] ∧
      (tabFind 15 (getCl t 0).runs).map (·.status) = some .poolUncorrectable)) = true ∧
    after (.tileSender 0 false) (headAt 0 15 tileCard) (fun t => decide ((tabFind 15 (getCl t 0).runs).map (·.cycles) = some 9 ∧
      t.sq.tiles.map (·.head) = [tileHead])) = true ∧
    (getCl (jobAt 0 .step) 0).owner = some (0, 0, 1) ∧ tabGet 0 (getCl (jobAt 0 .step) 0).arrivals 2 < 65535 ∧
    after (.tileArrival tileHead [9#8]) (jobAt 0 .step) (fun t => decide (t.mem = [(poolKey 0 (64 * 4098), 9#8)] ∧
      tabGet 0 (getCl t 0).arrivals 2 = 1)) = true ∧
    after (.memReq 3 tileHead 0 0#64) (jobAt 0 .step) (fun t => decide (t.out.length + t.waiting.length = 1)) = true := by decide +kernel

/-- Port 8, of four lanes, in a state with what it has sent and not seen acknowledged. -/
def linkAt (st : PortState) (un : List Sent) : State :=
  { onAt .step with
    sq := { State.reset.sq with ports := [(8, { getPort State.reset 8 with width := 4, state := st, rxSeq := 2 ^ 24 - 1, unacked := un })] } }

/-- A frame to port 8 of type `ty` and sequence `q`; `ok` is the verdict of its CRC. -/
def frameOf (ty q : Nat) (ok : Bool) : Frame :=
  ⟨true, ok, portMac 0 8, portMac 1 8, 0x88B5#16, 1, ty, 0, if ty = 0 then 16 else 0, q, 0, 0, 0, true⟩

/-- A DATA frame of one flit that port 8 has sent with sequence 0, and sent again `n` times. -/
def sentFrame (n : Nat) : Sent := ⟨0, 0, [List.replicate 64 0#8], n, 1, 112⟩

theorem hyp_LinkFrames_data : portLive (linkAt .up []) 8 = true ∧ (linkAt .up []).waiting = [] ∧
    frameOk (linkAt .up []) 8 (frameOf 0 (2 ^ 24 - 1) true) = true ∧ frameOk (linkAt .up []) 8 (frameOf 0 0 false) = false ∧
    frameOk (linkAt .up []) 8 (frameOf 1 0 true) = true ∧ frameOk (linkAt .up []) 8 (frameOf 2 0 true) = true ∧
    after (.sqFrameRx 8 (frameOf 0 (2 ^ 24 - 1) true)) (linkAt .up []) (fun t => decide ((getPort t 8).rxSeq = 0 ∧ t.out.length = 1)) = true ∧
    after (.sqFrameRx 8 (frameOf 0 0 true)) (linkAt .up []) (fun t => decide ((getPort t 8).rxSeq = 2 ^ 24 - 1 ∧ t.out.length = 1)) = true ∧
    after (.sqFrameRx 8 (frameOf 0 0 false)) (linkAt .up []) (fun t => decide (ctrVal t .sqLinkErr 8 = 1)) = true ∧
    gives (.sqFrameRx 8 (frameOf 3 0 true)) (linkAt .up []) (linkAt .up []) = true := by decide +kernel

theorem hyp_LinkFrames_control :
    after (.sqAck 8 (frameOf 1 0 true)) (linkAt .up []) (fun t => decide ((getPort t 8).unacked = [])) = true ∧
    after (.sqNak 8 (frameOf 2 0 true)) (linkAt .up [sentFrame 0]) (fun t => decide ((getPort t 8).unacked = [sentFrame 1] ∧
      (getPort t 8).state = .up)) = true ∧
    after (.sqNak 8 (frameOf 2 0 true)) (linkAt .up [sentFrame 7]) (fun t => decide ((getPort t 8).state = .down)) = true ∧
    after (.sqRetransTimeout 8 true) (linkAt .up [sentFrame 0]) (fun t => decide ((getPort t 8).state = .down)) = true ∧
    after (.sqRetransTimeout 8 false) (linkAt .up [sentFrame 6]) (fun t => decide ((getPort t 8).state = .up ∧ t.out.length = 1)) = true ∧
    after (.sqRetransTimeout 8 false) (linkAt .up [sentFrame 7]) (fun t => decide ((getPort t 8).state = .down)) = true ∧
    after (.sqPortUp 8) (linkAt .down [sentFrame 6]) (fun t => decide ((getPort t 8).state = .up ∧
      (getPort t 8).unacked = [sentFrame 0])) = true := by decide +kernel

/-- An ALL_REDUCE of one FP32 between the same lines. -/
def sumCard : Card :=
  ⟨(cc 4 16 0 0 0).w0, (cc 4 16 0 0 0).w1, BitVec.ofNat 64 (7 * 65536 + 3 * 2 ^ 40),
   BitVec.ofNat 64 (2 ^ 61 + 64 * 4096), BitVec.ofNat 64 (2 ^ 61 + 64 * 4097), 1#64, 0#64, 0#64⟩

/-- The sum is set up; rank 1's value 2.0 has come where `held` says so, and the value here is 1.0. -/
def sumAt (held : Bool) : State :=
  modCl 0 (fun c => { c with exec9 := none, colls := [{ runOf (qc sumCard) with issueTick := 7 }] })
    { squallAt [] .step sumCard with
      sq := { State.reset.sq with colls := [{ newColl sumCard with
                                              setUp := true, posted := [0]
                                              inputs := if held then [(0, 1, [0#8, 0#8, 0#8, 0x40#8])] else [] }] }
      mem := bytesAt (poolKey 0 (64 * 4096)) [0#8, 0#8, 0x80#8, 0x3F#8] }

theorem hyp_Collectives_reduce : reduces 0 = true ∧ nodeHere (sumAt true) (newColl sumCard) (group0 []) 0 = true ∧
    windowRoom (newColl sumCard) (group0 []) 0 = true ∧
    inputDue (sumAt false) { newColl sumCard with setUp := true } (group0 []) 1 0 = true ∧
    after (.chunkIn (chunk0 0) []) (sumAt true) (fun t => decide ((findColl t 1 0 0).map (·.results)
      = some [(0, [0#8, 0#8, 0x40#8, 0x40#8])])) = true ∧
    after (.chunkIn (chunk0 1) [0#8, 0#8, 0#8, 0x40#8]) (sumAt false) (fun t => decide ((findColl t 1 0 0).map (·.inputs)
      = some [(0, 1, [0#8, 0#8, 0#8, 0x40#8])])) = true := by decide +kernel

theorem hyp_Collectives_remote : (localRanks (collAt 1 true .step) 1 (group0 [])).any (fun m => decide (m.1 = 1)) = false ∧
    inputDue (collAt 1 true .step) { newColl (collCard 1) with setUp := true } (group0 []) 1 0 = true ∧
    after (.chunkIn (chunk0 1) [7#8, 8#8]) (collAt 1 true .step) (fun t => decide ((findColl t 1 0 0).map (·.inputs)
      = some [(0, 1, [7#8, 8#8])])) = true := by decide +kernel

theorem hyp_Collectives_aborted : (group0 [0]).aborted.contains 0 = true ∧
    after (.coll 0) (squallAt [0] .step (collCard 1)) (fun t => decide ((getCl t 0).colls = [] ∧ (getCl t 0).exec9 = none ∧
      t.mem ≠ [])) = true := by decide +kernel

/-- Reports of a V kind whose total passes rank 1's capacity. -/
theorem hyp_Collectives_cap : reportsAgree ⟨0, 5, 7, 0, 0, 2, 3, 0, [1], 1, ⟩ ⟨1, 5, 7, 0, 0, 2, 3, 0, [1], 1⟩ = true ∧
    overCap 5 [⟨0, 5, 7, 0, 0, 2, 3, 0, [1], 1⟩, ⟨1, 5, 7, 0, 0, 2, 3, 0, [1], 1⟩] = true := by decide +kernel

/-- A norm card was posted in tick 0, and its limit has passed. -/
def normLateAt : State :=
  { updAt { upd0 with posters := [⟨0, 0, 0, 4097, 0⟩] } normCard .boundary with
    tk := { (onAt .boundary).tk with tick := 2 ^ 40 }
    jobs := [(1, { job1 with upd := some { upd0 with posters := [⟨0, 0, 0, 4097, 0⟩] }, groups := [(0, group0 [])] })] }

theorem hyp_AbortAndPoison_norm : normLate normLateAt 0 0 = some (1, 4) ∧ groupOf normLateAt 1 0 = some (group0 []) := by
  refine ⟨?_, by decide +kernel⟩
  have h : normLimit 1 0 ≤ normLateAt.tk.tick := by
    have : normLateAt.tk.tick = 2 ^ 40 := by decide +kernel
    unfold normLimit
    omega
  have ho : (getCl normLateAt 0).owner = some (2, 0, 1) := by decide +kernel
  have hj : getJob normLateAt 1 = some { job1 with upd := some { upd0 with posters := [⟨0, 0, 0, 4097, 0⟩] }, groups := [(0, group0 [])] } := by
    decide +kernel
  have hu : updOf normLateAt 1 = some { upd0 with posters := [⟨0, 0, 0, 4097, 0⟩] } := by decide +kernel
  simp [normLate, ho, hj, hu, h, upd0, job1]

/-- A transfer of group 0's job in group 1, under way, and one of no group. -/
def tileAt (ab : List Nat) : State :=
  { jobAt 0 .step with jobs := [(1, { job1 with groups := [(1, group0 ab)] })] }

theorem hyp_TilesAndReads_group : (group0 []).tileSeqs = [] ∧
    after (.tileArrival { tileHead with group := 1 } [9#8]) (tileAt []) (fun t => decide (t.mem = [(poolKey 0 (64 * 4098), 9#8)] ∧
      (groupOf t 1 1).map (fun g => tabGet 0 g.tileSeqs 0) = some 1)) = true ∧
    after (.tileArrival { tileHead with group := 1, seq := 5 } [9#8]) (tileAt []) (fun t => decide (t.mem = [] ∧
      (getPart t 0).abortLast = ⟨1, 1, 5, .sqPoison, .ok, 10⟩)) = true ∧
    after (.tileArrival { tileHead with crcOk := false } [9#8]) (jobAt 0 .step) (fun t => decide
      ((getJob t 1).any (·.ending.isSome) = true)) = true := by decide +kernel

/-- The transfer of `headAt` under way from cluster 0's die. -/
def transit : Transit := ⟨0, tileHead, [9#8]⟩

theorem hyp_TilesAndReads_inside : Brings { jobAt 0 .step with sq := { State.reset.sq with tiles := [transit] } } tileHead [1#8] [9#8] :=
  .inr ⟨0, transit, by decide +kernel, by decide +kernel, by decide +kernel, rfl⟩

/-- Region 0 is SEALED. -/
def sealedRegion : State :=
  let s := withRegion 0 0 [] (jobAt 0 .step)
  { s with mt := { s.mt with regions := [(256 * homeRd 0, { region1 0 with sealed := true })] } }

theorem hyp_TilesAndReads_read : okIs (serveRead sealedRegion tileHead 0 (BitVec.ofNat 64 (4 * 2 ^ 61 + homeRd 0 * 2 ^ 48)))
      (List.replicate 64 0#8) = true ∧
    after (.memReq 3 tileHead 0 (BitVec.ofNat 64 (4 * 2 ^ 61 + homeRd 0 * 2 ^ 48))) sealedRegion (fun t => decide
      (t.out.length + t.waiting.length = 1)) = true := by decide +kernel

/-! ## Afterglow -/

/-- A slot of region 0 in a state, of a cut and step, taken in tick 8. -/
def slotOf (st : SealState) (cut j : Nat) : SlotSt := ⟨homeRd 0, 0, st, false, cut, j, 8, 0, 9, 6⟩

/-- Die 0 of a job: its two slots and drain image. -/
def die0 (a b : SlotSt) : AgDie :=
  { die := 0, slotA := a, slotB := b, drainImage := slotOf .empty 0 0, drift := [], copying := false, closed := false,
    narrowed := false }

/-- An Afterglow context of job 1 with these dies. -/
def ag0 (ds : List AgDie) : AgCtx :=
  { job := 1, part := 0, service := 1, state := .running, copyOpen := false, narrowing := false, draining := false, lastStatus := .ok,
    newestCut := 4, newestJ := 3, recoveryCut := 4, cutSeq := 4, copyFrom := 8, copyTicksMax := 3, drainEvery := 2, drainFrom := 8,
    drainCut := 4, drainTicksMax := 2, drainSeen := 3, drainAt := none, cutDue := false, rollbackTo := none, restoreCut := none,
    refilling := false, holdDue := false, preemptAsked := false, releaseDue := false, resumeTick := none, busy := false, dies := ds,
    buddies := [], buddyPkg := 0, restored := [], buddySeals := [], saved := [], ctxReg := [], sealFrom := [], closedFrom := [], narrowedFrom := [], lostPkg := none }

/-- Job 1 has the context as context 0. -/
def agAt (a : AgCtx) (p : Phase) : State :=
  { withRegion 5 0 [] (jobAt 0 p) with jobs := [(1, { job1 with ag := some 0 })], lrn := { State.reset.lrn with ags := [(0, a)] } }

theorem hyp_AfterglowCopies_copy :
    agOf (agAt (ag0 [{ die0 (slotOf .opened 5 4) (slotOf .done 4 3) with copying := true }]) .step) 1
      = some (0, ag0 [{ die0 (slotOf .opened 5 4) (slotOf .done 4 3) with copying := true }]) ∧
    after (.agCopyOpen 1) (agAt (ag0 [{ die0 (slotOf .opened 5 4) (slotOf .done 4 3) with copying := true }]) .step)
      (fun t => decide ((agOf t 1).map (fun a => (a.2.copyOpen, a.2.copyFrom)) = some (true, 10))) = true ∧
    windowOpen (agAt (ag0 []) .step) 5 = true ∧
    after (.agCopyTimeout 1)
      (agAt { ag0 [{ die0 (slotOf .opened 5 4) (slotOf .done 4 3) with copying := true }] with copyOpen := true } .slot)
      (fun t => decide ((agOf t 1).map (fun a => (a.2.copyOpen, a.2.lastStatus, a.2.dies.map (·.copying)))
        = some (false, .agCopyTimeout, [false]))) = true ∧
    compUp (agAt (ag0 []) .boundary) 7 = true ∧ gives (.agSeal 1) (agAt (ag0 []) .boundary) (agAt (ag0 []) .boundary) = true := by
  decide +kernel

/-- Die 0's copy of cut 5 has closed. -/
def closedDie : AgDie := { die0 (slotOf .opened 5 4) (slotOf .done 4 3) with closed := true }

/-- The same die once sealed. -/
def sealedDie : AgDie := die0 { slotOf .done 5 4 with sealTick := 10 } (slotOf .done 4 3)

theorem hyp_AfterglowCopies_seal : sealedSlot closedDie (fun y => decide (y.cut = 5)) = none ∧
    agOf (sealDie 1 [] closedDie (agAt { ag0 [closedDie] with cutSeq := 5 } .boundary)) 1
      = some (0, { ag0 [closedDie] with cutSeq := 5, dies := [sealedDie] }) ∧
    (sealedSlot sealedDie fun y => decide (y.cut = 5)).isSome = true ∧
    leadPkg (sealDie 1 [] closedDie (agAt { ag0 [closedDie] with cutSeq := 5 } .boundary)) 1 = 0 ∧
    after (.agSeal 1) (agAt { ag0 [closedDie] with cutSeq := 5 } .boundary) (fun t => decide (ctrVal t .agCuts 0 = 1 ∧
      (agOf t 1).map (fun a => (a.2.newestCut, a.2.newestJ)) = some (5, 4))) = true := by decide +kernel

theorem hyp_AfterglowDrains_start : (ag0 []).drainSeen < (ag0 []).newestCut ∧ (ag0 []).newestCut % (ag0 []).drainEvery = 0 ∧
    after (.agDrainStart 1) (agAt (ag0 []) .step) (fun t => decide ((agOf t 1).map (fun a => (a.2.narrowing, a.2.drainCut, a.2.drainFrom))
      = some (true, 4, 10))) = true ∧
    after (.agDrainStart 1) (agAt { ag0 [] with drainEvery := 0 } .step) (fun t => decide (ctrVal t .agDrainSkipped 0 = 1 ∧
      agOf t 1 = some (0, { ag0 [] with drainEvery := 0, drainSeen := 4 }))) = true := by decide +kernel

theorem hyp_AfterglowDrains_narrow :
    agDie (agAt { ag0 [die0 (slotOf .done 4 3) (slotOf .empty 0 0)] with narrowing := true } .step) 1 0
      = some (die0 (slotOf .done 4 3) (slotOf .empty 0 0)) ∧
    sealedSlot (die0 (slotOf .done 4 3) (slotOf .empty 0 0)) (fun x => decide (x.cut = 4)) = some false ∧
    slotReadable (agAt { ag0 [die0 (slotOf .done 4 3) (slotOf .empty 0 0)] with narrowing := true } .step) (slotOf .done 4 3) (65536 * 6)
      = true := by decide +kernel

theorem hyp_AfterglowDrains_end :
    after (.agDrainTimeout 1 true) (agAt { ag0 [] with draining := true } .step) (fun t => decide (agOf t 1
      = some (0, { ag0 [] with lastStatus := .agDrainFailed }))) = true ∧
    after (.agDrainTimeout 1 false) (agAt { ag0 [] with narrowing := true } .step) (fun t => decide (agOf t 1
      = some (0, { ag0 [] with lastStatus := .agDrainTimeout }))) = true ∧
    after (.afterglowMsg 1 0 0 0 64 [7#8] false true) (agAt { ag0 [die0 (slotOf .empty 0 0) (slotOf .empty 0 0)] with state := .restoring } .step)
      (fun t => decide (t.mem = (writePlace (homeRd 0) 0 64 [7#8] (agAt (ag0 []) .step)).mem)) = true := by decide +kernel

/-- The job's context with a package session. -/
def agSess (a : AgCtx) (p : Phase) : State := withSess (agAt a p)

theorem hyp_PreemptAndResume_take : windowUp (agSess (ag0 []) .step) (.session 1) = true ∧
    rightsOver (agSess (ag0 []) .step) (.session 1) (jobPart 1) = true ∧
    after (.preempt (.session 1) 1) (agSess (ag0 []) .step) (fun t => decide (agOf t 1
      = some (0, { ag0 [] with preemptAsked := true, busy := true }))) = true ∧
    preemptReady (agSess { ag0 [] with preemptAsked := true } .boundary) 1 { ag0 [] with preemptAsked := true } = true ∧
    after (.agPreemptApply 1) (agSess { ag0 [] with preemptAsked := true } .boundary) (fun t => decide
      ((agOf t 1).map (fun y => (y.2.preemptAsked, y.2.state)) = some (false, .saving) ∧ (getJob t 1).map (·.held) = some true)) = true := by
  decide +kernel

theorem hyp_PreemptAndResume_end :
    after (.agContextSaveDone 1) (agSess { ag0 [] with state := .saving } .step) (fun t => decide
      ((agOf t 1).map (·.2.releaseDue) = some true)) = true ∧
    ctxFits (agSess { ag0 [] with state := .preempted } .step) { ag0 [] with state := .preempted } = true ∧
    after (.resume (.session 1) 1) (agSess { ag0 [] with state := .preempted } .step) (fun t => decide
      ((agOf t 1).map (·.2.state) = some .running ∧ (getJob t 1).map (·.held) = some false)) = true := by decide +kernel

/-- Job 1 of packages 0 and 1, which learns with two replicas, of ranks 0 and 1. -/
def agPair (a : AgCtx) (p : Phase) (spoil : List Nat) : State :=
  { agSess a p with
    jobs := [(1, { job1 with ag := some 0, packages := [0, 1], spoiled := spoil
                             learn := some { learn0 with replicas := 2, stage := [(0, 1, 0, 1), (1, 1, 0, 1)] } })] }

theorem hyp_RecoverAndRestore_requests : leadPkg (agPair (ag0 []) .step []) 1 = 0 ∧
    after (.recover (.session 1) 1 1) (agPair (ag0 []) .step []) (fun t => decide (agOf t 1
      = some (0, { ag0 [] with holdDue := true, restoreCut := some 4, lostPkg := some 1, busy := true }))) = true ∧
    shrinkOk (agPair (ag0 []) .step []) 1 1 = true ∧ survivorCut (shrinkJob 1 1 (agPair (ag0 []) .step [])) 1 ≠ 0 ∧
    after (.shrink (.session 1) 1 1) (agPair (ag0 []) .step []) (fun t => decide
      ((agOf t 1).map (fun y => (y.2.holdDue, y.2.lostPkg, y.2.busy)) = some (true, some 1, true))) = true ∧
    after (.shrink (.session 1) 1 1) (agPair { ag0 [] with service := 0 } .step []) (fun t => decide (agOf t 1
      = some (0, { ag0 [] with service := 0, holdDue := true, lostPkg := some 1, lastStatus := .agShrinkRefused }))) = true ∧
    after (.sqCtrlMsg (.resumeAt 1 44)) (agPair (ag0 []) .step []) (fun t => decide (agOf t 1
      = some (0, { ag0 [] with resumeTick := some 44 }))) = true := by decide +kernel

/-- The member's buddy slot here holds cut 4, in region 0; region 1 stages the export. -/
def exporting : State :=
  { agSess { ag0 [] with buddies := [⟨1, 0, slotOf .done 4 3, slotOf .empty 0 0⟩] } .step with
    mt := { State.reset.mt with regions := [(256 * homeRd 0, { region1 5 with len := 4096 }),
      (256 * homeRd 0 + 1, ⟨0xFFFF, 0, 5, 56 + homeRd 0, false, 0, 0#16, 2 ^ 24, 2 ^ 20, 1⟩)] } }

theorem hyp_RecoverAndRestore_export : exportCut { ag0 [] with buddies := [⟨1, 0, slotOf .done 4 3, slotOf .empty 0 0⟩] } = 4 ∧
    buddySlot ⟨1, 0, slotOf .done 4 3, slotOf .empty 0 0⟩ 4 = some (slotOf .done 4 3) ∧
    (regionOf exporting (homeRd 0) 1).map (fun e => (e.part, e.cls, e.sealed, e.owner)) = some (0, 5, false, 56 + homeRd 0) := by
  decide +kernel

theorem hyp_RecoverAndRestore_rollback : leastOf ([4].filter fun y => decide (y ≤ 4)) = some 4 ∧
    [die0 (slotOf .done 4 4) (slotOf .done 3 3)].all (dieCan 4) = true ∧ [die0 (slotOf .done 4 5) (slotOf .done 3 3)].all (dieCan 4) = false ∧
    after (.jobRollback 1) (agPair (ag0 [die0 (slotOf .done 4 4) (slotOf .done 3 3)]) .boundary [4]) (fun t => decide
      ((agOf t 1).map (·.2.state) = some .restoring)) = true ∧
    after (.jobRollback 1) (agPair (ag0 [die0 (slotOf .done 4 5) (slotOf .done 3 3)]) .boundary [4]) (fun t => decide
      ((getJob t 1).map (·.ending) = some (some (.faulted, .agNoSlot)) ∧ (agOf t 1).map (·.2.lastStatus) = some .agNoSlot)) = true := by
  decide +kernel

/-- A member of rank 1 restores; its units have refilled. -/
def restoring : State :=
  { agPair { ag0 [] with state := .restoring, refilling := true } .step [] with
    wn := { State.reset.wn with pkg := 1 }
    jobs := [(1, { job1 with ag := some 0, packages := [0, 1], rank := 1 })] }

theorem hyp_RecoverAndRestore_done : leadPkg restoring 1 ≠ restoring.wn.pkg ∧ windowOpen restoring 5 = true ∧
    after (.agRestoreDone 1) restoring (fun t => decide (ctrVal t .agRollbacks 0 = 1 ∧
      (agOf t 1).map (fun y => y.2.restored) = some [1])) = true := by decide +kernel

theorem hyp_AfterglowCopies_close :
    agDie (agAt { ag0 [{ die0 (slotOf .opened 5 4) (slotOf .done 4 3) with copying := true }] with copyOpen := true } .step) 1 0
      = some { die0 (slotOf .opened 5 4) (slotOf .done 4 3) with copying := true } ∧
    after (.agCopyClose 1 0) (agAt { ag0 [{ die0 (slotOf .opened 5 4) (slotOf .done 4 3) with copying := true }] with copyOpen := true } .step)
      (fun t => decide ((agDie t 1 0).map (fun x => (x.copying, x.closed)) = some (false, true) ∧
        (agOf t 1).map (·.2.copyOpen) = some false)) = true := by decide +kernel

theorem hyp_AfterglowCopies_restore : (8 + 3 ≤ (agAt (ag0 []) .slot).tk.tick + 1) ∧
    after (.agCopyTimeout 1) (agAt { ag0 [] with state := .restoring } .slot) (fun t => decide
      ((getJob t 1).any (·.ending.isSome) = true ∧ (agOf t 1).map (·.2.lastStatus) = some .agCopyTimeout)) = true := by decide +kernel

theorem hyp_AfterglowCopies_slot : openWhich closedDie = some false ∧ (closedDie.slot false).cutTick + 1 ≤ 10 ∧
    after (.agSeal 1) (agAt { ag0 [closedDie] with cutSeq := 5 } .boundary) (fun t => decide (agDie t 1 0
      = some (sealedAs (agAt (ag0 []) .boundary) [] closedDie false))) = true ∧
    diesSealed { ag0 [sealedDie] with cutSeq := 5 } = true := by decide +kernel

theorem hyp_AfterglowDrains_named : otherPkgs (agPair (ag0 []) .step []) 1 ≠ [] ∧ leadPkg (agPair (ag0 []) .step []) 1 = 0 ∧
    drainLive (agPair (ag0 []) .step []) 1 (ag0 []) = false ∧ drainLive (agAt (ag0 []) .step) 1 (ag0 []) = false ∧
    after (.agDrainStart 1) (agPair (ag0 []) .step []) (fun t => decide (agOf t 1
      = some (0, { ag0 [] with drainSeen := 4, drainAt := some (4, 12) }))) = true ∧
    after (.agDrainStart 1) (agAt { ag0 [] with drainSeen := 4, drainAt := some (3, 10) } .step) (fun t => decide
      ((agOf t 1).map (fun a => (a.2.narrowing, a.2.drainCut)) = some (true, 3))) = true := by decide +kernel

/-- The slot to be narrowed lies in a region that does not exist. -/
def lostSlot : AgCtx := { ag0 [die0 { slotOf .done 4 3 with region := 9 } (slotOf .empty 0 0)] with narrowing := true }

theorem hyp_AfterglowDrains_unreadable : slotReadable (agAt lostSlot .step) { slotOf .done 4 3 with region := 9 } (65536 * 6) = false ∧
    after (.agNarrowDone 1 0) (agAt lostSlot .step) (fun t => decide (agOf t 1 = some (0, drainFailed lostSlot .agDrainFailed))) = true := by
  decide +kernel

/-- Package 1's die 0 has its buddy slots here: slot A holds cut 4 SEALED, slot B is open for cut 6 up to byte 64. -/
def buddied : AgCtx := { ag0 [] with buddies := [⟨1, 0, slotOf .done 4 3, { slotOf .opened 6 5 with blocks := 1 }⟩] }

theorem hyp_AfterglowDrains_buddy : buddySlot ⟨1, 0, slotOf .done 4 3, { slotOf .opened 6 5 with blocks := 1 }⟩ 4 = some (slotOf .done 4 3) ∧
    targetSlot (slotOf .done 4 3) { slotOf .opened 6 5 with blocks := 1 } = true ∧
    after (.afterglowMsg 1 1 0 6 64 [7#8] false true) (agAt buddied .step) (fun t => decide
      (t.mem = (writePlace (homeRd 0) 0 64 [7#8] (agAt buddied .step)).mem)) = true ∧
    after (.afterglowMsg 1 1 0 6 64 [7#8] true true) (agAt buddied .step) (fun t => decide ((agOf t 1).any (fun y =>
      y.2.buddies.any fun c => (buddySlot c 6).isSome) = true)) = true ∧
    after (.afterglowMsg 1 1 0 6 128 [7#8] false true) (agAt buddied .step) (fun t => decide (t.mem = (agAt buddied .step).mem)) = true := by
  decide +kernel

theorem hyp_RecoverAndRestore_noCut : after (.recover (.session 1) 1 1) (agPair { ag0 [] with recoveryCut := 0 } .step []) (fun t => decide
    ((getJob t 1).any (·.ending.isSome) = true ∧ t.out = [.outcome (.session 1) .agNoRecoveryCut])) = true := by decide +kernel

theorem hyp_RecoverAndRestore_plain : after (.jobRollback 1) { jobAt 0 .boundary with jobs := [(1, { job1 with spoiled := [4] })] } (fun t =>
    decide ((getJob t 1).map (·.ending) = some (some (.faulted, .sqPoison)))) = true := by decide +kernel

/-- The restore's slot lies in a region that does not exist. -/
def restoreLost : State :=
  agAt { ag0 [die0 { slotOf .done 4 3 with region := 9 } (slotOf .empty 0 0)] with
    state := .restoring, refilling := true, restoreCut := some 4 } .step

theorem hyp_RecoverAndRestore_unreadable :
    (((ag0 [die0 { slotOf .done 4 3 with region := 9 } (slotOf .empty 0 0)]).dies.filterMap fun d =>
      restoreSlot { ag0 [] with restoreCut := some 4 } d).map (·.region)) = [9] ∧
    after (.agRestoreDone 1) restoreLost (fun t => decide ((getJob t 1).map (·.ending) = some (some (.faulted, .mtUncorrectable)))) = true := by
  decide +kernel

/-- The buddy slot of 4,096 bytes that an export would write; the region has the room that `n` says. -/
def exportTo (n : Nat) : State :=
  { exporting with
    mt := { exporting.mt with regions := [(256 * homeRd 0, { region1 5 with len := 64 }),
      (256 * homeRd 0 + 1, ⟨0xFFFF, 0, 5, 56 + homeRd 0, false, 0, 0#16, 2 ^ 24, n, 1⟩)] } }

theorem hyp_RecoverAndRestore_room :
    (exportHeld { ag0 [] with buddies := [⟨1, 0, slotOf .done 4 3, slotOf .empty 0 0⟩] }).length = 1 ∧
    after (.exportImage (.session 1) 1 (homeRd 0) 1) (exportTo 16384) (fun t => decide (t.out = [.outcome (.session 1) .ok])) = true ∧
    after (.exportImage (.session 1) 1 (homeRd 0) 1) (exportTo 64) (fun t => decide (t.out = [.outcome (.session 1) .mtAddrInvalid] ∧
      t.mem = [])) = true := by decide +kernel

/-! ## Horizon -/

/-- Port 2 of partition 1, up. -/
def portUp : EnvPort := { getEnvPort State.reset 2 with cfg := ⟨5#48, 7#32, 9#128, 0, 1, true⟩, up := true }

/-- Stream 3 of partition 1 on port 2 as `f` makes it, and the port. -/
def hzAt (p : Phase) (f : Stream → Stream) : State :=
  withSess { jobAt 6 p with
    streams := [(3, f { getStream State.reset 3 with part := 1, port := 2, actionBytes := 16, obsBytes := 64, decayN := 1 })]
    envPorts := [(2, portUp)] }

/-- A datagram of stream 3 with a payload of `n` bytes. -/
def gramOf (n : Nat) : Datagram := ⟨true, true, true, 1, 0, true, 3, 1#32, 10#64, 0#128, 0, List.replicate n 1#8⟩

theorem hyp_PortsReceive_datagram : (getEnvPort (hzAt .step fun x => { x with state := .live }) 2).up = true ∧
    obsOk (getStream (hzAt .step fun x => { x with state := .live }) 3) 2 (gramOf 64) = true ∧
    obsOk (getStream (hzAt .step fun x => { x with state := .live }) 3) 2 (gramOf 65) = false ∧
    after (.hzObsRx 2 (gramOf 64)) (hzAt .step fun x => { x with state := .live }) (fun t => decide ((getStream t 3).obs
      = [(1#32, 10#64, List.replicate 64 1#8)])) = true ∧
    after (.hzObsRx 2 (gramOf 65)) (hzAt .step fun x => { x with state := .live }) (fun t => decide (ctrVal t .hzRxDrop 2 = 1)) = true := by
  decide +kernel

theorem hyp_PortsReceive_action : (getStream (hzAt .step fun x => { x with state := .live, served := some 1 }) 3).served = some 1 ∧
    after (.horizonMsg 3 true 10 6 [4#8]) (hzAt .step fun x => { x with state := .live, served := some 1 }) (fun t => decide
      ((getStream t 3).nextAct = some (4#8 :: List.replicate 15 0#8, 6))) = true ∧
    gives (.horizonMsg 3 true 10 6 [4#8]) (hzAt .step fun x => { x with state := .live, served := some 1, nextAct := some ([], 1) })
      (hzAt .step fun x => { x with state := .live, served := some 1, nextAct := some ([], 1) }) = true := by decide +kernel

/-- Job 1 serves the stream with cluster 0, chain 2 and region 0. -/
def servedAt : State :=
  withRegion 6 0 [] { hzAt .step (fun x => { x with state := .live, served := some 1 }) with
    jobs := [(1, { job1 with streams := [⟨3, 0, 2, 256 * homeRd 0, 64⟩] })] }

theorem hyp_PortsReceive_record :
    servedAt.jobs.find? (fun e => e.2.streams.any fun y => decide (y.stream = 3) && decide (y.cluster / 2048 = e.2.rank))
      = some (1, { job1 with streams := [⟨3, 0, 2, 256 * homeRd 0, 64⟩] }) ∧ tabGet 0 (getCl servedAt 0).arrivals 2 < 65535 ∧
    after (.horizonMsg 3 false 11 0 [4#8]) servedAt (fun t => decide (tabGet 0 (getCl t 0).arrivals 2 = 1 ∧
      t.mem = (writePlace (homeRd 0) 0 96 [4#8] servedAt).mem)) = true := by decide +kernel

theorem hyp_PortsReceive_link :
    after (.hzNeighborReq 2 true 9#128) (hzAt .step id) (fun t => decide (t.out = [.neighbor 2 5#48])) = true ∧
    gives (.hzNeighborReq 2 true 8#128) (hzAt .step id) (hzAt .step id) = true ∧
    after (.hzNeighborReq 2 false 7#128) (hzAt .step id) (fun t => decide (t.out = [.neighbor 2 5#48])) = true ∧
    after (.hzPortDown 2) (hzAt .step id) (fun t => decide ((getEnvPort t 2).up = false)) = true ∧
    after (.envPortLinkUp 2) (hzAt .step id) (fun t => decide ((getEnvPort t 2).up = true)) = true ∧
    (getEnvPort (hzAt .step id) 4).cfg.owned = false ∧ gives (.envPortLinkUp 4) (hzAt .step id) (hzAt .step id) = true := by decide +kernel

theorem hyp_StreamCommands_control : hzCtrlStatus (.session 2) false 3 (hzAt .step id) = .ok ∧
    hzCtrlStatus (.session 2) true 3 (hzAt .step fun x => { x with state := .live }) = .ok ∧
    hzCtrlStatus (.session 2) false 3 (hzAt .step fun x => { x with part := 0 }) = .hzDenied ∧
    after (.hzOpen (.session 2) 3) (hzAt .step id) (fun t => decide ((getStream t 3).openDue = true ∧ (getStream t 3).state = .closed)) = true ∧
    after (.hzClose (.session 2) 3) (hzAt .step fun x => { x with state := .live }) (fun t => decide ((getStream t 3).closeDue = true ∧
      (getStream t 3).state = .live)) = true ∧
    after (.hzClose (.session 2) 3) (hzAt .step id) (fun t => decide (t.out = [.outcome (.session 2) .hzStreamBusy])) = true := by
  decide +kernel

theorem hyp_StreamCommands_limit : limitReached (getStream (hzAt .step fun x => { x with state := .live, holdLimit := 5, holdRun := 5 }) 3) = true ∧
    limitReached (getStream (hzAt .step fun x => { x with state := .live, holdLimit := 5, holdRun := 4 }) 3) = false ∧
    after (.hzHoldLimit 3) (hzAt .step fun x => { x with state := .live, holdLimit := 5, holdRun := 5 }) (fun t => decide
      ((getStream t 3).limitDue = true)) = true ∧
    gives (.hzHoldLimit 3) (hzAt .step fun x => { x with state := .live, holdLimit := 5, holdRun := 4 })
      (hzAt .step fun x => { x with state := .live, holdLimit := 5, holdRun := 4 }) = true := by decide +kernel

/-- HZ_POST for stream 3 with 16 bytes from line 4096. -/
def postCard : Card := cc 6 17 0 (3 + 4096 * 65536) 0

theorem hyp_StreamCommands_post :
    coreReady 17 postCard (modCl 0 (fun x => { x with exec9 := some (qc postCard) }) (hzAt .step id)) = true ∧
    after (.hzPost 0 true) (modCl 0 (fun x => { x with exec9 := some (qc postCard) }) (hzAt .step id)) (fun t => decide
      ((getCl t 0).exec9 = none ∧ (getCl t 0).tier = [])) = true ∧
    after (.hzPost 0 false) (modCl 0 (fun x => { x with exec9 := some (qc postCard) }) (hzAt .step id)) (fun t => decide
      ((getCl t 0).exec9 = none ∧ (getCl t 0).tier.length = 1)) = true := by decide +kernel

theorem hyp_HoldLimitWinds :
    (getStream (hzAt .slot fun x => { x with state := .live, holdLimit := 5, holdRun := 5 }) 3).holdLimit
      ≤ (getStream (hzAt .slot fun x => { x with state := .live, holdLimit := 5, holdRun := 5 }) 3).holdRun ∧
    after (.boundary quiet) (hzAt .slot fun x => { x with state := .live, holdLimit := 5, holdRun := 5 }) (fun t => decide
      ((getStream t 3).state = .winding) && t.out.contains (.event 1 1 .hzHoldLimit 1 10 3) && t.out.contains (.event 2 1 .hzHoldLimit 1 10 3))
      = true := by decide +kernel

/-! ## Partitions and jobs -/

/-- The staged entry of partition 1: 500 MHz, 40 W, application core 5. -/
def stage1 : BitVec 1024 := BitVec.ofNat 1024 (1 + 40 * 2 ^ 16 + 500 * 2 ^ 44 + 2 ^ 325)

/-- A package session; partition 0 exists, an entry is staged for partition 1, region 7 of rim die 0 is sealed, region 8 is not. -/
def ptState (gs : List (Nat × Nat × Nat × Nat)) (ch : Option PtChange) : State :=
  withSess { onAt .step with
    pt := { State.reset.pt with table := [(0, BitVec.ofNat 1024 (16 + 40 * 2 ^ 16 + 500 * 2 ^ 44 + 2 ^ 320))], stage := [(1, stage1)],
                                open_ := gs, change := ch }
    mt := { State.reset.mt with regions := [(7, { region1 3 with sealed := true }), (8, region1 3)] } }

theorem hyp_PartitionRequests_change : compState (ptState [] none) 2 ≠ 2 ∧ ptValid (ptEntry (ptState [] none) 1) = false ∧
    tableCheck (tabIns 1 (stagedEntry (ptState [] none) 1) (ptState [] none).pt.table) (chansAfter (ptState [] none) 1) [] (createBusy (ptState [] none) 1)
      = none ∧
    after (.create (.session 1) 1) (ptState [] none) (fun t => decide (t.pt.change.map (fun c => (c.create, c.part, c.tickAt)) = some (true, 1, 11) ∧
      t.wn.ptLast = .ok)) = true ∧
    after (.create (.session 1) 2) (ptState [] none) (fun t => decide (t.pt.change = none ∧ t.wn.ptLast = .ptTableInvalid)) = true ∧
    after (.teardown (.session 1) 0) (ptState [] none) (fun t => decide (t.pt.change = some ⟨false, 0, 11, 0#1024, 0#1024⟩)) = true ∧
    after (.create (.session 1) 1) (ptState [] (some ⟨false, 0, 11, 0#1024, 0#1024⟩)) (fun t => decide
      (t.out = [.outcome (.session 1) .ptBusy])) = true ∧
    after (.teardown (.session 1) 0) (ptState [] (some ⟨false, 0, 11, 0#1024, 0#1024⟩)) (fun t => decide
      (t.out = [.outcome (.session 1) .ptBusy])) = true := by decide +kernel

theorem hyp_PartitionRequests_grants : openGrant (ptState [(0, 7, 1, 10)] none) 0 7 1 = true ∧
    after (.grant (.session 1) 0 7 1) (ptState [] none) (fun t => openGrant t 0 7 1 && decide (t.pt.due = [])) = true ∧
    after (.grant (.session 1) 0 8 1) (ptState [] none) (fun t => decide (t.out = [.outcome (.session 1) .ptGrantInvalid])) = true ∧
    after (.grant (.session 1) 0 7 0) (ptState [] none) (fun t => decide (t.out = [.outcome (.session 1) .ptGrantInvalid])) = true ∧
    after (.accept (.session 1) 0 7 1) (ptState [(0, 7, 1, 10)] none) (fun t => decide (t.pt.due = [(0, 7, 1, true, 16)] ∧ t.pt.open_ = []))
      = true ∧
    after (.accept (.session 1) 0 7 1) (ptState [] none) (fun t => decide (t.out = [.outcome (.session 1) .ptGrantStale])) = true ∧
    after (.revoke (.session 1) 0 7 1) (ptState [] none) (fun t => decide (t.pt.due = [(0, 7, 1, false, 16)])) = true ∧
    openGrant { ptState [(0, 7, 1, 10)] none with tk := { (onAt .step).tk with tick := 75 } } 0 7 1 = false ∧
    after (.ptGrantExpire 0 7 1) { ptState [(0, 7, 1, 10)] none with tk := { (onAt .step).tk with tick := 75 } }
      (fun t => decide (t.pt.open_ = [])) = true := by decide +kernel

/-- A manifest of partition 0: one package, rank 0, with no clusters and no run table. -/
def manifest : List Byte :=
  w64Bytes ([0x1464E414D#64, 160#64, 3#64] ++ List.replicate 5 0#64 ++ [BitVec.ofNat 64 (128 + 32 * 2 ^ 32)] ++ List.replicate 7 0#64 ++
    [BitVec.ofNat 64 (2 ^ 40), 0#64, 1#64, 7#64])

/-- It stands in a region of partition 0's application cores; the submission was written in tick 9. -/
def submitted (m : List Byte) : State :=
  let s : State := { ptState [] none with mt := { State.reset.mt with regions := [(0, ⟨1, 0, 3, 56, false, 0, 0#16, 0, 2 ^ 20, 0⟩)] } }
  writePlace 0 0 0 m (putSubmit 0 (some (0#64, 9)) s)

theorem hyp_Jobs_submit : viewOf (ptState [] none) (.cores 0) = 0 ∧ windowUp (ptState [] none) (.cores 0) = true ∧
    ptValid (ptEntry (ptState [] none) 0) = true ∧ submitOf (ptState [] none) 0 = none ∧
    after (.wnJobSubmit (.cores 0) 5#64) (ptState [] none) (fun t => decide (submitOf t 0 = some (5#64, 10))) = true ∧
    after (.wnJobSubmit (.cores 0) 5#64) (submitted []) (fun t => decide (submitOf t 0 = some (0#64, 9) ∧
      jobStatusOf t 0 = (.manBusy, 0, 0))) = true ∧
    after (.wnJobSubmit (.session 1) 5#64) (ptState [] none) (fun t => decide (submitOf t 16 = some (5#64, 10))) = true := by decide +kernel

theorem hyp_Jobs_admit : (submitted manifest).tk.pending = none ∧ compUp (submitted manifest) 5 = true ∧
    (match admitManifest 0 0#64 (putSubmit 0 none (submitted manifest)) with
      | .ok (j, _) => decide (j = 1)
      | .error _ => false) = true ∧
    (match admitManifest 0 0#64 (putSubmit 0 none (submitted [1#8])) with
      | .ok _ => false
      | .error e => decide (e = (.manInvalid, 0))) = true ∧
    after (.jobAdmit 0) (submitted manifest) (fun t => decide (jobStatusOf t 0 = (.ok, 1, 0) ∧ submitOf t 0 = none)) = true ∧
    after (.jobAdmit 0) (submitted [1#8]) (fun t => decide (jobStatusOf t 0 = (.manInvalid, 0, 0) ∧ submitOf t 0 = none ∧ t.jobs = [])) = true ∧
    gives (.jobAdmit 0) { submitted manifest with tk := (armed 12).tk } { submitted manifest with tk := (armed 12).tk } = true := by
  decide +kernel

/-- Partition 0 has job 1; its end is decided as `e`. -/
def endingAs (e : Option (JobEnd × Status)) : State := { ptState [] none with jobs := [(1, { job1 with ending := e })] }

theorem hyp_Jobs_end : getJob (endingAs none) 1 = some job1 ∧ ptValid (ptEntry (endingAs none) (jobPart 1)) = true ∧
    after (.jobEnd (.session 1) 1) (endingAs none) (fun t => decide ((getJob t 1).map (·.ending) = some (some (.completed, .ok)))) = true ∧
    after (.kill (.session 1) 1) (endingAs none) (fun t => decide ((getJob t 1).map (·.ending) = some (some (.tornDown, .ok)))) = true ∧
    after (.kill (.session 1) 1) (endingAs (some (.completed, .ok))) (fun t => decide ((getJob t 1).map (·.ending)
      = some (some (.completed, .ok)))) = true := by decide +kernel

theorem hyp_DieFaultContained : job1.clusters.any (fun c => decide (clDie c.1 = 0)) = true ∧ job1.clusters.any (fun c => decide (clDie c.1 = 1)) = false ∧
    after (.dieFault 0) (jobAt 0 .step) (fun t => decide ((getJob t 1).map (·.ending) = some (some (.tornDown, .tornDown)))) = true ∧
    gives (.dieFault 1) (jobAt 0 .step) (jobAt 0 .step) = true := by decide +kernel

theorem hyp_PartitionRequests_refused : packageRights (ptState [] none) (.session 2) = false ∧
    rightsOver (ptState [(0, 7, 1, 10)] none) (.session 2) 1 = true ∧ rightsOver (ptState [] none) (.session 2) 0 = false ∧
    after (.create (.session 2) 1) (ptState [] none) (fun t => decide (t.out = [.outcome (.session 2) .ptDenied])) = true ∧
    after (.create (.session 1) 0) (ptState [] none) (fun t => decide (t.out = [.outcome (.session 1) .ptResourceBusy])) = true ∧
    after (.teardown (.session 1) 9) (ptState [] none) (fun t => decide (t.out = [.outcome (.session 1) .ptReqInvalid])) = true ∧
    after (.grant (.session 2) 0 7 1) (ptState [] none) (fun t => decide (t.out = [.outcome (.session 2) .ptGrantInvalid])) = true ∧
    after (.revoke (.session 2) 0 7 1) (ptState [] none) (fun t => decide (t.out = [.outcome (.session 2) .ptDenied])) = true ∧
    after (.accept (.session 2) 0 7 0) (ptState [(0, 7, 0, 10)] none) (fun t => decide (t.out = [.outcome (.session 2) .ptDenied])) = true := by
  decide +kernel

/-- Component 1 has FAILED. -/
def ptDown : State := { ptState [(0, 7, 1, 10)] none with wn := { State.reset.wn with comps := [(1, ⟨2, 0, 0, [], 0⟩)] } }

theorem hyp_PartitionRequests_down : ptServes ptDown = false ∧
    after (.create (.session 1) 1) ptDown (fun t => decide (t.pt = ptDown.pt)) = true ∧
    after (.revoke (.session 1) 0 7 1) ptDown (fun t => decide (t.pt = ptDown.pt)) = true := by decide +kernel

theorem hyp_Jobs_denied : rightsOver (endingAs none) (.session 2) (jobPart 1) = false ∧ packageRights (endingAs none) (.session 2) = false ∧
    after (.jobEnd (.session 2) 1) (endingAs none) (fun t => decide (t.out = [.outcome (.session 2) .ptDenied])) = true ∧
    after (.kill (.session 2) 1) (endingAs none) (fun t => decide (t.out = [.outcome (.session 2) .ptDenied])) = true := by decide +kernel

/-! ## Sessions, messages and attestation -/

/-- A message of session `n`: its counter, tag and the verdict of its MAC. -/
def hdr (n c : Nat) (tag : W32) (ok : Bool) : Hdr := ⟨n, c, tag, ok⟩

/-- Both sessions at counter 5; tag 4 has a kept reply in each; session 1 has two events. -/
def talk : State :=
  { ptState [] none with
    sc := { State.reset.sc with sessions :=
      [(1, { sessP with counter := 5, replies := [(4#32, .ptBusy, [])], events := [(1, .ok, 0, 0, 0), (2, .ok, 0, 0, 0)] }),
       (2, { sessP with package := false, mask := 1#16, counter := 5, replies := [(4#32, .ptBusy, [])] })] }
    mt := { State.reset.mt with regions := [(7, { region1 3 with owner := 56 })] } }

theorem hyp_MessageFrames : headerOf (.reset (hdr 2 6 9#32 true)) = some (hdr 2 6 9#32 true) ∧ compState talk 8 ≠ 2 ∧
    after (.read (hdr 2 5 9#32 true) 0 1) talk (fun t => decide (tabFind 2 t.sc.sessions = none ∧
      t.out = [.outcome (.session 2) .scSessionMac])) = true ∧
    after (.read (hdr 2 6 9#32 false) 0 1) talk (fun t => decide (tabFind 2 t.sc.sessions = none)) = true ∧
    after (.reset (hdr 1 6 4#32 true)) talk (fun t => decide (t.out = [.reply 1 4#32 .ptBusy []] ∧ t.edge.power = .running ∧
      (tabFind 1 t.sc.sessions).map (·.counter) = some 6)) = true ∧
    after (.reset (hdr 2 6 9#32 true)) talk (fun t => decide (t.out = [.reply 2 9#32 .wnDenied []] ∧ t.edge.power = .running)) = true ∧
    after (.malformedMessage 2) talk (fun t => decide (ctrVal t .wnDiscards 16 = 1 ∧ t.out = [.reply 2 0#32 .mgmtMsgInvalid []])) = true := by
  decide +kernel

/-- The session has not seen the message. -/
def heard (h : Hdr) (s : State) : Bool := match tabFind h.session s.sc.sessions with
  | some x => decide (compState s 8 ≠ 2 ∧ h.macOk = true ∧ x.counter < h.counter ∧ x.replies.find? (fun r => decide (r.1 = h.tag)) = none)
  | none => false

theorem hyp_Messages_move : heard (hdr 1 6 9#32 true) talk = true ∧
    after (.read (hdr 1 6 9#32 true) (regOff .tkTick 0 0) 2) talk (fun t => decide (t.out.getLast?.map (fun o => match o with
      | .reply 1 q .ok vs => (q, vs.length, vs.head?)
      | _ => (0#32, 0, none)) = some (9#32, 2, some 10#64))) = true ∧
    after (.write (hdr 1 6 9#32 true) (regOff .tkConfigNext 0 0) [1#64]) talk (fun t => decide (t.tk.next.periodUs = 1)) = true ∧
    after (.bulkWrite (hdr 1 6 9#32 true) .staging 268435455 [5#8]) talk (fun t => decide (t.mem = [(stagingKey 268435455, 5#8)])) = true ∧
    after (.bulkRead (hdr 1 6 9#32 true) .staging 0 8192) talk (fun t => decide (t.out.length = 1)) = true := by decide +kernel

theorem hyp_Messages_region : heard (hdr 2 6 9#32 true) talk = true ∧
    bulkAllowed talk { sessP with package := false, mask := 1#16 } 0 7 = true ∧
    after (.bulkWrite (hdr 2 6 9#32 true) (.region 0 7) 64 [5#8]) talk (fun t => decide (t.mem = (writePlace 0 7 64 [5#8] talk).mem ∧
      t.out = [.reply 2 9#32 .ok []])) = true ∧
    bulkAllowed talk { sessP with package := false, mask := 2#16 } 0 7 = false ∧
    okIs (readPlace talk ⟨0, 7, 64⟩ 2) [0#8, 0#8] = true ∧
    after (.bulkRead (hdr 2 6 9#32 true) (.region 0 7) 64 2) talk (fun t => decide (t.out = [.reply 2 9#32 .ok (packWords [0#8, 0#8])])) = true := by
  decide +kernel

theorem hyp_Messages_records :
    after (.eventAck (hdr 1 6 9#32 true) 1) talk (fun t => decide ((tabFind 1 t.sc.sessions).map (·.events) = some [(2, .ok, 0, 0, 0)])) = true ∧
    after (.logRead (hdr 1 6 9#32 true) 63 0 128) talk (fun t => decide (t.out = [.reply 1 9#32 .ok []])) = true ∧
    after (.traceRead (hdr 1 6 9#32 true) 0 256) talk (fun t => decide (t.out = [.reply 1 9#32 .ok []])) = true ∧
    after (.close (hdr 1 6 9#32 true)) talk (fun t => decide (tabFind 1 t.sc.sessions = none ∧ t.out = [.reply 1 9#32 .ok []])) = true ∧
    after (.reset (hdr 1 6 9#32 true)) talk (fun t => decide (t.edge.power = .released ∧ t.tk.tick = 0 ∧ t.sc.sessions = [])) = true := by
  decide +kernel

/-- A boot image that passes: the required entries, partition 0, one root key 77, package 4, one session key. -/
def image0 (v : Nat) : BootImage :=
  { magic := 0x54424C43, format := 1,
    entries := ([1, 2, 3, 4, 5, 6, 7, 10, 11, 13].zipIdx.map fun e => ⟨e.1, 1, 4096 * (e.2 + 1), 64, 0⟩), securityVersion := v,
    imageBytes := 65536, sigOffset := 41024, build := 1#32, reservedZero := true, rootKeyHash := 77, sigValid := true, digestsValid := true,
    hash := 5, parts := (ptState [] none).pt.table, chans := 0#1024, tick := BitVec.ofNat 64 (2000 + 1500 * 65536 + 100 * 2 ^ 32),
    tickSync := BitVec.ofNat 64 (100 * 2 ^ 32), fabricPorts := [], envPorts := [], memory := BitVec.ofNat 64 (32 + 1000 * 2 ^ 23), pkg := 4, baseTimeNs := 0,
    mgmtMac := 0#48, mgmtIpv4 := 0#32, mgmtIpv6 := 0#128,
    publishers := [], sessionKeys := [⟨5, 6, true, 0#16⟩], tenants := [], latWindow := 1000, stateVersions := [], compVersions := [] }

/-- The fuses of a package with the root key. -/
def keyed : Fuses := { State.reset.fuses with rootHash := [(77, false)] }

/-- A package released from reset with an image in each flash device. -/
def released (f0 f1 : Option BootImage) : State :=
  { State.reset with fuses := keyed, edge := { State.reset.edge with power := .released, pwrGood := true, rstN := true, flash0 := f0, flash1 := f1 } }

/-- Nothing fails. -/
def calmStart : StartEnv := ⟨[], [], true, true⟩

theorem hyp_StartUp : bootCheck (released (some (image0 3)) none) (some (image0 3)) = .ok ∧
    after (.startUp calmStart) (released (some (image0 3)) none) (fun t => decide (t.edge.power = .running ∧ t.tk.tick = 0 ∧ t.wn.image = 0 ∧
      t.wn.pkg = 4 ∧ ptValid (ptEntry t 0) = true)) = true ∧
    bootCheck (released none (some (image0 3))) none = .bootFlashError ∧
    after (.startUp calmStart) (released none (some (image0 3))) (fun t => decide (t.edge.power = .running ∧ t.wn.image = 1 ∧
      t.wn.primary = .bootFlashError)) = true ∧
    after (.startUp calmStart) (released none (some { image0 3 with sigValid := false })) (fun t => decide (t.edge.power = .service ∧
      t.wn.recovery = .bootSignatureInvalid)) = true ∧
    gives (.startUp calmStart) (onAt .step) (onAt .step) = true := by decide +kernel

theorem hyp_StartUp_failures :
    after (.startUp { calmStart with reread0 := false }) (released (some (image0 3)) (some (image0 3))) (fun t => decide
      (t.edge.power = .running ∧ t.wn.image = 1 ∧ t.wn.primary = .bootImageInvalid)) = true ∧
    after (.startUp { calmStart with deadDies := [3] }) (released (some (image0 3)) none) (fun t => decide
      (t.edge.power = .service ∧ t.wn.primary = .bootDieFailed)) = true ∧
    after (.startUp { calmStart with deadDevices := [9] }) (released (some (image0 3)) none) (fun t => decide
      (t.edge.power = .service ∧ t.wn.primary = .bootMemoryFailed)) = true := by decide +kernel

theorem hyp_SecurityVersionRises : (released (some (image0 64)) none).fuses.securityVersion < (image0 64).securityVersion ∧
    bootCheck (released (some (image0 64)) none) (some (image0 64)) = .ok ∧
    after (.startUp calmStart) (released (some (image0 64)) none) (fun t => decide (t.fuses.securityVersion = 64 ∧
      bootCheck t (some (image0 63)) = .bootVersionOld)) = true := by decide +kernel

/-- Boot service. -/
def service : State := { released none none with edge := { (released none none).edge with power := .service } }

theorem hyp_BootService : rootKnown service 77 = true ∧ rootKnown service 78 = false ∧ bootCheck service (some (image0 0)) = .ok ∧
    after (.bootService 78 .other) service (fun t => decide (t.out = [.authFailed .scAuthFailed])) = true ∧
    after (.bootService 77 (.readWn 0x0FFFF8 1)) service (fun t => decide (t.out.length = 1 ∧ t.edge = service.edge)) = true ∧
    after (.bootService 77 (.bulkWriteStaging 7 [5#8])) service (fun t => decide (t.mem = [(stagingKey 7, 5#8)])) = true ∧
    after (.bootService 77 (.flashWrite 1 (image0 0) true)) service (fun t => decide (t.edge.flash1 = some (image0 0) ∧
      t.edge.power = .service)) = true ∧
    after (.bootService 77 .reset) service (fun t => decide (t.edge.power = .released)) = true ∧
    after (.bootService 77 .other) service (fun t => decide (t.out = [.reply 0 0#32 .wnDenied []])) = true := by decide +kernel

/-- Ticks run on the image; the sessions `ss` are open. -/
def booted (ss : Tab Sess) (f : ScSt → ScSt) : State :=
  { onAt .step with
    fuses := keyed
    wn := { State.reset.wn with bootImage := some (image0 0) }
    sc := f { State.reset.sc with sessions := ss } }

theorem hyp_Messages_flash : heard (hdr 1 6 9#32 true) (booted [(1, sessP)] id) = true ∧
    bootCheck (booted [(1, sessP)] id) (some (image0 0)) = .ok ∧
    after (.flashWrite (hdr 1 6 9#32 true) 0 (image0 0) true) (booted [(1, sessP)] id) (fun t => decide
      (t.edge.flash0 = some (image0 0) ∧ t.edge.flash1 = none)) = true ∧
    after (.flashWrite (hdr 1 6 9#32 true) 1 (image0 0) false) (booted [(1, sessP)] id) (fun t => decide
      (t.out = [.reply 1 9#32 .flashWriteFailed []])) = true := by decide +kernel

theorem hyp_Messages_refused : bootCheck (booted [(1, sessP)] id) (some { image0 0 with sigValid := false }) ≠ .ok ∧
    after (.flashWrite (hdr 1 6 9#32 true) 0 { image0 0 with sigValid := false } true) (booted [(1, sessP)] id) (fun t => decide
      (t.out = [.reply 1 9#32 .flashWriteFailed []] ∧ t.edge.flash1 = none)) = true ∧
    after (.bulkWrite (hdr 2 6 9#32 true) (.region 0 7) 64 [5#8])
      { talk with sc := { talk.sc with sessions := [(2, { sessP with package := false, mask := 2#16 })] } }
      (fun t => decide (t.out = [.reply 2 9#32 .wnDenied []] ∧ t.mem = [])) = true := by decide +kernel

/-- Every session number is taken. -/
def allSessions : Tab Sess := (List.range 64).map fun i => (i + 1, sessP)

theorem hyp_SessionsAndAttestation_open : scServes (booted [] id) = true ∧ sessKey (booted [] id) 0 = some ⟨5, 6, true, 0#16⟩ ∧
    (freeSession (booted [] id)).isSome = true ∧ freeSession (booted allSessions id) = none ∧
    after (.hello 0 0) (booted [] id) (fun t => decide (t.sc.opening = [0])) = true ∧
    after (.hello 0 0) (booted allSessions id) (fun t => decide (t.out = [.authFailed .scSessionFull])) = true ∧
    after (.hello 0 0) (booted [] fun x => { x with authLocked := true }) (fun t => decide (t.out = [.authFailed .scAuthLocked])) = true ∧
    after (.prove 0 true) (booted [(1, sessP)] fun x => { x with opening := [0] }) (fun t => decide (t.out = [.accepted 2] ∧
      (tabFind 2 t.sc.sessions).map (·.package) = some true)) = true ∧
    after (.prove 0 false) (booted [] fun x => { x with opening := [0], failures := 7 }) (fun t => decide (t.sc.failures = 8 ∧
      t.sc.authLocked = true)) = true ∧
    after (.prove 0 false) (booted [] fun x => { x with opening := [0], failures := 6 }) (fun t => decide (t.sc.authLocked = false)) = true ∧
    after (.scSessionIdle 64) (booted allSessions id) (fun t => decide (tabFind 64 t.sc.sessions = none)) = true ∧
    after .scAuthLockEnd (booted [] fun x => { x with authLocked := true, failures := 8 }) (fun t => decide (t.sc.authLocked = false ∧
      t.sc.failures = 0)) = true := by decide +kernel

theorem hyp_SessionsAndAttestation_unlisted : sessKey (booted [] id) 1 = none ∧
    after (.hello 1 0) (booted [] id) (fun t => decide (t.sc.failures = 1 ∧ t.out = [.authFailed .scAuthFailed])) = true ∧
    after (.prove 1 true) (booted [] id) (fun t => decide (t.sc.failures = 1 ∧ t.sc.sessions = [])) = true := by decide +kernel

/-- A nonce. -/
def nonce0 : List Byte := List.replicate 48 1#8

/-- A package session, a buffer region of the application cores of rim die 0, and `n` waiting requests. -/
def attesting (n : Nat) : State :=
  { booted [(1, sessP)] (fun x => { x with attest := List.replicate n (16, 0, 7 * 2 ^ 40, nonce0) }) with
    mt := { State.reset.mt with regions := [(7, { region1 3 with owner := 56 })] } }

theorem hyp_SessionsAndAttestation_report : okIs (attestBuffer (attesting 0) 16 0 (7 * 2 ^ 40)) (7, 0) = true ∧
    attestRoom (attesting 15) 16 = true ∧ attestRoom (attesting 16) 16 = false ∧
    after (.scAttestReq (.session 1) (BitVec.ofNat 64 (7 * 2 ^ 40)) nonce0) (attesting 15) (fun t => decide (t.sc.attest.length = 16)) = true ∧
    after (.scAttestReq (.session 1) (BitVec.ofNat 64 (7 * 2 ^ 40)) nonce0) (attesting 16) (fun t => decide (t.sc.attest.length = 16 ∧
      t.wn.attestLast = .scBusy)) = true ∧
    after (.scAttestReq (.session 1) (BitVec.ofNat 64 (8 * 2 ^ 40)) nonce0) (attesting 0) (fun t => decide (t.sc.attest = [] ∧
      t.wn.attestLast = .mtAddrInvalid)) = true ∧
    (attesting 1).sc.attest = [(16, 0, 7 * 2 ^ 40, nonce0)] := by decide +kernel

/-- A hot-update image for component 5. -/
def hotImage (ok : Bool) : HotImage := ⟨0x44505548, 1, 5, 8, 100, 0, 1, 0, 3, true, 77, ok, true, 44⟩

/-- The update waits for tick 11. -/
def hotAt (faults : List Nat) : State :=
  { booted [(1, sessP)] id with
    tk := (onAt .drain).tk
    wn := { State.reset.wn with hot := some ⟨5, 11, hotImage true⟩, comps := [(5, ⟨0, 0, 0, faults, 0⟩)] } }

/-- The staged image's code. -/
def code0 : List Byte := [1#8, 2#8, 3#8, 4#8]

/-- A staged hot-update image for component 5: version 8, state versions 0 to 3, root key of zeros, and its code. -/
def stagedBytes0 : List Byte :=
  [0x48#8, 0x55#8, 0x50#8, 0x44#8, 1#8, 0#8, 5#8, 0#8, 8#8, 0#8, 0#8, 0#8, 4#8, 0#8, 0#8, 0#8] ++ List.replicate 10 0#8 ++ [0#8, 0#8, 3#8, 0#8] ++
    List.replicate 98 0#8 ++ sha384 code0 ++ List.replicate 80 0#8 ++ code0

/-- The image lies in the staging area, and the root key of zeros is one of the package's. -/
def stagedAt : State :=
  { booted [(1, sessP)] id with
    fuses := { State.reset.fuses with rootHash := [(beNat (sha384 (List.replicate 96 0#8)), false)] }
    mem := (stagedBytes0.zipIdx.filter fun e => decide (e.1 ≠ 0#8)).map fun e => (stagingKey e.2, e.1) }

theorem hyp_Components_hot : hotStatus stagedAt 5 12 (stagedHot true stagedAt) = .ok ∧
    hotStatus stagedAt 5 12 (stagedHot false stagedAt) = .hotImageInvalid ∧
    after (.wnHotReq (.session 1) (BitVec.ofNat 64 (5 + 12 * 256)) true) stagedAt (fun t => decide
      (t.wn.hot.map (·.tickAt) = some 12 ∧ t.wn.hot.map (·.image.version) = some 8)) = true := by decide +kernel

theorem hyp_Components_hot_refused :
    after (.wnHotReq (.session 1) (BitVec.ofNat 64 (5 + 12 * 256)) false) (booted [(1, sessP)] id) (fun t => decide
      (t.wn.hotLast = .hotImageInvalid ∧ t.wn.hot.isNone = true)) = true ∧
    after (.wnHotReq (.session 2) (BitVec.ofNat 64 (5 + 12 * 256)) true) (booted [(1, sessP), (2, { sessP with package := false, mask := 2#16 })] id) (fun t => decide
      (t.wn.hot.isNone = true)) = true := by decide +kernel

theorem hyp_Components_switch : afterWork (hotAt []) = true ∧
    after .hotSwitch (hotAt []) (fun t => decide ((getComp t 5).version = 8 ∧ (getComp t 5).digest = 44 ∧ t.wn.hot.isNone = true)) = true ∧
    after .hotSwitch (hotAt [10]) (fun t => decide ((getComp t 5).version = 0 ∧ t.wn.hotLast = .hotAborted)) = true := by decide +kernel

/-- Job 1 runs; component 5 has had the faults. -/
def compAt (faults : List Nat) : State := { jobAt 0 .step with wn := { State.reset.wn with comps := [(5, ⟨0, 0, 0, faults, 0⟩)] } }

theorem hyp_Components_fault : recentFaults 10 [8, 9] = [8, 9] ∧ recentFaults 4106 [10, 11] = [11] ∧
    after (.componentFault 5 0) (compAt [9]) (fun t => decide ((getComp t 5).state = 1 ∧ t.jobs = (compAt [9]).jobs)) = true ∧
    after (.componentFault 5 0) (compAt [8, 9]) (fun t => decide ((getComp t 5).state = 2 ∧
      (getJob t 1).any (·.ending.isSome) = true)) = true ∧
    (getCl (compAt []) 0).owner = some (0, 0, 1) ∧
    after (.componentFault 9 0) (compAt []) (fun t => decide ((getCl t 0).coreDown = true ∧ (getJob t 1).any (·.ending.isSome) = true)) = true := by
  decide +kernel

theorem hyp_Components_restart :
    after (.componentRestart 5 0) { jobAt 0 .drain with wn := { State.reset.wn with comps := [(5, ⟨1, 0, 0, [9], 0⟩)] } }
      (fun t => decide ((getComp t 5).state = 3)) = true ∧
    after (.componentRestart 9 3) { jobAt 0 .boundary with
        wn := { State.reset.wn with cores := [(3, ⟨1, 0, 0, [9], 0⟩)] }, mem := [(poolKey 3 77, 5#8), (poolKey 4 0, 6#8)] }
      (fun t => decide ((getCore t 3).state = 3 ∧ t.mem = [(poolKey 4 0, 6#8)])) = true := by decide +kernel

/-! ## Numbers -/

theorem test_bf16_subnormal : decElem 5 0x8001 = .fin true 0 0 ∧ decElem 6 0x8001 = .fin true 1 (-24) := by decide +kernel

theorem hyp_OneBitRounding : (0 < 8) ∧ roundRatio (.oneBit false) 9 8 = 1 ∧ roundRatio (.oneBit true) 10 8 = 2 ∧
    roundRatio (.oneBit false) 14 8 = 1 ∧ roundRatio (.oneBit false) 15 8 = 2 := by decide +kernel

/-! ## Ill-formed commands -/

theorem ill_requester : Who.ok (.cores 16) = false ∧ Who.ok (.session 0) = false ∧ Who.ok (.session 65) = false := by decide +kernel

theorem ill_slot : Slot.ok (.lane 8) = false ∧ Slot.ok (.eng 0) = false ∧ Slot.ok (.eng 9) = false ∧ Slot.ok (.tier 32) = false ∧
    Slot.ok (.coll 4) = false := by decide +kernel

theorem ill_target : BulkTarget.ok (.region 8 0) = false ∧ BulkTarget.ok (.region 0 256) = false := by decide +kernel

theorem ill_commands_1 : ([
    Instr.tkApplyAtArm (.cores 16) 0#64,
    Instr.tkApplyAtDisarm (.cores 16),
    Instr.regWrite (.cores 16) 0 0 0#64,
    Instr.runList 1792,
    Instr.cardPost 1792,
    Instr.cardRetire 1792 (.lane 0) false,
    Instr.cardRetire 0 (.lane 8) false,
    Instr.mv 1792 0 calm,
    Instr.mv 0 8 calm,
    Instr.mmN 1792 0 calm,
    Instr.mmN 0 8 calm,
    Instr.rv 1792 0 calm,
    Instr.rv 0 8 calm,
    Instr.op 1792 0 calm,
    Instr.op 0 8 calm,
    Instr.ckRetry 1792 0 calm,
    Instr.ckRetry 0 8 calm,
    Instr.ckRelief 1792 0 calm,
    Instr.ckRelief 0 8 calm,
    Instr.arithTestReq (.cores 16) 0,
    Instr.storeTestReq (.cores 16) 0,
    Instr.retrainReq (.cores 16) 0,
    Instr.linkCalReq (.cores 16) 0,
    Instr.arithTestPass 14336 ⟨[], false⟩,
    Instr.storeTestStep 14336 ⟨[], false⟩,
    Instr.retrain 128 false false,
    Instr.linkCal 256,
    Instr.testOutcomeApply 14336,
    Instr.unitRenumber 1792,
    Instr.unitRefill 14336].all fun c => !c.wellFormed) = true := by decide +kernel

theorem ill_commands_2 : ([
    Instr.unitRechecksum 14336 false,
    Instr.chainOpen 1792,
    Instr.chainAbort 1792,
    Instr.vectorCard 1792,
    Instr.vxSrn 1792 0 0 0,
    Instr.vxSrn 0 32 0 0,
    Instr.vxSrn 0 0 32 0,
    Instr.vxSrn 0 0 0 32,
    Instr.vxPack 1792 0 0 0,
    Instr.vxPack 0 32 0 0,
    Instr.vxPack 0 0 32 0,
    Instr.vxPack 0 0 0 32,
    Instr.vxUnpk 1792 0 0 0,
    Instr.vxUnpk 0 32 0 0,
    Instr.vxUnpk 0 0 32 0,
    Instr.vxUnpk 0 0 0 32,
    Instr.vxNorm 1792 0,
    Instr.vxNorm 0 32,
    Instr.transpose 1792,
    Instr.gather 1792,
    Instr.chkrow 1792,
    Instr.stat 1792,
    Instr.softmax 1792,
    Instr.rmsnorm 1792,
    Instr.layernorm 1792,
    Instr.act 1792,
    Instr.deriv 1792,
    Instr.merge 1792,
    Instr.reduce 1792,
    Instr.check 1792].all fun c => !c.wellFormed) = true := by decide +kernel

theorem ill_commands_3 : ([
    Instr.round 1792,
    Instr.quant 1792,
    Instr.finishCard 1792,
    Instr.tileSender 1792 false,
    Instr.append 1792,
    Instr.walk 1792,
    Instr.fill 1792,
    Instr.rgMask 1792,
    Instr.scan 1792,
    Instr.final 1792,
    Instr.gmInit 1792,
    Instr.gmMask 1792,
    Instr.advance 1792,
    Instr.stepDone 1792 false,
    Instr.move 1792 clean,
    Instr.accum 1792 clean,
    Instr.mtRemoteTimeout 1792 0,
    Instr.prefetchLand 1792 0 clean [] none,
    Instr.refreshSlot 128 [] [],
    Instr.regionZero 128,
    Instr.reqArrive 16 (card 0 0 0 0) 0,
    Instr.cancel 16 (card 0 0 0 0) false,
    Instr.reqAdmitTimeout 16 0,
    Instr.kvPageWaitLimit 65536,
    Instr.smTenantWrite (.cores 16) 0 0#128,
    Instr.smLatWindowWrite (.cores 16) 0#64,
    Instr.publish 1792,
    Instr.ctPublishStart 256,
    Instr.ctCapture 256 0,
    Instr.ctEntryReceive 256 0 false].all fun c => !c.wellFormed) = true := by decide +kernel

theorem ill_commands_4 : ([
    Instr.ctSwitchArm 256,
    Instr.ctSwitchBroadcast 256 0,
    Instr.ctPublishTimeout 256,
    Instr.ctLoadReq (.cores 16) 0#64,
    Instr.ctLoadComplete 16 false,
    Instr.stPush 1792 clean,
    Instr.stPop ⟨1792, clean⟩,
    Instr.stRead ⟨1792, clean⟩,
    Instr.teachDone 1792 false,
    Instr.expTake 1792,
    Instr.expAnnotate 16 0#64 0#64 0#64 0#64,
    Instr.teachTimeout 256 0,
    Instr.rewardTimeout 256 0,
    Instr.lsGet 1792 0 calm,
    Instr.lsGet 0 8 calm,
    Instr.lsPut 1792 0,
    Instr.lsPut 0 8,
    Instr.updDone 1792,
    Instr.normPost 1792 false,
    Instr.coll 1792,
    Instr.memReq 1024 tileHead 0 0#64,
    Instr.memReq 0 tileHead 8 0#64,
    Instr.memData 1792 0 0 [] none,
    Instr.sqTimeout 1792 0,
    Instr.sqFrameRx 256 (frameOf 0 0 true),
    Instr.sqAck 256 (frameOf 0 0 true),
    Instr.sqNak 256 (frameOf 0 0 true),
    Instr.sqRetransTimeout 256 false,
    Instr.sqPortUp 256,
    Instr.afterglowMsg 0 1024 0 0 0 [] false false].all fun c => !c.wellFormed) = true := by decide +kernel

theorem ill_commands_5 : ([
    Instr.afterglowMsg 0 0 64 0 0 [] false false,
    Instr.horizonMsg 4096 false 0 0 [],
    Instr.agCopyClose 0 64,
    Instr.agNarrowDone 0 64,
    Instr.preempt (.cores 16) 0,
    Instr.resume (.cores 16) 0,
    Instr.recover (.cores 16) 0 0,
    Instr.shrink (.cores 16) 0 0,
    Instr.exportImage (.cores 16) 0 0 0,
    Instr.hzObsRx 16 (gramOf 0),
    Instr.hzPost 1792 false,
    Instr.hzHoldLimit 4096,
    Instr.hzOpen (.cores 16) 0,
    Instr.hzClose (.cores 16) 0,
    Instr.hzActstoreWrite (.cores 16) 0 false 0 0#64,
    Instr.hzActstoreWrite (.cores 0) 4096 false 0 0#64,
    Instr.hzStreamWrite (.cores 16) 0 false 0 0#64,
    Instr.hzStreamWrite (.cores 0) 4096 false 0 0#64,
    Instr.hzNeighborReq 16 false 0#128,
    Instr.hzPortDown 16,
    Instr.create (.cores 16) 0,
    Instr.teardown (.cores 16) 0,
    Instr.jobEnd (.cores 16) 0,
    Instr.kill (.cores 16) 0,
    Instr.grant (.cores 16) 0 0 0,
    Instr.accept (.cores 16) 0 0 0,
    Instr.revoke (.cores 16) 0 0 0,
    Instr.ptGrantExpire 8 0 0,
    Instr.ptGrantExpire 0 256 0,
    Instr.ptGrantExpire 0 0 16].all fun c => !c.wellFormed) = true := by decide +kernel

theorem ill_commands_6 : ([
    Instr.ptViewWrite (.cores 16) 0#64,
    Instr.wnJobSubmit (.cores 16) 0#64,
    Instr.jobAdmit 17,
    Instr.dieFault 64,
    Instr.scAttestReq (.cores 16) 0#64 [],
    Instr.scSessionIdle 0,
    Instr.scSessionIdle 65,
    Instr.bulkWrite (hdr 1 1 0#32 true) (.region 8 0) 0 [],
    Instr.bulkRead (hdr 1 1 0#32 true) (.region 8 0) 0 0,
    Instr.logRead (hdr 1 1 0#32 true) 256 0 0,
    Instr.flashWrite (hdr 1 1 0#32 true) 2 (image0 0) false,
    Instr.wnPkgWrite (.cores 16) 0#64,
    Instr.wnHotReq (.cores 16) 0#64 true,
    Instr.componentFault 0 0,
    Instr.componentFault 10 0,
    Instr.componentRestart 0 0,
    Instr.componentRestart 10 0,
    Instr.hazeEnter 1792 0,
    Instr.hazeEnter 0 8,
    Instr.mistEnter 1792,
    Instr.pmSleep 1792,
    Instr.pmSleepApply 1792,
    Instr.pmWake 1792,
    Instr.thermalTrip 64 0,
    Instr.envPortLinkUp 16,
    Instr.regRead (.cores 16) 0 0].all fun c => !c.wellFormed) = true := by decide +kernel

end Sys2Proof.Tests
end

