-- ==== Sys2Proof/Proofs/DieFault.lean ====
section
/-!
Containment of a die fault (R34). DIE_FAULT decides the end of a list of jobs; the first cause of an end stands (R402), so deciding
it twice is deciding it once, and what becomes of a job depends only on whether the list holds it.
-/

namespace Sys2Proof.Machine

/-! ## The end of a job, decided -/

/-- A job with its end decided as `e` with status `st`, unless it had one (R402). -/
def Job.decided (e : JobEnd) (st : Status) (x : Job) : Job :=
  { x with ending := if x.ending = none then some (e, st) else x.ending }

theorem Job.decided_eq_ite (e : JobEnd) (st : Status) (x : Job) :
    x.decided e st = if x.ending = none then { x with ending := some (e, st) } else x := by
  unfold Job.decided
  split <;> rfl

@[simp] theorem Job.decided_decided (e : JobEnd) (st : Status) (x : Job) : (x.decided e st).decided e st = x.decided e st := by
  by_cases h : x.ending = none <;> simp [Job.decided, h]

theorem decideEnd_eq_modJob (j : Nat) (e : JobEnd) (st : Status) (s : State) :
    decideEnd j e st s = modJob j (Job.decided e st) s := by
  rw [decideEnd, funext (Job.decided_eq_ite e st)]

theorem modJob_of_getJob_none {j : Nat} {s : State} (f : Job → Job) (h : getJob s j = none) : modJob j f s = s := by
  rw [modJob, h]

theorem modJob_eq (j : Nat) (f : Job → Job) (s : State) : ∃ js, modJob j f s = { s with jobs := js } := by
  unfold modJob
  split
  · exact ⟨_, rfl⟩
  · exact ⟨s.jobs, rfl⟩

theorem getJob_decideEnd_self (j : Nat) (e : JobEnd) (st : Status) (s : State) :
    getJob (decideEnd j e st s) j = (getJob s j).map (Job.decided e st) := by
  rw [decideEnd_eq_modJob]
  cases h : getJob s j with
  | none => rw [modJob_of_getJob_none _ h, h, Option.map_none]
  | some x => rw [getJob_modJob_self _ h, Option.map_some]

theorem getJob_decideEnd_ne {j k : Nat} (e : JobEnd) (st : Status) (s : State) (h : k ≠ j) :
    getJob (decideEnd j e st s) k = getJob s k := getJob_modJob_ne _ s h

/-! ## The ends of a list of jobs, decided -/

theorem forEach_decideEnd_eq (e : JobEnd) (st : Status) (l : List Nat) (s : State) :
    ∃ js, forEach l (fun j t => decideEnd j e st t) s = { s with jobs := js } := by
  refine forEach_inv (fun t => ∃ js, t = { s with jobs := js }) _ ?_ l ⟨s.jobs, rfl⟩
  rintro j _ ⟨js, rfl⟩
  exact modJob_eq ..

/-- A job that the list holds more than once is decided once. -/
theorem getJob_forEach_decideEnd (e : JobEnd) (st : Status) (k : Nat) : ∀ (l : List Nat) (s : State),
    getJob (forEach l (fun j t => decideEnd j e st t) s) k =
      if k ∈ l then (getJob s k).map (Job.decided e st) else getJob s k
  | [], s => by simp
  | j :: l, s => by
    rw [forEach_cons, getJob_forEach_decideEnd e st k l]
    by_cases hk : k = j
    · subst hk
      simp [getJob_decideEnd_self, Function.comp_def]
    · simp [hk, getJob_decideEnd_ne e st s hk]

/-! ## The jobs of a die -/

/-- The job has a cluster on the die. -/
def Job.onDie (die : Nat) (x : Job) : Bool := x.clusters.any fun c => decide (clDie c.1 = die)

/-- The handles of the jobs with a cluster on the die. -/
def dieJobs (die : Nat) (s : State) : List Nat :=
  (s.jobs.map (·.1)).filter fun j => ((getJob s j).map (Job.onDie die)).getD false

theorem dieFault_eq_forEach (die : Nat) (s : State) :
    dieFault die s = forEach (dieJobs die s) (fun j t => decideEnd j .tornDown .tornDown t) s := rfl

theorem mem_keys_of_tabFind {α : Type} {k : Nat} {v : α} : {t : Tab α} → tabFind k t = some v → k ∈ t.map (·.1)
  | (j, w) :: t, h => by
    by_cases hj : j = k
    · simp [hj]
    · have ht : tabFind k t = some v := by simpa [tabFind, hj] using h
      exact List.mem_cons_of_mem _ (mem_keys_of_tabFind ht)

theorem mem_dieJobs_iff {die j : Nat} {x : Job} {s : State} (h : getJob s j = some x) :
    j ∈ dieJobs die s ↔ x.onDie die = true := by
  have hkey : j ∈ s.jobs.map (·.1) := mem_keys_of_tabFind h
  simp only [dieJobs, List.mem_filter, hkey, h, Option.map_some, Option.getD_some, true_and]

/-! ## What DIE_FAULT does -/

/-- It writes nothing but the jobs. -/
theorem dieFault_frame (die : Nat) (s : State) : ∃ js, dieFault die s = { s with jobs := js } :=
  forEach_decideEnd_eq ..

theorem getJob_dieFault_onDie {die j : Nat} {x : Job} {s : State} (h : getJob s j = some x) (hd : x.onDie die = true) :
    getJob (dieFault die s) j = some (x.decided .tornDown .tornDown) := by
  rw [dieFault_eq_forEach, getJob_forEach_decideEnd, if_pos ((mem_dieJobs_iff h).mpr hd), h, Option.map_some]

theorem getJob_dieFault_offDie {die j : Nat} {x : Job} {s : State} (h : getJob s j = some x) (hd : x.onDie die = false) :
    getJob (dieFault die s) j = some x := by
  have hmem : j ∉ dieJobs die s := by simp [mem_dieJobs_iff h, hd]
  rw [dieFault_eq_forEach, getJob_forEach_decideEnd, if_neg hmem, h]

theorem getJob_dieFault_none {die j : Nat} {s : State} (h : getJob s j = none) : getJob (dieFault die s) j = none := by
  rw [dieFault_eq_forEach, getJob_forEach_decideEnd, h, Option.map_none, ite_self]

theorem exec_dieFault_on {s : State} (die : Nat) (h : On s) : exec (.dieFault die) s = .next (dieFault die s) := by
  obtain ⟨js, hfault⟩ := dieFault_frame die s
  calc exec (.dieFault die) s = running s (dieFault die) := rfl
    _ = .next { dieFault die s with pending := s.pending } := running_on _ h
    _ = .next (dieFault die s) := by rw [hfault]

/-- Settles O51: the fault decides the end of each job with a cluster on the die, of no other job, and writes no other field. -/
theorem dieFaultContained : Obligations.DieFaultContained := by
  intro s die hon
  refine ⟨dieFault die s, exec_dieFault_on die hon, ?_, fun j => ⟨?_, ?_, getJob_dieFault_none⟩⟩
  · obtain ⟨js, hfault⟩ := dieFault_frame die s
    rw [hfault]
  · exact fun x hx hd => getJob_dieFault_onDie hx hd
  · exact fun x hx hd => getJob_dieFault_offDie hx hd

end Sys2Proof.Machine
end

