-- ==== Sys2Proof/Proofs/Subnormals.lean ====
section
/-!
Element codes whose exponent field is 0 (R50, R52). Such a code is its sign bit and a fraction that reaches none of the bits
above it, so its three fields read back as the sign, 0 and the fraction, and the decoder takes its subnormal branch.
-/

namespace Sys2Proof.Machine

/-! ## The fields of a code of `M` fractions, `E` exponents and a sign -/

theorem signField_subnormal {M E sg f : Nat} (hE : 0 < E) (hsg : sg < 2) (hf : f < M) : (M * E * sg + f) / (M * E) % 2 = sg := by
  have hlow : f < M * E := Nat.lt_of_lt_of_le hf (Nat.le_mul_of_pos_right M hE)
  rw [Nat.mul_add_div (by omega), Nat.div_eq_of_lt hlow, Nat.add_zero, Nat.mod_eq_of_lt hsg]

theorem exponentField_subnormal {M E sg f : Nat} (hf : f < M) : (M * E * sg + f) / M % E = 0 := by
  rw [Nat.mul_assoc, Nat.mul_add_div (by omega), Nat.div_eq_of_lt hf, Nat.add_zero, Nat.mul_mod_right]

theorem fractionField_subnormal {M E sg f : Nat} (hf : f < M) : (M * E * sg + f) % M = f := by
  rw [Nat.mul_assoc, Nat.mul_add_mod, Nat.mod_eq_of_lt hf]

/-! ## Formats that honour subnormals -/

/-- The exponent is that of the smallest normal value, so a subnormal code is exact. -/
theorem decIeee_subnormal {eb mb sg f : Nat} (heb : eb ≠ 0) (hsg : sg < 2) (hf : f < 2 ^ mb) :
    decIeee eb mb (2 ^ mb * 2 ^ eb * sg + f) = .fin (sg == 1) f (1 - (2 ^ (eb - 1) - 1) - mb) := by
  have hspecial : 0 ≠ 2 ^ eb - 1 := by
    have := Nat.one_lt_two_pow heb
    omega
  have hwidth : 2 ^ (eb + mb) = 2 ^ mb * 2 ^ eb := by rw [Nat.add_comm, Nat.pow_add]
  simp only [decIeee, hwidth, signField_subnormal (Nat.two_pow_pos eb) hsg hf, exponentField_subnormal hf,
    fractionField_subnormal hf, if_neg hspecial, if_true]

theorem decElem_bf4_subnormal {sg f : Nat} (hsg : sg < 2) (hf : f < 2) : decElem 0 (8 * sg + f) = .fin (sg == 1) f (-1) := by
  have hs : (8 * sg + f) / 8 % 2 = sg := signField_subnormal (M := 2) (E := 4) (by decide) hsg hf
  have he : (8 * sg + f) / 2 % 4 = 0 := exponentField_subnormal (M := 2) (E := 4) hf
  have hm : (8 * sg + f) % 2 = f := fractionField_subnormal (M := 2) (E := 4) hf
  simp only [decElem, hs, he, hm, if_true]

/-- E4M3 has one NaN of each sign and no infinity; its NaN is no subnormal code. -/
theorem decElem_e4m3_subnormal {sg f : Nat} (hsg : sg < 2) (hf : f < 8) :
    decElem 2 (128 * sg + f) = .fin (sg == 1) f (-9) := by
  have hs : (128 * sg + f) / 128 % 2 = sg := signField_subnormal (M := 8) (E := 16) (by decide) hsg hf
  have he : (128 * sg + f) / 8 % 16 = 0 := exponentField_subnormal (M := 8) (E := 16) hf
  have hm : (128 * sg + f) % 8 = f := fractionField_subnormal (M := 8) (E := 16) hf
  have hnan : (128 * sg + f) % 128 ≠ 127 := by omega
  simp only [decElem, hs, he, hm, if_neg hnan, if_true]

theorem decElem_e5m2_subnormal {sg f : Nat} (hsg : sg < 2) (hf : f < 4) :
    decElem 3 (128 * sg + f) = .fin (sg == 1) f (-16) :=
  decIeee_subnormal (eb := 5) (mb := 2) (by decide) hsg hf

theorem decElem_fp16_subnormal {sg f : Nat} (hsg : sg < 2) (hf : f < 1024) :
    decElem 6 (32768 * sg + f) = .fin (sg == 1) f (-24) :=
  decIeee_subnormal (eb := 5) (mb := 10) (by decide) hsg hf

theorem decElem_fp32_subnormal {sg f : Nat} (hsg : sg < 2) (hf : f < 2 ^ 23) :
    decElem 7 (2 ^ 31 * sg + f) = .fin (sg == 1) f (-149) :=
  decIeee_subnormal (eb := 8) (mb := 23) (by decide) hsg hf

/-! ## BF16, which flushes them -/

theorem decElem_bf16_flushed {sg f : Nat} (hsg : sg < 2) (hf : f < 128) : decElem 5 (32768 * sg + f) = .fin (sg == 1) 0 0 := by
  have hs : (32768 * sg + f) / 32768 % 2 = sg := signField_subnormal (M := 128) (E := 256) (by decide) hsg hf
  have he : (32768 * sg + f) / 128 % 256 = 0 := exponentField_subnormal (M := 128) (E := 256) hf
  simp only [decElem, hs, he, if_true]

/-- Settles O59, format by format: five keep the fraction of a code whose exponent field is 0, BF16 drops it. -/
theorem subnormalInputs : Obligations.SubnormalInputs :=
  ⟨fun _ _ => decElem_bf4_subnormal, fun _ _ => decElem_e4m3_subnormal, fun _ _ => decElem_e5m2_subnormal,
    fun _ _ => decElem_fp16_subnormal, fun _ _ => decElem_fp32_subnormal, fun _ _ => decElem_bf16_flushed⟩

end Sys2Proof.Machine
end

