-- ==== Sys2Proof/Proofs/HoldFrame.lean ====
section
/-!
What the hold limit of a stream rests on (R379), and that the work of a boundary keeps it until the streams' turn comes: the stream's
state, partition and hold run, the rights of the sessions, and the tick. `HoldFrame i s t` says so of a change from `s` to `t`;
each operation that a boundary is made of has a lemma `HoldFrame s t → HoldFrame s (operation t)`, so that the frame of a
composite is read off its definition.
-/

namespace Sys2Proof.Machine

/-! ## Tables, lists and streams -/

theorem tabFind_tabMap {α : Type} (f : Nat → α → α) (k : Nat) : (l : Tab α) → tabFind k (tabMap f l) = (tabFind k l).map (f k)
  | [] => rfl
  | (j, v) :: l => by
    by_cases hj : j = k
    · simp [tabMap, tabFind, hj]
    · simpa [tabMap, tabFind, hj] using tabFind_tabMap f k l

/-- Where the step of `a` turns `P` into `Q`, every other step keeps `P`, and `Q` stays, work for each element of a list with `a`
ends in `Q`. -/
theorem forEach_of_mem {α : Type} {P Q : State → Prop} {f : α → State → State} {a : α} {l : List α}
    (hP : ∀ b t, b ≠ a → P t → P (f b t)) (hPQ : ∀ t, P t → Q (f a t)) (hQ : ∀ b t, Q t → Q (f b t)) (ha : a ∈ l)
    {s : State} (hs : P s) : Q (forEach l f s) := by
  induction l generalizing s with
  | nil => cases ha
  | cons b l ih =>
    rw [forEach_cons]
    by_cases hb : b = a
    · subst hb
      exact forEach_inv Q f hQ l (hPQ s hs)
    · exact ih ((List.mem_cons.mp ha).resolve_left (Ne.symm hb)) (hP b s hb hs)

theorem getStream_modStream_self {i : Nat} {s : State} {f : Stream → Stream} (hi : i < 4096) :
    getStream (modStream i f s) i = f (getStream s i) := by
  simp [modStream, hi, getStream]

theorem getStream_modStream_ne {i k : Nat} {s : State} {f : Stream → Stream} (hk : i ≠ k) :
    getStream (modStream k f s) i = getStream s i := by
  unfold modStream
  split
  · exact tabGet_tabIns_ne streamReset s.streams _ hk
  · rfl

theorem modStream_eq (k : Nat) (f : Stream → Stream) (s : State) : ∃ a, modStream k f s = { s with streams := a } := by
  unfold modStream
  split
  · exact ⟨_, rfl⟩
  · exact ⟨s.streams, rfl⟩

theorem modStream_out {k : Nat} {s : State} {f : Stream → Stream} : (modStream k f s).out = s.out := by
  obtain ⟨a, e⟩ := modStream_eq k f s
  rw [e]

theorem modStream_tick {k : Nat} {s : State} {f : Stream → Stream} : (modStream k f s).tk.tick = s.tk.tick := by
  obtain ⟨a, e⟩ := modStream_eq k f s
  rw [e]

/-! ## The frame -/

/-- What HOLD_LIMIT reads of a stream, and whether its last frame has been sent (R379, R380). -/
structure HoldView where
  state : HzState
  part : Nat
  holdLimit : Nat
  holdRun : Nat
  limitDue : Bool
  finalSent : Bool

def Stream.holdView (x : Stream) : HoldView := ⟨x.state, x.part, x.holdLimit, x.holdRun, x.limitDue, x.finalSent⟩

/-- What decides which events a session sees (R394). -/
def Sess.rights (x : Sess) : Bool × BitVec 16 := (x.package, x.mask)

/-- From `s` to `t`, HOLD_LIMIT of stream `i`, the sessions' rights and the tick are as they were, and what has left stays. -/
structure HoldFrame (i : Nat) (s t : State) : Prop where
  stream : (getStream t i).holdView = (getStream s i).holdView
  rights : ∀ n, (tabFind n t.sc.sessions).map Sess.rights = (tabFind n s.sc.sessions).map Sess.rights
  tick : t.tk.tick = s.tk.tick
  out : s.out ⊆ t.out

/-- The fields that the frame speaks of. -/
def State.holdParts (s : State) : Tab Stream × ScSt × Nat × List Out := (s.streams, s.sc, s.tk.tick, s.out)

section
variable {i j g q cl ch n p id k rd die pkg detail : Nat} {st : Status} {s t u : State}

theorem HoldFrame.refl (s : State) : HoldFrame i s s := ⟨rfl, fun _ => rfl, rfl, List.Subset.refl _⟩

theorem HoldFrame.trans (h : HoldFrame i s t) (k : HoldFrame i t u) : HoldFrame i s u :=
  ⟨k.stream.trans h.stream, fun n => (k.rights n).trans (h.rights n), k.tick.trans h.tick, List.Subset.trans h.out k.out⟩

/-- An update of other fields. -/
theorem HoldFrame.others (h : HoldFrame i s t) (e : u.holdParts = t.holdParts) : HoldFrame i s u := by
  simp only [State.holdParts, Prod.mk.injEq] at e
  obtain ⟨hstreams, hsc, htick, hout⟩ := e
  refine h.trans ⟨?_, fun n => ?_, htick, ?_⟩
  · rw [getStream, getStream, hstreams]
  · rw [hsc]
  · rw [hout]
    exact List.Subset.refl _

theorem HoldFrame.ite {c : Prop} [Decidable c] (ht : HoldFrame i s t) (hu : HoldFrame i s u) :
    HoldFrame i s (if c then t else u) := by
  split
  · exact ht
  · exact hu

theorem HoldFrame.forEach {α : Type} {l : List α} {f : α → State → State} (h : HoldFrame i s t)
    (hf : ∀ a u, HoldFrame i s u → HoldFrame i s (f a u)) : HoldFrame i s (forEach l f t) :=
  forEach_inv (HoldFrame i s) f hf l h

/-! ## What it keeps -/

theorem HoldFrame.state (h : HoldFrame i s t) : (getStream t i).state = (getStream s i).state := congrArg HoldView.state h.stream

theorem HoldFrame.part (h : HoldFrame i s t) : (getStream t i).part = (getStream s i).part := congrArg HoldView.part h.stream

theorem HoldFrame.limitDue (h : HoldFrame i s t) : (getStream t i).limitDue = (getStream s i).limitDue :=
  congrArg HoldView.limitDue h.stream

theorem HoldFrame.finalSent (h : HoldFrame i s t) : (getStream t i).finalSent = (getStream s i).finalSent :=
  congrArg HoldView.finalSent h.stream

theorem HoldFrame.limitReached (h : HoldFrame i s t) : limitReached (getStream t i) = limitReached (getStream s i) := by
  have hlimit : (getStream t i).holdLimit = (getStream s i).holdLimit := congrArg HoldView.holdLimit h.stream
  have hrun : (getStream t i).holdRun = (getStream s i).holdRun := congrArg HoldView.holdRun h.stream
  rw [Machine.limitReached, Machine.limitReached, h.state, hlimit, hrun]

/-! ## The state's own operations -/

theorem HoldFrame.setUnit {x : UnitSt} (h : HoldFrame i s t) : HoldFrame i s (setUnit k x t) := h.others rfl
theorem HoldFrame.modUnit {f : UnitSt → UnitSt} (h : HoldFrame i s t) : HoldFrame i s (modUnit k f t) := h.others rfl
theorem HoldFrame.modCl {f : Cluster → Cluster} (h : HoldFrame i s t) : HoldFrame i s (modCl cl f t) := h.others rfl
theorem HoldFrame.modChan {f : Chan → Chan} (h : HoldFrame i s t) : HoldFrame i s (modChan ch f t) := h.others rfl
theorem HoldFrame.modPart {f : PartSt → PartSt} (h : HoldFrame i s t) : HoldFrame i s (modPart p f t) := h.others rfl
theorem HoldFrame.modPort {f : Port → Port} (h : HoldFrame i s t) : HoldFrame i s (modPort n f t) := h.others rfl
theorem HoldFrame.modReq {f : Req → Req} (h : HoldFrame i s t) : HoldFrame i s (modReq p id f t) := h.others rfl
theorem HoldFrame.modTenant {f : Tenant → Tenant} (h : HoldFrame i s t) : HoldFrame i s (modTenant n f t) := h.others rfl
theorem HoldFrame.setPage {x : Page} (h : HoldFrame i s t) : HoldFrame i s (setPage p x t) := h.others rfl
theorem HoldFrame.putMem {ws : List (Nat × Byte)} (h : HoldFrame i s t) : HoldFrame i s (putMem ws t) := h.others rfl
theorem HoldFrame.zeroMem (h : HoldFrame i s t) : HoldFrame i s (zeroMem k n t) := h.others rfl

theorem HoldFrame.modJob {f : Job → Job} (h : HoldFrame i s t) : HoldFrame i s (modJob j f t) := by
  obtain ⟨_, e⟩ := modJob_eq j f t
  rw [e]
  exact h.others rfl

theorem HoldFrame.modCtx {f : Ctx → Ctx} (h : HoldFrame i s t) : HoldFrame i s (modCtx n f t) := by
  unfold Machine.modCtx
  split
  · exact h.others rfl
  · exact h

theorem HoldFrame.modAg {f : AgCtx → AgCtx} (h : HoldFrame i s t) : HoldFrame i s (modAg n f t) := by
  unfold Machine.modAg
  split
  · exact h.others rfl
  · exact h

theorem HoldFrame.modRing {f : ExpRing → ExpRing} (h : HoldFrame i s t) : HoldFrame i s (modRing n f t) := by
  unfold Machine.modRing
  split
  · exact h.others rfl
  · exact h

theorem HoldFrame.modNode {f : Node → Node} (h : HoldFrame i s t) : HoldFrame i s (modNode n f t) := by
  unfold Machine.modNode
  split
  · exact h.others rfl
  · exact h

theorem HoldFrame.modJobAg {f : AgCtx → AgCtx} (h : HoldFrame i s t) : HoldFrame i s (modJobAg j f t) := by
  unfold Machine.modJobAg
  split
  · exact h.modAg
  · exact h

theorem HoldFrame.modAgDie {f : AgDie → AgDie} (h : HoldFrame i s t) : HoldFrame i s (modAgDie j die f t) := h.modJobAg
theorem HoldFrame.modGroup {f : SqGroup → SqGroup} (h : HoldFrame i s t) : HoldFrame i s (modGroup j g f t) := h.modJob
theorem HoldFrame.modUpd {f : UpdSt → UpdSt} (h : HoldFrame i s t) : HoldFrame i s (modUpd j f t) := h.modJob
theorem HoldFrame.modGen {f : GenSt → GenSt} (h : HoldFrame i s t) : HoldFrame i s (modGen j f t) := h.modJob
theorem HoldFrame.modLearn {f : LearnSt → LearnSt} (h : HoldFrame i s t) : HoldFrame i s (modLearn j f t) := h.modJob
theorem HoldFrame.spoil (h : HoldFrame i s t) : HoldFrame i s (spoil j k t) := h.modJob
theorem HoldFrame.decideEnd {e : JobEnd} (h : HoldFrame i s t) : HoldFrame i s (decideEnd j e st t) := h.modJob
theorem HoldFrame.faultJob (h : HoldFrame i s t) : HoldFrame i s (faultJob j st t) := h.decideEnd

theorem HoldFrame.modView {f : PartSt → PartSt} {f' : WnSt → WnSt} (h : HoldFrame i s t) : HoldFrame i s (modView n f f' t) := by
  obtain ⟨_, _, e⟩ := modView_eq n f f' t
  rw [e]
  exact h.others rfl

theorem HoldFrame.bumpBy {c : Ctr} (h : HoldFrame i s t) : HoldFrame i s (bumpBy c k n t) := by
  obtain ⟨_, _, e⟩ := bumpBy_eq c k n t
  rw [e]
  exact h.others rfl

theorem HoldFrame.bump {c : Ctr} (h : HoldFrame i s t) : HoldFrame i s (bump c k t) := h.bumpBy

theorem HoldFrame.emit {o : Out} (h : HoldFrame i s t) : HoldFrame i s (emit o t) :=
  h.trans ⟨rfl, fun _ => rfl, rfl, List.subset_append_left ..⟩

theorem HoldFrame.sameTk {f : State → State} (h : HoldFrame i s t) (hf : ∀ u, HoldFrame i s u → HoldFrame i s (f u)) :
    HoldFrame i s (sameTk f t) := by
  obtain ⟨hstream, hrights, -, hout⟩ := hf t h
  exact ⟨hstream, hrights, h.tick, hout⟩

/-! ## Events (R431) -/

/-- A session put back with the same rights. -/
theorem HoldFrame.putSession {x y : Sess} (h : HoldFrame i s t) (hx : tabFind n t.sc.sessions = some x) (hy : y.rights = x.rights) :
    HoldFrame i s { t with sc := { t.sc with sessions := tabIns n y t.sc.sessions } } := by
  refine h.trans ⟨rfl, fun m => ?_, rfl, List.Subset.refl _⟩
  by_cases hm : m = n
  · subst hm
    simp [hx, hy]
  · simp [tabFind_tabIns_ne y hm]

theorem HoldFrame.pushEvent (h : HoldFrame i s t) : HoldFrame i s (pushEvent n st p detail t) := by
  unfold Machine.pushEvent
  split
  · exact h
  · next x hx => exact HoldFrame.emit (h.putSession hx rfl)

theorem HoldFrame.deliver (h : HoldFrame i s t) : HoldFrame i s (deliver n st p detail t) := by
  unfold Machine.deliver
  split
  · exact h
  · next x hx => exact .ite h.pushEvent (HoldFrame.pushEvent (HoldFrame.pushEvent (h.putSession hx rfl)))

theorem HoldFrame.raise (h : HoldFrame i s t) : HoldFrame i s (raise st p detail t) :=
  h.forEach fun _ _ h => .ite h.deliver h

/-! ## Cards and chains -/

theorem HoldFrame.complete {c : Card} {r : Report} (h : HoldFrame i s t) : HoldFrame i s (complete cl c r t) :=
  .ite h.putMem h

theorem HoldFrame.retireUnrun {x : QCard} (h : HoldFrame i s t) : HoldFrame i s (retireUnrun cl x st t) := by
  obtain ⟨_, _, e⟩ := retireUnrun_eq cl x st t
  rw [e]
  exact h.others rfl

theorem HoldFrame.dropUse {cause : AbortCause} (h : HoldFrame i s t) : HoldFrame i s (dropUse cl ch k cause t) := by
  obtain ⟨_, _, e⟩ := dropUse_eq cl ch k cause t
  rw [e]
  exact h.others rfl

theorem HoldFrame.settleCard {x : QCard} {r : Report} (h : HoldFrame i s t) : HoldFrame i s (settleCard cl x r t) := by
  obtain ⟨_, _, _, e⟩ := settleCard_eq cl x r t
  rw [e]
  exact h.others rfl

/-! ## Messages to other packages (R320 to R325) -/

theorem HoldFrame.pushFrame {flow v : Nat} {flits : List (List Byte)} (h : HoldFrame i s t) :
    HoldFrame i s (pushFrame n pkg flow v flits t) := h.modPort.emit

theorem HoldFrame.pushFrames {flow v : Nat} {flits : List (List Byte)} (h : HoldFrame i s t) :
    HoldFrame i s (pushFrames k n pkg flow v flits t) := by
  induction k generalizing flits t with
  | zero => exact h
  | succ k ih => exact .ite h (ih h.pushFrame)

theorem HoldFrame.sendPart {flow v : Nat} {flits : List (List Byte)} (h : HoldFrame i s t) :
    HoldFrame i s (sendPart pkg flow v flits t).2 := by
  unfold Machine.sendPart
  split
  · exact h
  · exact h.pushFrames

theorem HoldFrame.sendOut {w : Waiting} (h : HoldFrame i s t) : HoldFrame i s (sendOut w t) :=
  .ite (h.others rfl) (.ite h.sendPart.emit (h.sendPart.others rfl))

theorem HoldFrame.sendCtrlOut {src dst : Nat} {hd : Head} {o : Out} (h : HoldFrame i s t) :
    HoldFrame i s (sendCtrlOut pkg src dst hd o t) := HoldFrame.sendOut (h.others rfl)

theorem HoldFrame.sendCtrl {m : CtrlMsg} (h : HoldFrame i s t) : HoldFrame i s (sendCtrl pkg m t) := h.sendCtrlOut

theorem HoldFrame.sendRoot {hd : Head} {o : Out} (h : HoldFrame i s t) : HoldFrame i s (sendRoot pkg hd o t) := h.sendCtrlOut

theorem HoldFrame.castCtrl {m : CtrlMsg} (h : HoldFrame i s t) : HoldFrame i s (castCtrl j m t) :=
  h.forEach fun _ _ h => h.sendCtrl

theorem HoldFrame.sendMsg {type cls src dst : Nat} {hd : Head} {data : List Byte} (h : HoldFrame i s t) :
    HoldFrame i s (sendMsg pkg type cls src dst hd data t) := h.forEach fun _ _ h => h.sendOut

/-! ## Collectives that fall (R334, R335) -/

theorem HoldFrame.dropColl (h : HoldFrame i s t) : HoldFrame i s (dropColl j g q t) := h.others rfl

theorem HoldFrame.spoilAbort (h : HoldFrame i s t) : HoldFrame i s (spoilAbort j t) := by
  unfold Machine.spoilAbort
  split
  · exact h
  · exact .ite h.faultJob h.spoil.modJob

theorem HoldFrame.endColl (h : HoldFrame i s t) : HoldFrame i s (endColl cl k t) := by
  unfold Machine.endColl
  split
  · exact h
  · exact h.modCl.settleCard

theorem HoldFrame.dropNorm (h : HoldFrame i s t) : HoldFrame i s (dropNorm j t) := by
  unfold Machine.dropNorm
  split
  · exact h
  · exact h.modUpd.forEach fun _ _ h => .ite h h.dropUse

theorem HoldFrame.abortHere (h : HoldFrame i s t) : HoldFrame i s (abortHere j g q st t) := by
  unfold Machine.abortHere
  split
  · exact h
  · have hdrop := (h.modGroup (j := j) (g := g) (f := fun y => { y with aborted := setIns q y.aborted })).dropColl
      (j := j) (g := g) (q := q)
    refine .ite h (HoldFrame.modPart (.ite hdrop.dropNorm (hdrop.forEach fun m u hu => ?_))).bump.raise.spoilAbort
    split
    · exact hu.endColl
    · exact hu

theorem HoldFrame.abortColl (h : HoldFrame i s t) : HoldFrame i s (abortColl j g q st t) :=
  HoldFrame.abortHere (h.forEach fun _ _ h => h.sendRoot)

theorem HoldFrame.fellN (h : HoldFrame i s t) : HoldFrame i s (fellN k t) := by
  induction k generalizing t with
  | zero => exact h
  | succ k ih =>
    unfold Machine.fellN
    split
    · exact h
    · exact ih h.abortColl

theorem HoldFrame.abortUse {cause : AbortCause} (h : HoldFrame i s t) : HoldFrame i s (abortUse cl ch k cause t) :=
  h.dropUse.fellN

theorem HoldFrame.beginAbort (h : HoldFrame i s t) : HoldFrame i s (beginAbort j g q st t) := h.abortColl.fellN

theorem HoldFrame.sweepColls (h : HoldFrame i s t) : HoldFrame i s (sweepColls t) := h.forEach fun _ _ h => h.beginAbort

end

end Sys2Proof.Machine
end

