-- ==== Sys2Proof/Proofs/HoldFrameParts.lean ====
section
/-!
The hold frame of what a boundary does before the streams' turn and after it (R31): seals, cuts, ends of jobs, teardown, creation,
bank switches, the release of slots and the audit, generation's and maintenance's own work, and Afterglow's holds and releases.
-/

namespace Sys2Proof.Machine

section
variable {i j g q cl ch n p id k rd hd die pkg cut off : Nat} {st : Status} {s t u : State}

/-! ## Regions, channels and clusters -/

theorem HoldFrame.writePlace {bs : List Byte} (h : HoldFrame i s t) : HoldFrame i s (writePlace rd hd off bs t) := by
  unfold Machine.writePlace
  split
  · exact h
  · exact h.others rfl

theorem HoldFrame.freeRegion (h : HoldFrame i s t) : HoldFrame i s (freeRegion rd hd t) := by
  unfold Machine.freeRegion
  split
  · exact h
  · exact HoldFrame.forEach (h.others rfl) fun _ _ h => h.modChan

theorem HoldFrame.powerChans (h : HoldFrame i s t) : HoldFrame i s (powerChans t) :=
  h.forEach fun _ _ h => .ite (.ite h.modChan h) (.ite h.modChan h)

theorem HoldFrame.freeCluster (h : HoldFrame i s t) : HoldFrame i s (freeCluster cl t) :=
  h.modCl.forEach fun _ _ h => h.modUnit

theorem HoldFrame.resetCluster (h : HoldFrame i s t) : HoldFrame i s (resetCluster st cl t) := by
  unfold Machine.resetCluster
  exact ((h.forEach fun _ _ h => h.complete).forEach fun _ _ h => h.modUnit).modCl

theorem HoldFrame.renewCluster {src : Nat → Source} (h : HoldFrame i s t) : HoldFrame i s (renewCluster cl src t) :=
  h.modCl.forEach fun _ _ h => .ite h.setUnit h

/-! ## Pages and their index (R217 to R221) -/

theorem HoldFrame.unrefPage (h : HoldFrame i s t) : HoldFrame i s (unrefPage p t) := by
  unfold Machine.unrefPage
  split
  · exact h
  · exact .ite (h.others rfl) h.setPage

theorem HoldFrame.unlinkNode {x : Nat × Node} (h : HoldFrame i s t) : HoldFrame i s (unlinkNode x t) := h.others rfl

theorem HoldFrame.linkNode {x : Node} (h : HoldFrame i s t) : HoldFrame i s (linkNode n x t) := h.others rfl

theorem HoldFrame.evictLeaf {x : Nat × Node} (h : HoldFrame i s t) : HoldFrame i s (evictLeaf x t) := by
  unfold Machine.evictLeaf
  refine (HoldFrame.unrefPage ?_).bump
  split
  · exact h.unlinkNode.modNode
  · exact h.unlinkNode

theorem HoldFrame.takeNode (h : HoldFrame i s t) (hn : takeNode p k t = some (n, u)) : HoldFrame i s u := by
  unfold Machine.takeNode at hn
  split at hn
  · cases hn
    exact h
  · split at hn
    · cases hn
      exact h.evictLeaf
    · cases hn

theorem HoldFrame.insertPages {r : Req} (h : HoldFrame i s t) : HoldFrame i s (insertPages r k n p t) := by
  induction k generalizing n p t with
  | zero => exact h
  | succ k ih =>
    unfold Machine.insertPages
    split
    · exact h
    · dsimp only
      split
      · exact ih h
      · refine .ite h ?_
        split
        · exact h.bumpBy
        · next hnode => exact ih (h.takeNode hnode).linkNode.modNode.setPage

theorem HoldFrame.indexPrompts (h : HoldFrame i s t) : HoldFrame i s (indexPrompts t) :=
  h.forEach fun _ _ h => h.modReq.insertPages

theorem HoldFrame.reservePage {r : Req} (h : HoldFrame i s t) : HoldFrame i s (reservePage r t) := by
  unfold Machine.reservePage
  split
  · exact h
  · extract_lets room
    have hroom : HoldFrame i s room := by
      subst room
      split
      · exact h
      · split
        · exact h.evictLeaf
        · exact h
    clear_value room
    split
    · exact hroom.setPage.modReq
    · exact .ite hroom.modReq.bump hroom.modReq

theorem HoldFrame.reservePages (h : HoldFrame i s t) : HoldFrame i s (reservePages t) :=
  h.forEach fun _ _ h => h.reservePage

theorem HoldFrame.tenantBoundary (h : HoldFrame i s t) : HoldFrame i s (tenantBoundary t) :=
  HoldFrame.others (h.forEach fun _ _ h => h.modTenant) rfl

theorem HoldFrame.genBoundary (h : HoldFrame i s t) : HoldFrame i s (genBoundary t) :=
  .ite h.tenantBoundary.reservePages.indexPrompts h

/-! ## Requests and their rings (R189, R191, R201) -/

theorem HoldFrame.sweepReqs (h : HoldFrame i s t) : HoldFrame i s (sweepReqs t) := h.others rfl

theorem HoldFrame.ringPut {r : RingRec} (h : HoldFrame i s t) : HoldFrame i s (ringPut p j r t) := by
  unfold Machine.ringPut
  split
  · exact h
  · dsimp only
    split
    · exact h.writePlace.writePlace.modGen.modReq.sweepReqs
    · exact h.writePlace.writePlace.modGen

theorem HoldFrame.endReq {kind : EndKind} {b : Bool} (h : HoldFrame i s t) : HoldFrame i s (endReq p id kind n st b t) := by
  unfold Machine.endReq
  split
  · exact h
  · next r _ =>
    refine .ite h ?_
    cases r.ring with
    | none => exact .ite h.modReq.modPart.modGen h.modReq.modPart
    | some _ => exact .ite h.modReq.modPart.modLearn.modGen h.modReq.modPart.modLearn

theorem HoldFrame.freeEnded (h : HoldFrame i s t) : HoldFrame i s (freeEnded t) :=
  HoldFrame.sweepReqs (h.forEach fun _ _ h => (h.forEach fun _ _ h => h.unrefPage).modReq)

/-! ## Experience rings (R286 to R288) -/

theorem HoldFrame.expWrite {r : ExpRing} {bs : List Byte} (h : HoldFrame i s t) : HoldFrame i s (expWrite r off bs t) := by
  unfold Machine.expWrite
  dsimp only
  split
  · exact h.writePlace.writePlace
  · exact h.writePlace

theorem HoldFrame.expPut {c : Card} {kind req epoch : Nat} (h : HoldFrame i s t) : HoldFrame i s (expPut k c kind req epoch t) := by
  unfold Machine.expPut
  split
  · exact .ite h h.emit
  · exact h.expWrite.modRing

theorem HoldFrame.expHeader (h : HoldFrame i s t) : HoldFrame i s (expHeader k t) := by
  unfold Machine.expHeader
  split
  · exact h.expWrite
  · exact h

theorem HoldFrame.flushExpEnds (h : HoldFrame i s t) : HoldFrame i s (flushExpEnds j t) := by
  unfold Machine.flushExpEnds
  split
  · exact (h.modLearn.forEach fun _ _ h => h.expPut).forEach fun _ _ h => h.expHeader
  · exact h

theorem HoldFrame.closeRequests (h : HoldFrame i s t) : HoldFrame i s (closeRequests j st t) := by
  unfold Machine.closeRequests
  extract_lets ids ended
  have hended : HoldFrame i s ended := h.forEach fun _ _ h => h.endReq
  clear_value ended
  split
  · exact hended.flushExpEnds
  · exact (hended.modGen.forEach fun _ _ h => h.ringPut).flushExpEnds

/-! ## Late steps and bank switches (R213, R249 to R260) -/

theorem HoldFrame.dropUnchained (h : HoldFrame i s t) : HoldFrame i s (dropUnchained cl k st t) :=
  h.modCl.forEach fun _ _ h => h.retireUnrun

theorem HoldFrame.discardRuns {l : List (Nat × Nat)} (h : HoldFrame i s t) : HoldFrame i s (discardRuns cl k l t) := by
  unfold Machine.discardRuns
  exact h.modCl

theorem HoldFrame.dropStep {r : Req} {cause : AbortCause} (h : HoldFrame i s t) : HoldFrame i s (dropStep r cause t) := by
  unfold Machine.dropStep
  split
  · refine h.forEach fun _ _ h => ?_
    extract_lets serves uses runs chains cards
    have hcards : HoldFrame i s cards := ((HoldFrame.ite h.discardRuns h).forEach fun _ _ h => h.abortUse).dropUnchained
    clear_value cards
    split
    · exact .ite hcards.modCl.retireUnrun hcards
    · exact hcards
  · exact h

theorem HoldFrame.discardLate (h : HoldFrame i s t) : HoldFrame i s (discardLate j t) :=
  h.forEach fun _ _ h => h.dropStep.modReq

theorem HoldFrame.bankSwitch (h : HoldFrame i s t) : HoldFrame i s (bankSwitch n t) := by
  unfold Machine.bankSwitch
  split
  · exact h
  · exact h.modCtx.bump.discardLate

theorem HoldFrame.armSwitch (h : HoldFrame i s t) : HoldFrame i s (armSwitch n k t) :=
  .ite h.modCtx.bankSwitch h.modCtx

theorem HoldFrame.switchArm (h : HoldFrame i s t) : HoldFrame i s (switchArm n t) := by
  unfold Machine.switchArm
  split
  · exact h
  · exact .ite h (.ite (.ite h h.modCtx.sendCtrl) (.ite h.armSwitch.castCtrl h))

theorem HoldFrame.bankSwitches (h : HoldFrame i s t) : HoldFrame i s (bankSwitches t) :=
  h.forEach fun _ _ h => .ite h (.ite h.bankSwitch (.ite h.modCtx h.faultJob))

theorem HoldFrame.publishTicks (h : HoldFrame i s t) : HoldFrame i s (publishTicks t) := h.others rfl

theorem HoldFrame.liftFences {c : Ctx} (h : HoldFrame i s t) : HoldFrame i s (liftFences c t) := by
  refine h.forEach fun _ _ h => ?_
  split
  · exact h.modUnit
  · exact h

theorem HoldFrame.failHere (h : HoldFrame i s t) : HoldFrame i s (failHere n st t) := by
  unfold Machine.failHere
  split
  · exact h
  · exact h.liftFences.modCtx.bump

theorem HoldFrame.failPublish (h : HoldFrame i s t) : HoldFrame i s (failPublish n st t) := by
  unfold Machine.failPublish
  split
  · exact h
  · exact h.castCtrl.failHere

theorem HoldFrame.abortPublish (h : HoldFrame i s t) : HoldFrame i s (abortPublish j t) := by
  unfold Machine.abortPublish
  split
  · exact h
  · split
    · exact h
    · exact .ite h.failPublish h

/-! ## Seals, cuts and copies (R344 to R349) -/

theorem HoldFrame.holdSeal (h : HoldFrame i s t) : HoldFrame i s (holdSeal j pkg cut t) := by
  unfold Machine.holdSeal
  dsimp only
  split
  · exact h.modJobAg
  · exact .ite h.modJobAg.modJobAg.castCtrl h.modJobAg

theorem HoldFrame.sealDie {l : List Nat} {d : AgDie} (h : HoldFrame i s t) : HoldFrame i s (sealDie j l d t) := by
  unfold Machine.sealDie
  split
  · exact h
  · refine .ite h (.ite h.modAgDie.writePlace (h.modAgDie.writePlace.forEach fun _ _ h => ?_))
    split
    · exact h.modUnit
    · exact h

theorem HoldFrame.agSeal (h : HoldFrame i s t) : HoldFrame i s (agSeal j t) := by
  unfold Machine.agSeal
  split
  · refine .ite h ?_
    extract_lets sealed
    have hsealed : HoldFrame i s sealed := h.forEach fun _ _ h => h.sealDie
    clear_value sealed
    split
    · exact hsealed
    · exact .ite (.ite hsealed.bump.holdSeal hsealed.bump.sendCtrl) hsealed
  · exact h

theorem HoldFrame.copyEnds (h : HoldFrame i s t) : HoldFrame i s (copyEnds j t) := by
  unfold Machine.copyEnds
  split
  · exact h
  · exact .ite h h.modJobAg.castCtrl

theorem HoldFrame.copyTimeout (h : HoldFrame i s t) : HoldFrame i s (copyTimeout j t) := by
  unfold Machine.copyTimeout
  split
  · exact .ite h (.ite h.modJobAg.copyEnds.modJobAg.raise (.ite h.faultJob.modJobAg.raise h))
  · exact h

theorem HoldFrame.preemptApply (h : HoldFrame i s t) : HoldFrame i s (preemptApply j t) := by
  unfold Machine.preemptApply
  split
  · exact .ite h h.abortPublish.modJob.modJobAg
  · exact h

theorem HoldFrame.modLearnUnits {f : Nat × Nat → UnitSt → UnitSt} (h : HoldFrame i s t) :
    HoldFrame i s (modLearnUnits j die f t) := by
  refine h.forEach fun _ _ h => ?_
  split
  · exact h.modUnit
  · exact h

theorem HoldFrame.cutDie {d : AgDie} (h : HoldFrame i s t) : HoldFrame i s (cutDie j cut k d t) :=
  h.writePlace.modAgDie.modLearnUnits

theorem HoldFrame.doCut (h : HoldFrame i s t) : HoldFrame i s (doCut j t) := by
  unfold Machine.doCut
  split
  · exact .ite h (.ite h.modJobAg.bump (h.modJobAg.modJobAg.forEach fun _ _ h => h.cutDie))
  · exact h

theorem HoldFrame.cutStep (h : HoldFrame i s t) : HoldFrame i s (cutStep t) := by
  have hseals : HoldFrame i s (eachJob Machine.agSeal (eachJob Machine.copyTimeout (Machine.sweepColls t))) :=
    (h.sweepColls.forEach fun _ _ h => h.copyTimeout).forEach fun _ _ h => h.agSeal
  exact (HoldFrame.ite (hseals.forEach fun _ _ h => h.doCut) hseals).forEach fun _ _ h => h.preemptApply

/-! ## Ends of jobs and teardown (R392, R396) -/

/-- A change of every stream that leaves what HOLD_LIMIT reads. -/
theorem HoldFrame.mapStreams {f : Stream → Stream} (hf : ∀ x, (f x).holdView = x.holdView) (h : HoldFrame i s t) :
    HoldFrame i s { t with streams := tabMap (fun _ x => f x) t.streams } := by
  refine h.trans ⟨?_, fun _ => rfl, rfl, List.Subset.refl _⟩
  rw [getStream, getStream, tabGet, tabGet, tabFind_tabMap]
  cases tabFind i t.streams with
  | none => rfl
  | some x => exact hf x

theorem HoldFrame.hzRelease (h : HoldFrame i s t) : HoldFrame i s (hzRelease j t) := h.mapStreams fun _ => rfl

theorem HoldFrame.hzTeardown (h : HoldFrame i s t) : HoldFrame i s (hzTeardown p t) := by
  refine h.mapStreams fun x => ?_
  split
  · rfl
  · rfl

theorem HoldFrame.dropLibs {x : Job} (h : HoldFrame i s t) : HoldFrame i s (dropLibs x t) := by
  refine h.forEach fun _ _ h => ?_
  split
  · exact h.others rfl
  · exact h

theorem HoldFrame.releaseClusters (h : HoldFrame i s t) : HoldFrame i s (releaseClusters j t) :=
  h.forEach fun _ _ h => h.zeroMem.freeCluster.modCl

theorem HoldFrame.dropJob (h : HoldFrame i s t) : HoldFrame i s (dropJob j t) := by
  unfold Machine.dropJob
  split
  · exact h
  · extract_lets
    next freed =>
    have hfreed : HoldFrame i s freed := (h.hzRelease.dropLibs.others (by rfl)).releaseClusters.forEach fun _ _ h => h.freeRegion
    exact hfreed.others rfl

theorem HoldFrame.endJob (h : HoldFrame i s t) : HoldFrame i s (endJob j t) := by
  unfold Machine.endJob
  split
  · exact h
  · split
    · exact h
    · exact ((h.sweepColls.forEach fun _ _ h => h.beginAbort).castCtrl.forEach fun _ _ h => h.resetCluster).closeRequests.dropJob.bump

theorem HoldFrame.endJobs (h : HoldFrame i s t) : HoldFrame i s (endJobs t) := h.forEach fun _ _ h => h.endJob

theorem HoldFrame.releasePart (h : HoldFrame i s t) : HoldFrame i s (releasePart p t) := by
  unfold Machine.releasePart
  extract_lets freed returned
  have hreturned : HoldFrame i s returned := (h.forEach fun _ _ h => h.freeRegion).forEach fun _ _ h => HoldFrame.modChan (h.others rfl)
  exact HoldFrame.powerChans (hreturned.others rfl)

theorem HoldFrame.resetPart (h : HoldFrame i s t) : HoldFrame i s (resetPart p t) := h.modPart

theorem HoldFrame.teardownStep (h : HoldFrame i s t) : HoldFrame i s (teardownStep t) := by
  have hends {u : State} (h : HoldFrame i s u) : HoldFrame i s (if compUp u 5 then Machine.endJobs u else u) := .ite h.endJobs h
  unfold Machine.teardownStep
  dsimp only
  split
  · exact hends h
  · exact (hends (h.forEach fun _ _ h => h.decideEnd)).hzTeardown.resetPart.releasePart

/-! ## Creation, the audit and grants (R42, R392, R393) -/

theorem HoldFrame.wipeCluster (h : HoldFrame i s t) : HoldFrame i s (wipeCluster cl t) :=
  (h.forEach fun _ _ h => h.zeroMem.zeroMem.modUnit).zeroMem

theorem HoldFrame.wakeNew {b : Bool} (h : HoldFrame i s t) : HoldFrame i s (wakeNew b cl t) :=
  .ite (h.modCl.wipeCluster.forEach fun _ _ h => h.modUnit) h.modCl

theorem HoldFrame.wakeDies {e : BitVec 1024} (h : HoldFrame i s t) : HoldFrame i s (wakeDies e t) :=
  HoldFrame.others (h.forEach fun _ _ h => h.forEach fun _ _ h => h.wakeNew) rfl

theorem HoldFrame.coreRegion (h : HoldFrame i s t) : HoldFrame i s (coreRegion p rd t) := by
  unfold Machine.coreRegion
  split
  · exact h.others rfl
  · exact h

theorem HoldFrame.coreRegions (h : HoldFrame i s t) : HoldFrame i s (coreRegions p t) := h.forEach fun _ _ h => h.coreRegion

theorem HoldFrame.placeTables (h : HoldFrame i s t) : HoldFrame i s (placeTables p t) := by
  refine .ite h (h.forEach fun _ _ h => ?_)
  dsimp only
  split
  · exact h.others rfl
  · exact h

theorem HoldFrame.applyCreate (h : HoldFrame i s t) : HoldFrame i s (applyCreate t) := by
  unfold Machine.applyCreate
  split
  · exact .ite (HoldFrame.powerChans (h.others (by rfl))).wakeDies.coreRegions.placeTables h
  · exact h

theorem HoldFrame.auditCl {e : Nat × Cluster} (h : HoldFrame i s t) : HoldFrame i s (auditCl e t) := by
  unfold Machine.auditCl
  split
  · exact h
  · exact .ite h h.raise.faultJob

theorem HoldFrame.auditPart {e : Nat × PartSt} (h : HoldFrame i s t) : HoldFrame i s (auditPart e t) := by
  have hintake {c : Bool} {d : Nat} : HoldFrame i s (whenB c (Machine.raise .creditMismatch e.1 d) t) := .ite h.raise h
  exact .ite hintake.raise hintake

theorem HoldFrame.lastSteps (h : HoldFrame i s t) : HoldFrame i s (lastSteps t) := by
  have hswitched {u : State} (h : HoldFrame i s u) : HoldFrame i s (Machine.bankSwitches (eachCtx Machine.switchArm u)) :=
    (h.forEach fun _ _ h => h.switchArm).bankSwitches
  have hcreated := hswitched (HoldFrame.ite (c := (ptServes t && compUp t 2) = true) h.applyCreate h)
  exact ((HoldFrame.ite hcreated.freeEnded hcreated).forEach fun _ _ h => h.auditCl).forEach fun _ _ h => h.auditPart

theorem HoldFrame.applyGrants (h : HoldFrame i s t) : HoldFrame i s (applyGrants t) := by
  refine HoldFrame.forEach (h.others rfl) fun _ _ h => ?_
  dsimp only
  split
  · exact .ite h.modView h
  · exact h.others rfl

/-! ## Readings and the throttle (R444) -/

theorem HoldFrame.takeReadings {r : Readings} (h : HoldFrame i s t) : HoldFrame i s (takeReadings r t) := by
  unfold Machine.takeReadings
  extract_lets junctions four devices corrections
  have hfour {d : Nat} {f : Chan → Chan} {u : State} (h : HoldFrame i s u) : HoldFrame i s (four d f u) :=
    .ite (h.forEach fun _ _ h => h.modChan) h
  have hcorrections : HoldFrame i s corrections :=
    ((h.forEach fun _ _ h => .ite (h.others (by rfl)) h).forEach fun _ _ h => hfour h).forEach fun _ _ h => hfour h
  exact hcorrections.others rfl

theorem HoldFrame.setLevel (h : HoldFrame i s t) : HoldFrame i s (setLevel n k t) := HoldFrame.raise (h.others rfl)

theorem HoldFrame.throttle (h : HoldFrame i s t) : HoldFrame i s (throttle t) :=
  .ite (HoldFrame.setLevel (h.others rfl)) (.ite (HoldFrame.setLevel (h.others rfl)) (h.others rfl))

/-! ## Maintenance, numbers and Night (R89 to R91, R428, R439) -/

theorem HoldFrame.recordRepair (h : HoldFrame i s t) : HoldFrame i s (recordRepair n k t) :=
  .ite (h.others rfl) (HoldFrame.raise (h.others rfl))

theorem HoldFrame.dropMaint (h : HoldFrame i s t) : HoldFrame i s (dropMaint k n t) := h.others rfl

theorem HoldFrame.applyOutcome (h : HoldFrame i s t) : HoldFrame i s (applyOutcome n t) := by
  unfold Machine.applyOutcome
  dsimp only
  split
  · exact h
  · refine .ite h ?_
    split
    · exact h.dropMaint.modUnit
    · exact h.dropMaint.modUnit
    · exact (HoldFrame.ite h.dropMaint.putMem h.dropMaint).modUnit.recordRepair
    · exact h.dropMaint.modUnit.recordRepair

theorem HoldFrame.maintBoundary (h : HoldFrame i s t) : HoldFrame i s (maintBoundary t) :=
  HoldFrame.others (h.forEach fun _ _ h => h.applyOutcome) rfl

theorem HoldFrame.renumber (h : HoldFrame i s t) : HoldFrame i s (renumber cl t) := by
  unfold Machine.renumber
  refine .ite h ?_
  refine List.foldlRecOn (motive := fun acc : Nat × State => HoldFrame i s acc.2) _ _ h fun acc hacc _ _ => ?_
  dsimp only
  split
  · exact hacc.setUnit
  · exact hacc.setUnit

theorem HoldFrame.renumberAll (h : HoldFrame i s t) : HoldFrame i s (renumberAll t) := h.forEach fun _ _ h => h.renumber

theorem HoldFrame.applyPkg (h : HoldFrame i s t) : HoldFrame i s (applyPkg t) := by
  unfold Machine.applyPkg
  split
  · exact h.others rfl
  · exact h

theorem HoldFrame.nightDies (h : HoldFrame i s t) : HoldFrame i s (nightDies t) := h.others rfl

/-! ## Afterglow's holds and releases (R356, R359) -/

theorem HoldFrame.holdJob (h : HoldFrame i s t) : HoldFrame i s (holdJob j t) :=
  have hheld := (h.forEach fun _ _ h => h.resetCluster).forEach fun _ _ h => h.dropColl
  (HoldFrame.modJob (hheld.others (by rfl))).modJobAg

theorem HoldFrame.enterRestore {a b : Option Nat} (h : HoldFrame i s t) : HoldFrame i s (enterRestore j a b t) := h.modJobAg.modJob

theorem HoldFrame.refillLearn {a : AgCtx} (h : HoldFrame i s t) : HoldFrame i s (refillLearn j a t) := by
  refine HoldFrame.modJobAg (h.forEach fun d u hu => ?_)
  dsimp only
  split
  · exact hu
  · exact hu.forEach fun _ _ h => h.renewCluster

theorem HoldFrame.takeCut (h : HoldFrame i s t) : HoldFrame i s (takeCut j cut t) := by
  unfold Machine.takeCut
  extract_lets restoring
  have hrestoring : HoldFrame i s restoring := h.modJobAg.copyEnds.enterRestore
  clear_value restoring
  split
  · exact hrestoring
  · extract_lets asked
    have hasked : HoldFrame i s asked := hrestoring.forEach fun _ _ h => .ite h h.sendMsg
    clear_value asked
    split
    · exact .ite hasked.refillLearn hasked
    · exact hasked

theorem HoldFrame.boundaryHolds (h : HoldFrame i s t) : HoldFrame i s (boundaryHolds t) := by
  refine h.forEach fun _ _ h => ?_
  dsimp only
  split
  · exact h.holdJob.takeCut
  · exact h.holdJob

theorem HoldFrame.boundaryReleases (h : HoldFrame i s t) : HoldFrame i s (boundaryReleases t) :=
  h.forEach fun _ _ h =>
    have hfreed := h.forEach fun _ _ h => h.freeCluster.zeroMem
    HoldFrame.modAg (hfreed.others rfl)

theorem HoldFrame.agBoundary (h : HoldFrame i s t) : HoldFrame i s (agBoundary t) := .ite h.boundaryHolds.boundaryReleases h

end

end Sys2Proof.Machine
end

