-- ==== Sys2Proof/Proofs/HoldLimit.lean ====
section
/-!
A hold run at its limit (R379). The boundary's work before the streams' turn keeps what the limit rests on (`HoldFrame`), the turn of
the stream raises the event and winds the stream down (`streamBoundary_wound`), and neither another turn of the streams nor the
rest of the boundary takes that back (`Wound.again`, `Wound.frame`).
-/

namespace Sys2Proof.Machine

section
variable {i k n part detail : Nat} {st : Status} {s t u : State}

/-! ## The sessions that an event reaches -/

/-- The rights of session `n` cover a partition, or the package (R394). -/
def hears (n part : Nat) (s : State) : Bool :=
  packageRights s (.session n) || (decide (part < 16) && rightsOver s (.session n) part)

/-- Its rights alone decide what a session hears. -/
theorem hears_eq : hears n part s = ((tabFind n s.sc.sessions).map Sess.rights).any
    fun r => r.1 || (decide (part < 16) && (r.1 || r.2.toNat / 2 ^ part % 2 == 1)) := by
  cases hx : tabFind n s.sc.sessions with
  | none => simp [hears, packageRights, rightsOver, hx]
  | some x => simp [hears, packageRights, rightsOver, hx, Sess.rights]

theorem hears_of_covers {x : Sess} (hx : tabFind n s.sc.sessions = some x) (hpart : part < 16)
    (hcovers : x.package = true ∨ x.mask.toNat / 2 ^ part % 2 = 1) : hears n part s = true := by
  rcases hcovers with h | h
  · simp [hears, packageRights, hx, h]
  · simp [hears, rightsOver, hx, hpart, h]

theorem HoldFrame.hears (h : HoldFrame i s t) : hears n part t = hears n part s := by
  rw [hears_eq, hears_eq, h.rights]

theorem exists_session_of_hears (h : hears n part s = true) : ∃ x, tabFind n s.sc.sessions = some x := by
  cases hx : tabFind n s.sc.sessions with
  | none => simp [hears_eq, hx] at h
  | some x => exact ⟨x, rfl⟩

theorem event_mem_pushEvent {x : Sess} (hx : tabFind n s.sc.sessions = some x) :
    ∃ q, .event n q st part s.tk.tick detail ∈ (pushEvent n st part detail s).out := by
  simp [pushEvent, hx, emit]

theorem event_mem_deliver {x : Sess} (hx : tabFind n s.sc.sessions = some x) :
    ∃ q, .event n q st part s.tk.tick detail ∈ (deliver n st part detail s).out := by
  unfold deliver
  rw [hx]
  dsimp only
  split
  · exact event_mem_pushEvent hx
  · have hlost := ((HoldFrame.refl (i := 0) s).putSession (y := { x with lost := 0 }) hx rfl).pushEvent
      (n := n) (st := .mgmtEventsLost) (p := 0xFF) (detail := x.lost)
    obtain ⟨y, hy, -⟩ := Option.map_eq_some_iff.mp ((hlost.rights n).trans (congrArg (Option.map Sess.rights) hx))
    have hevent := event_mem_pushEvent (st := st) (part := part) (detail := detail) hy
    rwa [hlost.tick] at hevent

/-- An event reaches every session whose rights cover its partition (R394, R431). -/
theorem event_mem_raise (h : hears n part s = true) : ∃ q, .event n q st part s.tk.tick detail ∈ (raise st part detail s).out := by
  have hstep (m : Nat) (t : State) : HoldFrame 0 t (if hears m part t then deliver m st part detail t else t) :=
    .ite (HoldFrame.refl t).deliver (.refl t)
  obtain ⟨x, hx⟩ := exists_session_of_hears h
  refine forEach_of_mem (P := HoldFrame 0 s) (Q := fun t => ∃ q, .event n q st part s.tk.tick detail ∈ t.out)
    (fun m t _ ht => ht.trans (hstep m t)) (fun t ht => ?_) ?_ (mem_keys_of_tabFind hx) (.refl s)
  · have hhears : hears n part t = true := ht.hears.trans h
    obtain ⟨y, hy⟩ := exists_session_of_hears hhears
    have hevent := event_mem_deliver (st := st) (part := part) (detail := detail) hy
    rw [ht.tick] at hevent
    exact (if_pos hhears).symm ▸ hevent
  · rintro m t ⟨q, hq⟩
    exact ⟨q, (hstep m t).out hq⟩

/-! ## The turn of one stream -/

theorem hears_modStream {f : Stream → Stream} : hears n part (modStream k f s) = hears n part s := by
  obtain ⟨a, e⟩ := modStream_eq k f s
  rw [e]
  rfl

theorem HoldFrame.modStream_ne {f : Stream → Stream} (hk : i ≠ k) (h : HoldFrame i s t) : HoldFrame i s (modStream k f t) := by
  have hstream : (getStream (modStream k f t) i).holdView = (getStream t i).holdView := by rw [getStream_modStream_ne hk]
  obtain ⟨a, e⟩ := modStream_eq k f t
  rw [e] at hstream ⊢
  exact h.trans ⟨hstream, fun _ => rfl, rfl, List.Subset.refl _⟩

/-- The turn of another stream. -/
theorem HoldFrame.streamBoundary_ne (hk : i ≠ k) (h : HoldFrame i s t) : HoldFrame i s (streamBoundary k t) := by
  unfold streamBoundary
  extract_lets limited x clear
  have hlimited : HoldFrame i s limited := .ite (h.modStream_ne hk).raise h
  split
  · exact hlimited.modStream_ne hk
  · exact .ite (hlimited.modStream_ne hk) (hlimited.modStream_ne hk)
  · exact .ite (hlimited.modStream_ne hk).bumpBy (hlimited.modStream_ne hk)

/-- Stream `i` of `s` winds down in `t`, and its HZ_HOLD_LIMIT has gone to every session that hears of its partition, unless it was
noted before. -/
structure Wound (i : Nat) (s t : State) : Prop where
  state : (getStream t i).state = .winding
  ramp : (getStream t i).finalSent = false
  event : (getStream s i).limitDue = false → ∀ n, hears n (getStream s i).part s = true →
    ∃ q, .event n q .hzHoldLimit (getStream s i).part s.tk.tick i ∈ t.out

/-- What follows the wind-down and keeps the frame keeps it. -/
theorem Wound.frame (w : Wound i s t) (h : HoldFrame i t u) : Wound i s u := by
  refine ⟨h.state.trans w.state, h.finalSent.trans w.ramp, fun hdue n hn => ?_⟩
  obtain ⟨q, hq⟩ := w.event hdue n hn
  exact ⟨q, h.out hq⟩

theorem Wound.sameTk {f : State → State} (w : Wound i s (f t)) : Wound i s (sameTk f t) := ⟨w.state, w.ramp, w.event⟩

/-- What precedes the wind-down and keeps the frame can be left out. -/
theorem Wound.of_frame (w : Wound i t u) (h : HoldFrame i s t) : Wound i s u := by
  refine ⟨w.state, w.ramp, fun hdue n hn => ?_⟩
  rw [← h.tick, ← h.part]
  exact w.event (h.limitDue.trans hdue) n (by rw [h.part, h.hears, hn])

theorem holdLimit_eq_self (h : limitReached (getStream s i) = false) : holdLimit i s = s := by
  simp [holdLimit, h]

/-- Another turn of a stream that winds down leaves it so. -/
theorem Wound.again (hi : i < 4096) (w : Wound i s t) : Wound i s (streamBoundary i t) := by
  have hlimit : limitReached (getStream t i) = false := by simp [limitReached, w.state]
  unfold streamBoundary
  rw [holdLimit_eq_self hlimit]
  dsimp only
  rw [w.state, w.ramp]
  refine ⟨?_, ?_, ?_⟩
  · simpa [getStream_modStream_self hi] using w.state
  · simpa [getStream_modStream_self hi] using w.ramp
  · simpa [modStream_out] using w.event

/-- What HOLD_LIMIT does on its own: the limit is noted, and the event raised. -/
theorem holdLimit_reached (hi : i < 4096) (h : limitReached (getStream s i) = true) :
    (getStream (holdLimit i s) i).state = .live ∧ (getStream (holdLimit i s) i).limitDue = true ∧
      ((getStream s i).limitDue = false → ∀ n, hears n (getStream s i).part s = true →
        ∃ q, .event n q .hzHoldLimit (getStream s i).part s.tk.tick i ∈ (holdLimit i s).out) := by
  have hlive : (getStream s i).state = .live := by simp_all [limitReached]
  unfold holdLimit
  dsimp only
  split
  · generalize hnoted : modStream i _ s = noted
    have hraised : HoldFrame i noted (raise .hzHoldLimit (getStream s i).part i noted) := (HoldFrame.refl noted).raise
    refine ⟨hraised.state.trans ?_, hraised.limitDue.trans ?_, fun _ n hn => ?_⟩
    · rw [← hnoted, getStream_modStream_self hi, hlive]
    · rw [← hnoted, getStream_modStream_self hi]
    · have hhears : hears n (getStream s i).part noted = true := by rw [← hnoted, hears_modStream, hn]
      have htick : noted.tk.tick = s.tk.tick := by rw [← hnoted, modStream_tick]
      rw [← htick]
      exact event_mem_raise hhears
  · next hnoted =>
    have hdue : (getStream s i).limitDue = true := by simpa [h] using hnoted
    exact ⟨hlive, hdue, fun hnot => by simp [hdue] at hnot⟩

/-- The turn of a stream whose hold run is at its limit. -/
theorem streamBoundary_wound (hi : i < 4096) (h : limitReached (getStream s i) = true) : Wound i s (streamBoundary i s) := by
  obtain ⟨hlive, hdue, hevent⟩ := holdLimit_reached hi h
  unfold streamBoundary
  dsimp only
  rw [hlive]
  dsimp only
  rw [if_pos (.inr hdue)]
  refine ⟨?_, ?_, ?_⟩
  · simp [getStream_modStream_self hi, windStream]
  · simp [getStream_modStream_self hi, windStream]
  · simpa [modStream_out] using hevent

/-! ## The boundary -/

theorem mem_streams_of_limitReached (h : limitReached (getStream s i) = true) : i ∈ s.streams.map (·.1) := by
  cases hx : tabFind i s.streams with
  | some x => exact mem_keys_of_tabFind hx
  | none => simp [getStream, tabGet, hx, limitReached, streamReset] at h

theorem hzBoundary_wound (hi : i < 4096) (h : limitReached (getStream s i) = true) : Wound i s (hzBoundary s) := by
  refine forEach_of_mem (P := HoldFrame i s) (fun k t hk ht => ht.streamBoundary_ne (Ne.symm hk)) (fun t ht => ?_) (fun k t ht => ?_)
    (mem_streams_of_limitReached h) (.refl s)
  · exact (streamBoundary_wound hi (ht.limitReached.trans h)).of_frame ht
  · by_cases hk : k = i
    · subst hk
      exact ht.again hi
    · exact ht.frame ((HoldFrame.refl t).streamBoundary_ne (Ne.symm hk))

theorem otherWork_wound {r : Readings} (hi : i < 4096) (h : limitReached (getStream s i) = true) : Wound i s (otherWork r s) := by
  unfold otherWork
  extract_lets gen granted read turned
  have hgen : HoldFrame i s gen := (HoldFrame.refl s).genBoundary.publishTicks
  have hread : HoldFrame i s read := (HoldFrame.ite hgen.applyGrants hgen).takeReadings
  have hbefore : HoldFrame i s (if compUp read 3 then throttle read else read) := .ite hread.throttle hread
  have hturned : Wound i s turned := (hzBoundary_wound hi (hbefore.limitReached.trans h)).of_frame hbefore
  exact hturned.frame (HoldFrame.refl _).maintBoundary.renumberAll.applyPkg.nightDies.agBoundary

theorem HoldFrame.openBoundary (h : HoldFrame i s t) : HoldFrame i s (openBoundary t) := h.others rfl

theorem HoldFrame.settingStep (h : HoldFrame i s t) : HoldFrame i s (settingStep t) := by
  unfold Machine.settingStep
  split
  · exact .ite (h.others rfl) h
  · exact h

/-- The first three steps of R31, after the boundary has opened. -/
theorem HoldFrame.firstSteps (h : HoldFrame i s t) :
    HoldFrame i s (Machine.settingStep (Machine.sameTk (fun t => Machine.teardownStep (Machine.cutStep t)) (Machine.openBoundary t))) :=
  (h.openBoundary.sameTk fun _ h => h.cutStep.teardownStep).settingStep

/-- The steps of R31 that follow, and the boundary's other work. -/
theorem lastSteps_wound {r : Readings} (hi : i < 4096) (h : limitReached (getStream s i) = true) :
    Wound i s (sameTk (fun t => otherWork r (lastSteps t)) s) := by
  have hlast := (HoldFrame.refl (i := i) s).lastSteps
  exact Wound.sameTk (f := fun t => otherWork r (lastSteps t)) ((otherWork_wound hi (hlast.limitReached.trans h)).of_frame hlast)

theorem boundary_wound {r : Readings} (hphase : s.tk.phase = .drain ∨ s.tk.phase = .slot) (hi : i < 4096)
    (h : limitReached (getStream s i) = true) : Wound i s (boundary r s) := by
  have hdue : ¬(s.tk.phase ≠ .drain ∧ s.tk.phase ≠ .slot) := fun ⟨hdrain, hslot⟩ => hphase.elim hdrain hslot
  have hfirst := (HoldFrame.refl (i := i) s).firstSteps
  rw [boundary, if_neg hdue]
  exact (lastSteps_wound hi (hfirst.limitReached.trans h)).of_frame hfirst

/-- Settles O48: what precedes the streams' turn in a boundary keeps the limit, the turn of the stream winds it down and raises the
event, and what follows takes nothing back. -/
theorem holdLimitWinds : Obligations.HoldLimitWinds := by
  intro s r i hon hphase hi hlive hlimit hrun
  have hreached : limitReached (getStream s i) = true := by simp [limitReached, hlive, hlimit, hrun]
  obtain ⟨hstate, -, hevent⟩ := boundary_wound (r := r) hphase hi hreached
  exact ⟨_, running_on _ hon, hstate, fun hdue n x hx hpart hcovers => hevent hdue n (hears_of_covers hx hpart hcovers)⟩

end
end Sys2Proof.Machine
end

