-- ==== Sys2Proof/Proofs/BootServes.lean ====
section
/-!
Boot service (R411). Two guards precede every message: the package is in boot service, and the session's key is an unrevoked root
key. Behind them each message has one equation for the case in which it is served, and the obligation reads its result off that
equation.
-/

namespace Sys2Proof.Machine

/-! ## Flash devices and package reset -/

@[simp] theorem setFlash_out (d : Nat) (x : Option BootImage) (s : State) : (setFlash d x s).out = s.out := by
  unfold setFlash
  split <;> rfl

@[simp] theorem setFlash_power (d : Nat) (x : Option BootImage) (s : State) : (setFlash d x s).edge.power = s.edge.power := by
  unfold setFlash
  split <;> rfl

/-- The device that `setFlash` names holds what it was given. -/
theorem flash_setFlash_self (d : Nat) (x : Option BootImage) (s : State) :
    (if d = 0 then (setFlash d x s).edge.flash0 else (setFlash d x s).edge.flash1) = x := by
  by_cases h : d = 0 <;> simp [setFlash, h]

/-- An image that passes R408 and reads back is what the device holds (R405). -/
theorem programFlash_of_ok {b : BootImage} {s : State} (d : Nat) (h : bootCheck s (some b) = .ok) :
    programFlash d b true s = (.ok, emit (.flashed d) (setFlash d (some b) s)) := by
  rw [programFlash, if_pos ⟨h, rfl⟩]

@[simp] theorem packageReset_power (s : State) : (packageReset s).edge.power = .inReset := rfl
@[simp] theorem packageReset_flash0 (s : State) : (packageReset s).edge.flash0 = s.edge.flash0 := rfl

theorem release_of_inReset {s : State} (h : s.edge.power = .inReset) :
    release s = { s with edge := { s.edge with power := .released, rstN := true, jtag := .bypass, bypassBit := false } } :=
  if_pos h

/-! ## The two guards -/

theorem exec_bootService (k : Nat) (m : BootMsg) (s : State) : exec (.bootService k m) s = .next (bootService k m s) := rfl

theorem ends_bootService {k : Nat} {m : BootMsg} {s t : State} {P : State → Prop} (h : bootService k m s = t) (ht : P t) :
    Ends (.bootService k m) s P :=
  ⟨t, h ▸ exec_bootService k m s, ht⟩

section
variable {s : State} {k : Nat}

/-- A key that is not an unrevoked root key is not heard, whatever the message. -/
theorem bootService_unknownKey (m : BootMsg) (hservice : s.edge.power = .service) (hkey : rootKnown s k = false) :
    bootService k m s = emit (.authFailed .scAuthFailed) (bump .scAuthFails 0 s) := by
  simp [bootService, hservice, hkey]

/-! ## What the holder of a root key is served, and what it is denied -/

theorem bootService_readWn {off n : Nat} (hservice : s.edge.power = .service) (hkey : rootKnown s k = true)
    (hmin : 1 ≤ n) (hmax : n ≤ 128) (haligned : off % 8 = 0) (hend : off + 8 * n ≤ 0x100000) :
    bootService k (.readWn off n) s = bootReply .ok ((List.range n).map fun i => wnWord s (off + 8 * i)) s := by
  have hn : n ≠ 0 := by omega
  simp [bootService, hservice, hkey, hn, Nat.not_lt.mpr hmax, haligned, Nat.not_lt.mpr hend]

theorem bootService_bulkWriteStaging {off : Nat} {data : List Byte} (hservice : s.edge.power = .service)
    (hkey : rootKnown s k = true) (hmin : 1 ≤ data.length) (hmax : data.length ≤ 8192) (hend : off + data.length ≤ stagingBytes) :
    bootService k (.bulkWriteStaging off data) s = bootReply .ok [] (putMem (bytesAt (stagingKey off) data) s) := by
  have hdata : data ≠ [] := List.ne_nil_of_length_pos hmin
  simp [bootService, hservice, hkey, hdata, Nat.not_lt.mpr hmax, Nat.not_lt.mpr hend]

theorem bootService_flashWrite {d : Nat} {b : BootImage} (hservice : s.edge.power = .service) (hkey : rootKnown s k = true)
    (hdevice : d < 2) (hcheck : bootCheck s (some b) = .ok) :
    bootService k (.flashWrite d b true) s = bootReply .ok [] (emit (.flashed d) (setFlash d (some b) s)) := by
  have hd : ¬1 < d := by omega
  simp [bootService, hservice, hkey, hd, programFlash_of_ok d hcheck]

theorem bootService_reset (hservice : s.edge.power = .service) (hkey : rootKnown s k = true) :
    bootService k .reset s = release (packageReset (bootReply .ok [] s)) := by
  simp [bootService, hservice, hkey]

theorem bootService_other (hservice : s.edge.power = .service) (hkey : rootKnown s k = true) :
    bootService k .other s = bootReply .wnDenied [] s := by
  simp [bootService, hservice, hkey]

end

/-! ## The obligation -/

/-- Settles O58: behind the two guards each message is read off its equation. -/
theorem bootServiceServes : Obligations.BootService := by
  intro s k hservice
  refine ⟨fun m hkey => ends_bootService (bootService_unknownKey m hservice hkey) ?unknownKey,
    fun hkey => ⟨?readWn, ?bulkWrite, ?flashWrite, ?reset, ?other⟩⟩
  case unknownKey => simp
  case readWn =>
    intro off n hmin hmax haligned hend
    exact ends_bootService (bootService_readWn hservice hkey hmin hmax haligned hend) ⟨_, by simp, rfl⟩
  case bulkWrite =>
    intro off data hmin hmax hend
    exact ends_bootService (bootService_bulkWriteStaging hservice hkey hmin hmax hend) ⟨rfl, rfl, rfl⟩
  case flashWrite =>
    intro d b hdevice hcheck
    refine ends_bootService (bootService_flashWrite hservice hkey hdevice hcheck) ⟨flash_setFlash_self d (some b) s, ?_, ?_⟩
    · simp [bootReply, hservice]
    · simp [bootReply]
  case reset =>
    refine ends_bootService (bootService_reset hservice hkey) ?_
    rw [release_of_inReset (packageReset_power _)]
    exact ⟨rfl, rfl, packageReset_flash0 _⟩
  case other =>
    rw [exec_bootService, bootService_other hservice hkey]
    rfl

end Sys2Proof.Machine
end
